-- ==== Sys2Proof/Word.lean ====
section
/-! DEFINITION. The word types of the machine and their plainest arithmetic. -/

namespace Sys2Proof

/-- A general register, an address while it is computed, an operand of 64 bits (04 R90). -/
abbrev Word := BitVec 64

/-- The smallest addressable unit of memory (00 R12). -/
abbrev Byte := BitVec 8

/-- A vector register: 16 lanes of 32 bits (08 R205). -/
abbrev VReg := BitVec 512

/-- A flattened physical location: a space tag times `2^64` plus an offset within the space
(see `Sys2Proof.Machine.Locations`). -/
abbrev Loc := Nat

end Sys2Proof
end

