-- ==== Sys2Proof/Syntax.lean ====
section
/-! DEFINITION. The steps of the part: one constructor of `Instr` for each row of spec/opcode_table.json.
A row that is an instruction carries its decoded operands; a row that is an event carries the unit it
happens at and any value that comes from outside the module (log 1). -/

namespace Sys2Proof

/-- The length of an instruction word (01 Table 01.1). -/
inductive Len where
  | w64 | w96 | w128
  deriving DecidableEq, Repr

/-- A source operand (01 Table 01.3, Table 01.4). `none` is a slot the form does not use (R26); `l6`, `l32`
and `l64` are literals in the 6-bit field, in one literal word and in L1:L0. -/
inductive Src where
  | none
  | g (n : BitVec 6)
  | v (n : BitVec 6)
  | k (n : BitVec 6)
  | l6 (x : BitVec 6)
  | l32 (x : BitVec 32)
  | l64 (x : BitVec 64)
  deriving DecidableEq, Repr

/-- A destination operand (01 R24). -/
inductive Dst where
  | none
  | g (n : BitVec 6)
  | v (n : BitVec 6)
  | m (n : BitVec 6)
  deriving DecidableEq, Repr

/-- The length, mask selector and operands that every word has (01 Table 01.2). -/
structure Ops where
  len : Len
  m : BitVec 3
  d : Dst
  a : Src
  b : Src
  c : Src
  deriving DecidableEq, Repr

/-- Index shift and signed byte offset of a memory operand (01 Table 01.6); `off` is sign-extended. -/
structure MemX where
  shift : BitVec 2
  off : BitVec 32
  deriving DecidableEq, Repr

/-- Access width of LD and ST (01 Table 01.6). -/
inductive MemW where
  | b | h | w | d
  deriving DecidableEq, Repr

/-- Scope of a synchronising instruction (01 Table 01.7). -/
inductive Scope where
  | core | clu | chip | pkg | sys
  deriving DecidableEq, Repr

/-- Order suffix (01 Table 01.7). -/
inductive MemOrder where
  | rlx | acq | rel | ar
  deriving DecidableEq, Repr

/-- Scope, order and offset of an atomic, WAITCHG or rendezvous (01 Table 01.7, 06 Table 06.8). -/
structure SyncX where
  scope : Scope
  order : MemOrder
  off : BitVec 32
  deriving DecidableEq, Repr

/-- Rounding selector (03 Table 03.3). -/
inductive RSel where
  | rne | rtz | rdn | rup | sr | dyn
  deriving DecidableEq, Repr

/-- VCMP conditions (08 Table 08.4). -/
inductive VCond where
  | eq | ne | lt | ge | ltu | geu | feq | fne | flt | fge | fun
  deriving DecidableEq, Repr

/-- MLOG operations (08 R212). -/
inductive MLogOp where
  | and | or | xor | andn | not | mov | fromg
  deriving DecidableEq, Repr

/-- MPOP modes (08 R213). -/
inductive MPopMode where
  | cnt | first | raw
  deriving DecidableEq, Repr

/-- VRED and VSCAN operations (08 Table 08.5a). -/
inductive RedOp where
  | add | min | max | minu | maxu | and | or | xor | fadd | fmin | fmax
  deriving DecidableEq, Repr

/-- NEG and ABS of the three sources (08 R217). -/
structure FMods where
  negA : Bool
  absA : Bool
  negB : Bool
  absB : Bool
  negC : Bool
  absC : Bool
  deriving DecidableEq, Repr

/-- Element formats of FCVT, ICVT and BSCALE (08 Table 08.5). -/
inductive EFmt where
  | f32 | f16 | bf16 | e5m2 | e4m3 | i8 | u8 | i32
  deriving DecidableEq, Repr

/-- Matrix formats (09 Table 09.2). -/
inductive MFmt where
  | bf16 | fp16 | e4m3 | e5m2 | int8 | uint8 | c4
  deriving DecidableEq, Repr

/-- Fields of MSTREAM (09 Table 09.5). -/
structure MStreamX where
  clr : Bool
  src : Bool
  asc : Bool
  afmt : MFmt
  cb : BitVec 4
  set : BitVec 2
  klen : BitVec 7
  nlen : BitVec 9
  col0 : BitVec 8
  row0 : BitVec 8
  deriving DecidableEq, Repr

/-- Drained element formats (09 Table 09.5, DFMT). -/
inductive DFmt where
  | f32 | f16 | bf16
  deriving DecidableEq, Repr

/-- Fields of MDRAIN (09 Table 09.5). -/
structure MDrainX where
  clr : Bool
  src : Bool
  sat : Bool
  dfmt : DFmt
  cb : BitVec 4
  set : BitVec 2
  nlen : BitVec 9
  col0 : BitVec 8
  row0 : BitVec 8
  deriving DecidableEq, Repr

/-- Fields of ACOPY (11 Table 11.3): DIM 1 to 3, row strides of the 2-D and 3-D forms. -/
structure CopyX where
  dim : BitVec 2
  sync : Bool
  low : Bool
  srs : BitVec 32
  trs : BitVec 32
  deriving DecidableEq, Repr

/-- ASEQ modes (11 Table 11.4). -/
inductive SeqMode where
  | iss | done | own
  deriving DecidableEq, Repr

/-- HGEMV weight formats (11 R299). -/
inductive HFmt where
  | bf16 | e4m3 | e5m2
  deriving DecidableEq, Repr

/-- Fields of HGEMV (11 R299). -/
structure HgemvX where
  wfmt : HFmt
  acc : Bool
  wsc : Bool
  npc : BitVec 7
  n : BitVec 16
  k : BitVec 16
  stride : BitVec 32
  deriving DecidableEq, Repr

/-- Fields of AMSEND and AMSENDC (16 Table 16.1). -/
structure SendX where
  urg : Bool
  pcnt : BitVec 3
  pbase : BitVec 4
  deriving DecidableEq, Repr

/-- A firmware image as the boot ROM judges it (18 R418): whether its signature verifies, its security
version and its serial. -/
structure FwImage where
  signed : Bool
  version : BitVec 16
  serial : BitVec 32
  deriving DecidableEq, Repr

/-- Colophon modes (17 Table 17.1). -/
inductive ColMode where
  | off | record | replay
  deriving DecidableEq, Repr

/-- A queue control block as system software wrote it (18 R405; its byte layout is not given, log 13). -/
structure Qcb where
  queue : Nat
  addr : Word
  ring : Word
  n : Nat
  prio : Nat
  compRing : Word
  compSize : Nat
  readPos : Nat
  deriving DecidableEq, Repr

/-- A strand with SUP or PAGER that firmware creates (04 R92; log 20): its logical core, its PC, its fault handler and g0. -/
structure FwStrand where
  core : Nat
  pc : Word
  fault : Word
  arg : Word
  sup : Bool
  pager : Bool
  deriving DecidableEq, Repr

/-- What a request to create a context names (18 R404, 17 R382), with the control blocks that system software has written for
its queues (18 R405) and the strands that firmware creates in it. -/
structure CtxReq where
  asid : Nat
  part : Nat
  sec : Bool
  mode : ColMode
  rb : Word
  segLog : Nat
  quota : Nat
  slotQuota : Nat
  root : Word
  qcbs : List Qcb
  privileged : List FwStrand
  deriving DecidableEq, Repr

/-- What the debugger writes in a stopped strand, or a read of all of its state (19 R427). -/
inductive DbgWrite where
  | read
  | g (n : Nat) (val : Word)
  | pc (val : Word)
  | flags (val : Word)
  | rmode (val : Word)
  deriving DecidableEq, Repr

/-- The remote operations of RMAPOST (23 R461). -/
inductive RmaOp where
  | write | read | fadd | cas
  deriving DecidableEq, Repr

/-- One packet of a request over the fabric as it meets this module (23 R457, R465). `first` marks the
first packet of its operation, `opId` and `rmod` name the operation at its sender. -/
structure FabReq where
  op : RmaOp
  rmod : Nat
  rqp : Nat
  qp : Nat
  inc : BitVec 8
  /-- its number in the send sequence of its queue pair (23 Table 23.2) -/
  seq : Word
  opId : Nat
  first : Bool
  last : Bool
  key : BitVec 32
  off : Nat
  opLen : Nat
  len : Nat
  data : List Byte
  deriving DecidableEq, Repr

/-- A response to one packet of a posted operation, the packet named by its offset (23 R466): it goes to the queue pair that
posted, and carries its sender's INC (23 R469). -/
structure FabRsp where
  id : Nat
  qp : Nat
  inc : BitVec 8
  status : BitVec 8
  off : Nat
  data : List Byte
  deriving DecidableEq, Repr

/-- A packet of the fabric (23 R457). -/
inductive FabPkt where
  | req (p : FabReq)
  | rsp (r : FabRsp)
  deriving DecidableEq, Repr

/-- The steps of the part, in the order of spec/opcode_table.json. -/
inductive Instr where
  /-- ADD (R119). -/
  | add (w : Bool) (o : Ops)
  /-- SUB (R119). -/
  | sub (w : Bool) (o : Ops)
  /-- AND (R119). -/
  | and (w : Bool) (o : Ops)
  /-- OR (R119). -/
  | or (w : Bool) (o : Ops)
  /-- XOR (R119). -/
  | xor (w : Bool) (o : Ops)
  /-- ANDN (R119). -/
  | andn (w : Bool) (o : Ops)
  /-- SHL (R119). -/
  | shl (w : Bool) (o : Ops)
  /-- SHR (R119). -/
  | shr (w : Bool) (o : Ops)
  /-- SAR (R119). -/
  | sar (w : Bool) (o : Ops)
  /-- ROL (R119). -/
  | rol (w : Bool) (o : Ops)
  /-- MIN (R119). -/
  | min (w : Bool) (o : Ops)
  /-- MAX (R119). -/
  | max (w : Bool) (o : Ops)
  /-- MINU (R119). -/
  | minu (w : Bool) (o : Ops)
  /-- MAXU (R119). -/
  | maxu (w : Bool) (o : Ops)
  /-- MUL (R121). -/
  | mul (w : Bool) (o : Ops)
  /-- MULH (R121). -/
  | mulh (w : Bool) (o : Ops)
  /-- MULHU (R121). -/
  | mulhu (w : Bool) (o : Ops)
  /-- DIV (R121). -/
  | div (w : Bool) (o : Ops)
  /-- DIVU (R121). -/
  | divu (w : Bool) (o : Ops)
  /-- REM (R121). -/
  | rem (w : Bool) (o : Ops)
  /-- REMU (R121). -/
  | remu (w : Bool) (o : Ops)
  /-- CLZ (R122). -/
  | clz (o : Ops)
  /-- CTZ (R122). -/
  | ctz (o : Ops)
  /-- POPC (R122). -/
  | popc (o : Ops)
  /-- BREV (R122). -/
  | brev (o : Ops)
  /-- BSWAP (R122). -/
  | bswap (o : Ops)
  /-- SEXT (R122). -/
  | sext (o : Ops)
  /-- EXTB (R122). -/
  | extb (o : Ops)
  /-- INSB (R122). -/
  | insb (o : Ops)
  /-- CMP_EQ (R124). -/
  | cmpEq (o : Ops)
  /-- CMP_NE (R124). -/
  | cmpNe (o : Ops)
  /-- CMP_LT (R124). -/
  | cmpLt (o : Ops)
  /-- CMP_GE (R124). -/
  | cmpGe (o : Ops)
  /-- CMP_LTU (R124). -/
  | cmpLtu (o : Ops)
  /-- CMP_GEU (R124). -/
  | cmpGeu (o : Ops)
  /-- SEL (R124). -/
  | sel (o : Ops)
  /-- MOV (R125). -/
  | mov (o : Ops)
  /-- MOVI (R125). -/
  | movi (o : Ops)
  /-- MOVI_H (R125). -/
  | moviH (o : Ops)
  /-- LEA (R125). -/
  | lea (x : MemX) (o : Ops)
  /-- ADDPC (R125). -/
  | addpc (o : Ops)
  /-- BCC_EQ (R126). -/
  | bccEq (off : BitVec 32) (o : Ops)
  /-- BCC_NE (R126). -/
  | bccNe (off : BitVec 32) (o : Ops)
  /-- BCC_LT (R126). -/
  | bccLt (off : BitVec 32) (o : Ops)
  /-- BCC_GE (R126). -/
  | bccGe (off : BitVec 32) (o : Ops)
  /-- BCC_LTU (R126). -/
  | bccLtu (off : BitVec 32) (o : Ops)
  /-- BCC_GEU (R126). -/
  | bccGeu (off : BitVec 32) (o : Ops)
  /-- BCC_Z (R126). -/
  | bccZ (off : BitVec 32) (o : Ops)
  /-- BCC_NZ (R126). -/
  | bccNz (off : BitVec 32) (o : Ops)
  /-- JMP (R126). -/
  | jmp (off : BitVec 32) (o : Ops)
  /-- JMPI (R127). -/
  | jmpi (o : Ops)
  /-- CALL (R126). -/
  | call (off : BitVec 32) (o : Ops)
  /-- CALLI (R127). -/
  | calli (o : Ops)
  /-- RET (R128). -/
  | ret (o : Ops)
  /-- LOOP (R129). -/
  | loop (off : BitVec 32) (o : Ops)
  /-- JTAB (R130). -/
  | jtab (tbl cnt : BitVec 32) (o : Ops)
  /-- TRAP (R131). -/
  | trap (code : BitVec 8) (o : Ops)
  /-- BRK (R131). -/
  | brk (code : BitVec 8) (o : Ops)
  /-- SVC (R131). -/
  | svc (n : BitVec 12) (o : Ops)
  /-- NOP (R131). -/
  | nop (o : Ops)
  /-- PAUSE (R132). -/
  | pause (o : Ops)
  /-- YIELD (R133). -/
  | yield (o : Ops)
  /-- SRESUME (R134). -/
  | sresume (o : Ops)
  /-- SKILL (R135). -/
  | skill (o : Ops)
  /-- RDSYS (R45). -/
  | rdsys (num : BitVec 12) (o : Ops)
  /-- WRSYS (R139). -/
  | wrsys (num : BitVec 12) (o : Ops)
  /-- RDTIME (R140). -/
  | rdtime (o : Ops)
  /-- RDTIME_CC (R140). -/
  | rdtimeCc (o : Ops)
  /-- LD (R151). -/
  | ld (w : MemW) (sgn : Bool) (x : MemX) (o : Ops)
  /-- LD_ACQ (R152). -/
  | ldAcq (w : MemW) (sgn : Bool) (x : MemX) (o : Ops)
  /-- LDQ (R151). -/
  | ldq (x : MemX) (o : Ops)
  /-- ST (R151). -/
  | st (w : MemW) (x : MemX) (o : Ops)
  /-- ST_REL (R152). -/
  | stRel (w : MemW) (x : MemX) (o : Ops)
  /-- STQ (R151). -/
  | stq (x : MemX) (o : Ops)
  /-- RCOMMIT (R157). -/
  | rcommit (o : Ops)
  /-- AADD (R158). -/
  | aadd (dbl : Bool) (t : SyncX) (o : Ops)
  /-- AAND (R158). -/
  | aand (dbl : Bool) (t : SyncX) (o : Ops)
  /-- AOR (R158). -/
  | aor (dbl : Bool) (t : SyncX) (o : Ops)
  /-- AXOR (R158). -/
  | axor (dbl : Bool) (t : SyncX) (o : Ops)
  /-- AMIN (R158). -/
  | amin (dbl : Bool) (t : SyncX) (o : Ops)
  /-- AMAX (R158). -/
  | amax (dbl : Bool) (t : SyncX) (o : Ops)
  /-- AMINU (R158). -/
  | aminu (dbl : Bool) (t : SyncX) (o : Ops)
  /-- AMAXU (R158). -/
  | amaxu (dbl : Bool) (t : SyncX) (o : Ops)
  /-- ASWAP (R158). -/
  | aswap (dbl : Bool) (t : SyncX) (o : Ops)
  /-- AFADD (R159). -/
  | afadd (dbl : Bool) (t : SyncX) (o : Ops)
  /-- ACAS (R158). -/
  | acas (dbl : Bool) (t : SyncX) (o : Ops)
  /-- ACAS2 (R158). -/
  | acas2 (t : SyncX) (o : Ops)
  /-- FENCE (R161). -/
  | fence (scope : Scope) (order : MemOrder) (o : Ops)
  /-- FENCEP (R162). -/
  | fencep (scope : Scope) (order : MemOrder) (paths : BitVec 6) (o : Ops)
  /-- WAITCHG (R164). -/
  | waitchg (dbl : Bool) (t : SyncX) (o : Ops)
  /-- RVJOIN (R167). -/
  | rvjoin (t : SyncX) (o : Ops)
  /-- RVARRIVE (R167). -/
  | rvarrive (t : SyncX) (o : Ops)
  /-- RVWAIT (R167). -/
  | rvwait (t : SyncX) (o : Ops)
  /-- SPAWN (R171). -/
  | spawn (o : Ops)
  /-- EXIT (R172). -/
  | exit (o : Ops)
  /-- MIGRATE (R174). -/
  | migrate (o : Ops)
  /-- MIGRATE_C (R174). -/
  | migrateC (o : Ops)
  /-- VGROW (R209). -/
  | vgrow (o : Ops)
  /-- VSHRINK (R209). -/
  | vshrink (o : Ops)
  /-- VMOV (R210). -/
  | vmov (o : Ops)
  /-- VBCAST (R210). -/
  | vbcast (o : Ops)
  /-- VEXT (R210). -/
  | vext (o : Ops)
  /-- VINS (R210). -/
  | vins (o : Ops)
  /-- VIOTA (R210). -/
  | viota (o : Ops)
  /-- VCMP (R211). -/
  | vcmp (cond : VCond) (o : Ops)
  /-- MLOG (R212). -/
  | mlog (op : MLogOp) (ma mb : BitVec 3) (o : Ops)
  /-- MPOP (R213). -/
  | mpop (mode : MPopMode) (ma : BitVec 3) (o : Ops)
  /-- VPERM (R214). -/
  | vperm (o : Ops)
  /-- VSLIDE (R214). -/
  | vslide (up : Bool) (o : Ops)
  /-- VRED (R215). -/
  | vred (op : RedOp) (o : Ops)
  /-- VSCAN (R215). -/
  | vscan (op : RedOp) (o : Ops)
  /-- VADD (R216). -/
  | vadd (o : Ops)
  /-- VSUB (R216). -/
  | vsub (o : Ops)
  /-- VMUL (R216). -/
  | vmul (o : Ops)
  /-- VMAD (R216). -/
  | vmad (o : Ops)
  /-- VAND (R216). -/
  | vand (o : Ops)
  /-- VOR (R216). -/
  | vor (o : Ops)
  /-- VXOR (R216). -/
  | vxor (o : Ops)
  /-- VSHL (R216). -/
  | vshl (o : Ops)
  /-- VSHR (R216). -/
  | vshr (o : Ops)
  /-- VSAR (R216). -/
  | vsar (o : Ops)
  /-- VMIN (R216). -/
  | vmin (u : Bool) (o : Ops)
  /-- VMAX (R216). -/
  | vmax (u : Bool) (o : Ops)
  /-- FADD (R217). -/
  | fadd (md : FMods) (r : RSel) (o : Ops)
  /-- FSUB (R217). -/
  | fsub (md : FMods) (r : RSel) (o : Ops)
  /-- FMUL (R217). -/
  | fmul (md : FMods) (r : RSel) (o : Ops)
  /-- FFMA (R217). -/
  | ffma (md : FMods) (r : RSel) (o : Ops)
  /-- FMIN (R218). -/
  | fmin (md : FMods) (o : Ops)
  /-- FMAX (R218). -/
  | fmax (md : FMods) (o : Ops)
  /-- FRCP (R219). -/
  | frcp (o : Ops)
  /-- FRSQ (R219). -/
  | frsq (o : Ops)
  /-- FRCPN (R219). -/
  | frcpn (o : Ops)
  /-- FRSQN (R219). -/
  | frsqn (o : Ops)
  /-- FEXP2 (R220). -/
  | fexp2 (r : RSel) (o : Ops)
  /-- FLOG2 (R220). -/
  | flog2 (r : RSel) (o : Ops)
  /-- FTANH (R220). -/
  | ftanh (r : RSel) (o : Ops)
  /-- FCVT (R222). -/
  | fcvt (sf df : EFmt) (r : RSel) (part : BitVec 2) (sat amx : Bool) (o : Ops)
  /-- ICVT (R222). -/
  | icvt (sf df : EFmt) (r : RSel) (part : BitVec 2) (o : Ops)
  /-- C4ENC (R224). -/
  | c4enc (pos : BitVec 3) (o : Ops)
  /-- BSCALE_DERIVE (R223). -/
  | bscaleDerive (tf : EFmt) (o : Ops)
  /-- BSCALE_APPLY (R223). -/
  | bscaleApply (r : RSel) (o : Ops)
  /-- AMAXRD (R225). -/
  | amaxrd (o : Ops)
  /-- AMAXCLR (R225). -/
  | amaxclr (o : Ops)
  /-- VLD (R226). -/
  | vld (x : MemX) (o : Ops)
  /-- VST (R228). -/
  | vst (x : MemX) (o : Ops)
  /-- VGATH (R226). -/
  | vgath (x : MemX) (o : Ops)
  /-- VSCAT (R228). -/
  | vscat (x : MemX) (o : Ops)
  /-- SBIND (R229). -/
  | sbind (o : Ops)
  /-- SUNBIND (R229). -/
  | sunbind (o : Ops)
  /-- CBINIT (R233). -/
  | cbinit (cb : BitVec 4) (level : BitVec 2) (prod cons : BitVec 3) (o : Ops)
  /-- CBWAITF (R235). -/
  | cbwaitf (cb : BitVec 4) (o : Ops)
  /-- CBWAITE (R235). -/
  | cbwaite (cb : BitVec 4) (o : Ops)
  /-- CBPOP (R235). -/
  | cbpop (cb : BitVec 4) (o : Ops)
  /-- CBPUSH (R235). -/
  | cbpush (cb : BitVec 4) (o : Ops)
  /-- CBSTAT (R235). -/
  | cbstat (cb : BitVec 4) (o : Ops)
  /-- MWLOAD (R251). -/
  | mwload (wfmt : MFmt) (wsc : Bool) (o : Ops)
  /-- MCBOOK (R252). -/
  | mcbook (o : Ops)
  /-- MSTREAM (R255). -/
  | mstream (x : MStreamX) (o : Ops)
  /-- MDRAIN (R256). -/
  | mdrain (x : MDrainX) (o : Ops)
  /-- MCLR (R254). -/
  | mclr (shape : Bool) (set : BitVec 2) (o : Ops)
  /-- MSWAP (R253). -/
  | mswap (o : Ops)
  /-- MWAIT (R257). -/
  | mwait (all : Bool) (o : Ops)
  /-- GANG (R270). -/
  | gang (g : BitVec 2) (joint : Bool) (o : Ops)
  /-- CLBAR_ARRIVE (R274). -/
  | clbarArrive (bar : BitVec 4) (o : Ops)
  /-- CLBAR_WAIT (R274). -/
  | clbarWait (bar : BitVec 4) (o : Ops)
  /-- CHSET (R275). -/
  | chset (ctr : BitVec 2) (o : Ops)
  /-- CHUNK (R276). -/
  | chunk (ctr : BitVec 2) (o : Ops)
  /-- GEOM (R267). -/
  | geom (lv : BitVec 3) (o : Ops)
  /-- PART (R268). -/
  | part (lvs : BitVec 3) (edge : Bool) (o : Ops)
  /-- TLBINV_PAGE (R279). -/
  | tlbinvPage (wide : Bool) (o : Ops)
  /-- TLBINV_ASID (R279). -/
  | tlbinvAsid (wide : Bool) (o : Ops)
  /-- TLBINV_GLOB (R279). -/
  | tlbinvGlob (wide : Bool) (o : Ops)
  /-- TLBINV_ALL (R279). -/
  | tlbinvAll (wide : Bool) (o : Ops)
  /-- ACOPY (R290). -/
  | acopy (x : CopyX) (o : Ops)
  /-- ACOPYCB_FILL (R294). -/
  | acopycbFill (cb : BitVec 4) (sync low : Bool) (o : Ops)
  /-- ACOPYCB_DRAIN (R294). -/
  | acopycbDrain (cb : BitVec 4) (sync low : Bool) (o : Ops)
  /-- AWAIT (R296). -/
  | await (cls : BitVec 2) (all : Bool) (o : Ops)
  /-- ASEQ (R297). -/
  | aseq (cls : BitVec 3) (mode : SeqMode) (o : Ops)
  /-- HGEMV (R300). -/
  | hgemv (x : HgemvX) (o : Ops)
  /-- PAGEREQ_NEXT (R307). -/
  | pagereqNext (o : Ops)
  /-- PAGEREQ_REPLY (R307). -/
  | pagereqReply (o : Ops)
  /-- AMSEND (R364). -/
  | amsend (x : SendX) (o : Ops)
  /-- AMSENDC (R364). -/
  | amsendc (x : SendX) (o : Ops)
  /-- RMAPOST_WRITE (R462). -/
  | rmapostWrite (sync fence : Bool) (len : BitVec 32) (o : Ops)
  /-- RMAPOST_READ (R462). -/
  | rmapostRead (sync fence : Bool) (len : BitVec 32) (o : Ops)
  /-- RMAPOST_FADD (R462). -/
  | rmapostFadd (sync fence : Bool) (o : Ops)
  /-- RMAPOST_CAS (R462). -/
  | rmapostCas (sync fence : Bool) (o : Ops)
  /-- RMAPOLL (R464). -/
  | rmapoll (o : Ops)
  /-- ISSUE_GROUP (R180). -/
  | issueGroup (core : Nat)
  /-- PAUSE_END (R132). -/
  | pauseEnd (core slot : Nat)
  /-- YIELD_END (R133). -/
  | yieldEnd (core slot : Nat)
  /-- REGION_TIMER_COMMIT (R103). -/
  | regionTimerCommit (core slot : Nat)
  /-- REGION_COUNT_COMMIT (R103). -/
  | regionCountCommit (core slot : Nat)
  /-- WRITE_PERFORMED (R344). -/
  | writePerformed (id : Nat)
  /-- READ_PERFORMED (R344). -/
  | readPerformed (id part : Nat)
  /-- LOAD_REPLY (R146). -/
  | loadReply (id : Nat)
  /-- ATOMIC_AT_HOME (R158). -/
  | atomicAtHome (id : Nat)
  /-- ATOMIC_REPLY (R146). -/
  | atomicReply (id : Nat)
  /-- RENDEZVOUS_ARRIVE (R167). -/
  | rendezvousArrive (id : Nat)
  /-- RENDEZVOUS_TAKE (R167). -/
  | rendezvousTake (id : Nat)
  /-- RELEASE_REPLY (R170). -/
  | releaseReply (id : Nat)
  /-- RENDEZVOUS_RESEND (R169). -/
  | rendezvousResend (id : Nat)
  /-- WAITCHG_WAKE (R164). -/
  | waitchgWake (core slot : Nat)
  /-- WAITCHG_POLL (R164). -/
  | waitchgPoll (core slot : Nat)
  /-- REPL_LOCK_GRANT (R359). -/
  | replLockGrant (id : Nat)
  /-- REPL_UPDATE (R359). -/
  | replUpdate (id : Nat)
  /-- PAS_ACCEPT (R373). -/
  | pasAccept (id : Nat)
  /-- PAS_LOCK (R375). -/
  | pasLock (id : Nat)
  /-- PAS_RESULT (R373). -/
  | pasResult (id : Nat)
  /-- PAS_RESEND (R374). -/
  | pasResend (id : Nat)
  /-- PAGE_REPLY (R110). -/
  | pageReply (site tag : Nat)
  /-- FAULT_DELIVERY (R112). -/
  | faultDelivery (core : Nat)
  /-- DEFERRED_FAULT (R109). -/
  | deferredFault (core slot : Nat)
  /-- MIGRATION_ARRIVAL (R174). -/
  | migrationArrival (id : Nat)
  /-- MIGRATION_RESEND (R174). -/
  | migrationResend (id : Nat)
  /-- MIGRATION_STALE (R310). -/
  | migrationStale (id : Nat)
  /-- MESSAGE_ARRIVAL (R369). -/
  | messageArrival (id : Nat)
  /-- MESSAGE_ACTIVATION (R370). -/
  | messageActivation (core : Nat)
  /-- SEND_STATUS (R365). -/
  | sendStatus (id : Nat)
  /-- PARKED_RESTORE (R193). -/
  | parkedRestore (core : Nat)
  /-- DISPATCHER_PLACEMENT (R304). -/
  | dispatcherPlacement (site : Nat)
  /-- STEAL_REQUEST (R305). -/
  | stealRequest (site asid lh : Nat)
  /-- STEAL_ANSWER (R305). -/
  | stealAnswer (id : Nat)
  /-- STEAL_REPLY (R305). -/
  | stealReply (id : Nat)
  /-- PREEMPTION_REQUEST (R198). -/
  | preemptionRequest (core : Nat)
  /-- QUIESCE_END (R199). -/
  | quiesceEnd (core : Nat)
  /-- SAVE_COMPLETE (R201). -/
  | saveComplete (core : Nat)
  /-- RESUME_MESSAGE (R203). -/
  | resumeMessage (core : Nat)
  /-- RESTORE_COMPLETE (R203). -/
  | restoreComplete (core : Nat)
  /-- SPILL_QUEUE_REDELIVERY (R203). -/
  | spillQueueRedelivery (core : Nat)
  /-- ICACHE_FILL (R179). -/
  | icacheFill (clu line : Nat) (victim : Option Nat)
  /-- MATRIX_ENTRY_START (R246). -/
  | matrixEntryStart (core ticket : Nat)
  /-- MATRIX_ROW_ADD (R246). -/
  | matrixRowAdd (core ticket : Nat)
  /-- MATRIX_ENTRY_COMPLETE (R258). -/
  | matrixEntryComplete (core ticket : Nat)
  /-- ENGINE_START (R293). -/
  | engineStart (id : Nat)
  /-- ENGINE_SPAN (R292). -/
  | engineSpan (id : Nat)
  /-- ENGINE_COMPLETE (R288). -/
  | engineComplete (id : Nat)
  /-- BASE_DIE_START (R301). -/
  | baseDieStart (stack : Nat)
  /-- TLB_WALK (R278). -/
  | tlbWalk (clu id : Nat)
  /-- SHOOTDOWN_REQUEST (R281). -/
  | shootdownRequest (id clu : Nat)
  /-- SHOOTDOWN_ACK (R280). -/
  | shootdownAck (id clu : Nat)
  /-- SHOOTDOWN_RESEND (R281). -/
  | shootdownResend (id : Nat)
  /-- INRUSH_GRANT (R416). -/
  | inrushGrant
  /-- POWER_GOOD (R325). -/
  | powerGood (image : FwImage)
  /-- CLOCK_FORWARDING (R325). -/
  | clockForwarding (site : Nat)
  /-- SELF_TEST_DONE (R325). -/
  | selfTestDone (site : Nat) (grade : BitVec 2) (cores : BitVec 16)
  /-- EDGE_TRAINING_DONE (R325). -/
  | edgeTrainingDone (site : Nat) (failed : BitVec 8)
  /-- BRINGUP_TIMEOUT (R325). -/
  | bringupTimeout (site : Nat)
  /-- SITE_ENABLE (R325). -/
  | siteEnable (site : Nat)
  /-- PARTITION_CREATE (R327). -/
  | partitionCreate (part : Nat) (sites : List Nat) (d : BitVec 2) (donors : List Nat)
  /-- ROUTE_WRITE (R331). -/
  | routeWrite (site : Nat)
  /-- LOGICAL_CORE_REBIND (R328). -/
  | logicalCoreRebind (core spare : Nat)
  /-- REGION_FREQUENCY_CHANGE (R335). -/
  | regionFrequencyChange (region : Nat) (mhz : BitVec 16)
  /-- SITE_FAILURE (R334). -/
  | siteFailure (site : Nat)
  /-- ROUTED_PACKET_RETURN (R334). -/
  | routedPacketReturn (id : Nat)
  /-- CHIPLET_RESET (R309). -/
  | chipletReset (site : Nat)
  /-- STALE_RESPONSE (R310). -/
  | staleResponse (id : Nat)
  /-- FIRMWARE_REGISTER_WRITE (R343). -/
  | firmwareRegisterWrite (num : BitVec 12) (unit idx : Nat) (val : Word)
  /-- CONTEXT_CREATE (R404). -/
  | contextCreate (req : CtxReq)
  /-- CONTEXT_END (R404). -/
  | contextEnd (asid : Nat)
  /-- KICK (R413). -/
  | kick (queue : Nat)
  /-- EPOCH (R414). -/
  | epoch
  /-- PACKET_FETCH (R408). -/
  | packetFetch (slot : Nat)
  /-- RANGED_LAUNCH (R410). -/
  | rangedLaunch (slot : Nat)
  /-- ACTIVE_MESSAGE_LAUNCH (R411). -/
  | activeMessageLaunch (slot : Nat)
  /-- TIMED_LAUNCH (R380). -/
  | timedLaunch (slot : Nat)
  /-- TIMED_LAUNCH_FIRE (R380). -/
  | timedLaunchFire (slot : Nat)
  /-- BARRIER (R411). -/
  | barrier (slot : Nat)
  /-- SIGNAL (R411). -/
  | signal (slot : Nat)
  /-- COPY (R411). -/
  | copy (slot : Nat)
  /-- ATTESTATION (R419). -/
  | attestation (nonce : BitVec 512)
  /-- FIRMWARE_UPDATE (R418). -/
  | firmwareUpdate (image : FwImage)
  /-- PRESENTATION (R391). -/
  | presentation (id : Nat)
  /-- PRESENTATION_RESEND (R392). -/
  | presentationResend (id : Nat)
  /-- REPLAY_STALL (R398). -/
  | replayStall (asid lane : Nat)
  /-- LANE_DRAIN (R396). -/
  | laneDrain (asid lane n : Nat)
  /-- LANE_STALL_REPORT (R396). -/
  | laneStallReport (asid lane : Nat)
  /-- LANE_FILL (R397). -/
  | laneFill (asid lane : Nat) (recs : List (BitVec 256))
  /-- END_SET (R397). -/
  | endSet (asid : Nat)
  /-- DEBUG_ATTACH (R423). -/
  | debugAttach (asid : Nat) (authorised : Bool) (trapmask : BitVec 2)
  /-- STRAND_STOP (R424). -/
  | strandStop (core : Nat) (sid : Word)
  /-- CORE_STOP (R425). -/
  | coreStop (core : Nat)
  /-- CONTEXT_STOP (R425). -/
  | contextStop (asid : Nat)
  /-- FORCE (R425). -/
  | force (core : Nat)
  /-- RESUME (R427). -/
  | resume (core : Nat) (sid : Option Word) (pc : Word)
  /-- DELIVER (R427). -/
  | deliver (core : Nat) (sid : Word)
  /-- STEP (R428). -/
  | step (core : Nat) (sid : Word)
  /-- STATE_WRITE (R427). -/
  | stateWrite (core : Nat) (sid : Word) (w : DbgWrite)
  /-- DEBUG_MEMORY_ACCESS (R427). -/
  | debugMemoryAccess (asid : Nat) (va : Word) (n : Nat) (data : Option (List Byte))
  /-- DEBUG_CLEAR (R422). -/
  | debugClear (core : Nat) (perf : Bool)
  /-- SAMPLE (R435). -/
  | sample (core : Nat)
  /-- DOORBELL_WRITE (R452). -/
  | doorbellWrite (offset : Nat) (bytes : Nat) (val : Word)
  /-- DEBUG_COMMAND (R453). -/
  | debugCommand
  /-- HOST_PORT_FAILOVER (R455). -/
  | hostPortFailover (port : Bool)
  /-- QP_CREATE (R459). -/
  | qpCreate (asid link : Nat)
  /-- QP_INIT (R459). -/
  | qpInit (qp : Nat) (port : BitVec 2) (retry : BitVec 4)
  /-- QP_CONNECT (R459). -/
  | qpConnect (qp : Nat) (rmod : BitVec 8) (rqp : BitVec 24) (inc : BitVec 8)
  /-- QP_RESET (R459). -/
  | qpReset (qp : Nat)
  /-- QP_DESTROY (R459). -/
  | qpDestroy (qp : Nat)
  /-- REG (R460). -/
  | reg (asid : Nat) (base : Word) (len : Nat) (rr rw ra : Bool)
  /-- REVOKE (R468). -/
  | revoke (key : BitVec 32)
  /-- REVOKE_APPLY (R468). -/
  | revokeApply (link index : Nat)
  /-- FRAME_RECEIVE (R456). -/
  | frameReceive (link port : Nat) (ok : Bool)
  /-- PORT_RETRAIN (R456). -/
  | portRetrain (link port : Nat)
  /-- FABRIC_FORWARD (R457). -/
  | fabricForward (link dst : Nat) (pkt : FabPkt)
  /-- PACKET_AGE_DROP (R457). -/
  | packetAgeDrop (id : Nat)
  /-- FABRIC_REQUEST_AT_TARGET (R465). -/
  | fabricRequestAtTarget (link : Nat) (pkt : FabReq)
  /-- FABRIC_RESPONSE (R466). -/
  | fabricResponse (rsp : FabRsp)
  /-- NOT_READY_RESEND (R467). -/
  | notReadyResend (id : Nat)
  /-- QP_CONTEXT_FETCH (R467). -/
  | qpContextFetch (qp : Nat)
  /-- LINK_CHIPLET_RESET (R469). -/
  | linkChipletReset (link : Nat)
  /-- RMAPOST_START (R462). -/
  | rmapostStart (id : Nat)
  /-- MODULE_RESET (R325). -/
  | moduleReset
  /-- HOST_PORT_UP (R455). -/
  | hostPortUp (port : Bool)
  /-- PORT_TRAINED (R456). -/
  | portTrained (link port : Nat) (up : Bool)
  /-- TIME_DISCIPLINE (R403). -/
  | timeDiscipline (delta : Int)
  /-- STABLE_SUPPLY (R416). -/
  | stableSupply (clu : Nat)
  /-- CLUSTER_POWER_GATING (R416). -/
  | clusterPowerGating (clu : Nat)
  deriving DecidableEq, Repr

end Sys2Proof
end

