-- ==== Sys2Proof/Machine/Forms.lean ====
section
/-! DEFINITION. The accepted lengths, operand kinds and system registers of every form: Tables 02.1, 02.3,
05.1, 06.4, 08.1, 09.5, 10.1, 11.3, 11.4, 16.1 of the manual. -/

namespace Sys2Proof

/-- Kinds a source slot accepts (01 R25); all false for an unused slot (01 R26). -/
structure SrcKinds where
  g : Bool
  v : Bool
  k : Bool
  lit : Bool
  deriving DecidableEq, Repr

/-- Kinds a destination accepts (01 R24). -/
structure DstKinds where
  g : Bool
  v : Bool
  m : Bool
  none : Bool
  deriving DecidableEq, Repr

namespace Kinds

/-- An unused slot. -/
abbrev no : SrcKinds := { g := false, v := false, k := false, lit := false }
/-- g register. -/
abbrev g : SrcKinds := { g := true, v := false, k := false, lit := false }
/-- v register. -/
abbrev v : SrcKinds := { g := false, v := true, k := false, lit := false }
/-- Literal. -/
abbrev lit : SrcKinds := { g := false, v := false, k := false, lit := true }
/-- g register or constant. -/
abbrev gk : SrcKinds := { g := true, v := false, k := true, lit := false }
/-- g register or literal. -/
abbrev gl : SrcKinds := { g := true, v := false, k := false, lit := true }
/-- g register, constant or literal. -/
abbrev gkl : SrcKinds := { g := true, v := false, k := true, lit := true }
/-- v register, g register, constant or literal. -/
abbrev vgkl : SrcKinds := { g := true, v := true, k := true, lit := true }

/-- No destination. -/
abbrev dNone : DstKinds := { g := false, v := false, m := false, none := true }
/-- g destination. -/
abbrev dG : DstKinds := { g := true, v := false, m := false, none := false }
/-- g destination or none. -/
abbrev dGN : DstKinds := { g := true, v := false, m := false, none := true }
/-- v destination. -/
abbrev dV : DstKinds := { g := false, v := true, m := false, none := false }
/-- mask destination. -/
abbrev dM : DstKinds := { g := false, v := false, m := true, none := false }
/-- g or v destination. -/
abbrev dGV : DstKinds := { g := true, v := true, m := false, none := false }

end Kinds

/-- What a form accepts: lengths (01 R31), lanes (01 R27), kinds, register pairs (02 R50), and whether an
L1:L0 literal is accepted (01 R30). -/
structure Form where
  lens : List Len
  lanes : Bool
  d : DstKinds
  a : SrcKinds
  b : SrcKinds
  c : SrcKinds
  pairD : Bool
  pairB : Bool
  pairC : Bool
  wide : Bool
  deriving DecidableEq, Repr

namespace Form

/-- A form without pairs and lanes. -/
def mk' (lens : List Len) (d : DstKinds) (a b c : SrcKinds) : Form :=
  { lens, lanes := false, d, a, b, c, pairD := false, pairB := false, pairC := false, wide := true }

/-- A form with lanes (08 R206). -/
def lane (lens : List Len) (d : DstKinds) (a b c : SrcKinds) : Form :=
  { mk' lens d a b c with lanes := true }

/-- The lengths 64 and 96. -/
abbrev l2 : List Len := [.w64, .w96]
/-- The three lengths. -/
abbrev l3 : List Len := [.w64, .w96, .w128]
/-- The 64-bit length. -/
abbrev l1 : List Len := [.w64]
/-- The 128-bit length. -/
abbrev lE : List Len := [.w128]

open Kinds

-- 05 Table 05.1
def ialu : Form := mk' l3 dG gkl gkl no
def imul : Form := mk' l2 dG gkl gkl no
def bit1 : Form := mk' l1 dG gkl no no
def bit2 : Form := mk' l1 dG gkl gkl no
def bit3 : Form := mk' l1 dG gkl gkl gkl
def cmp : Form := mk' l2 dG gkl gkl no
def sel : Form := mk' l2 dG gkl gkl gkl
def mov : Form := mk' l1 dG gkl no no
def movi : Form := mk' l3 dG lit no no
def moviH : Form := mk' [.w96] dG lit no no
def lea : Form := mk' l2 dG g no gkl
def addpc : Form := mk' l2 dG lit no no
def bcc : Form := mk' l2 dNone gl gl no
def bccz : Form := mk' l2 dNone gl no no
def jmp : Form := mk' l2 dNone no no no
def call : Form := mk' l2 dG no no no
def jmpi : Form := mk' l1 dNone gk no no
def calli : Form := mk' l1 dG gk no no
def jtab : Form := mk' lE dNone gl no no
def sys : Form := mk' l1 dNone no no no
def nop : Form := mk' l3 dNone no no no
def sresume : Form := mk' l1 dNone gkl gkl no
def rdtime : Form := mk' l1 dG no no no
-- 02 R45
def rdsys (indexed : Bool) : Form := mk' l2 dG (if indexed then gl else no) no no
-- 02 R45 and 05 R114 name no kinds for slot B of WRSYS: a g register, a constant or a literal (log 37)
def wrsys (indexed : Bool) : Form := mk' l2 dNone (if indexed then gl else no) gkl no
-- 06 Table 06.4
def ld : Form := mk' l2 dG g no gkl
def ldq : Form := { ld with pairD := true }
def st : Form := mk' l2 dNone g gkl gkl
def stq : Form := { mk' l2 dNone g g gkl with pairB := true }
def bare : Form := mk' l1 dNone no no no
def aop : Form := mk' l2 dGN g gkl no
def acas : Form := mk' l2 dGN g gkl gkl
def acas2 : Form := { mk' l2 dGN g g g with pairD := true, pairB := true, pairC := true }
def waitchg : Form := mk' l2 dG g gkl no
def rvjoin : Form := mk' l2 dGN g gkl gkl
def rvwait : Form := mk' l2 dG g gkl no
def spawn : Form := mk' l2 dGN gk gkl no
def migrate : Form := mk' l2 dNone gk no no
def migrateC : Form := mk' l2 dNone gkl no no
-- 08 Table 08.1
def vgrow : Form := mk' l1 dNone gkl no no
def vmov : Form := lane l2 dV vgkl no no
def vbcast : Form := lane l2 dV v gkl no
def vext : Form := mk' l2 dG v gkl no
def vins : Form := lane l2 dV gkl gkl no
def viota : Form := lane l2 dV gkl gkl no
def vcmp : Form := lane l2 dM vgkl vgkl no
def mlogF (op : MLogOp) : Form := mk' l2 dM (if op == .fromg then gkl else no) no no
def mpop : Form := mk' l2 dG no no no
def vperm : Form := lane l2 dV v v no
def vslide : Form := lane l2 dV v gkl vgkl
def vred : Form := lane l1 dGV v no no
def vscan : Form := lane l1 dV v no no
def valu : Form := lane l2 dV vgkl vgkl no
def vmad : Form := lane l2 dV vgkl vgkl vgkl
def vfalu : Form := { lane l3 dV vgkl vgkl no with wide := false }
def ffma : Form := { lane l3 dV vgkl vgkl vgkl with wide := false }
def vf1 : Form := lane l1 dV vgkl no no
def vf2 : Form := lane l1 dV vgkl vgkl no
def cvt : Form := lane l1 dV v no no
def bscaleApply : Form := lane l1 dV v vgkl no
def c4enc : Form := lane l1 dV v v no
def amaxrd (d : Dst) : Form :=
  match d with
  | .g _ => mk' l1 dG no no no
  | _ => lane l1 dV no no no
def amaxclr : Form := mk' l1 dNone no no no
def vld : Form := lane l2 dV g no gkl
def vst : Form := lane l2 dNone g v gkl
def vgath : Form := lane l2 dV g no v
def vscat : Form := lane l2 dNone g v v
def sbind : Form := mk' l2 dV g gkl gkl
def sunbind : Form := mk' l2 dV no no no
def cbinit : Form := mk' l2 dNone gkl gkl gkl
def cbwait : Form := mk' l2 dGN no no no
def cbpop : Form := mk' l2 dNone no no no
def cbpush : Form := mk' l2 dNone gk no no
def cbstat : Form := mk' l2 dG no no no
-- 09 Table 09.5
def mwload (wsc : Bool) : Form := mk' lE dGN g gkl (if wsc then gk else no)
def mcbook : Form := mk' l2 dGN g gkl no
def mstream (src : Bool) : Form := mk' lE dGN (if src then no else g) (if src then no else gkl) gkl
def mclr : Form := mk' l1 dGN no no no
def mwait (all : Bool) : Form := mk' l1 dGN (if all then no else gk) no no
-- 10 Table 10.1
def gang : Form := mk' l1 dGN gkl no no
def chset : Form := mk' l2 dNone gkl gkl gkl
def chunk : Form := mk' l2 dG no no no
def geom : Form := mk' l1 dG no no no
def part (explicit edge : Bool) : Form :=
  mk' l1 (if edge then dM else dG) gkl (if explicit then gkl else no) (if explicit then gkl else no)
def tlbinvPage : Form := mk' l2 dGN gk gkl no
def tlbinvAsid : Form := mk' l2 dGN no gkl no
def tlbinvAll : Form := mk' l2 dGN no no no
-- 11 Table 11.3, Table 11.4, R299, R307
def acopy (dim : BitVec 2) : Form :=
  if dim = 3 then { mk' lE dGN gk gk g with pairC := true }
  else if dim = 2 then mk' lE dGN gk gk gk
  else mk' lE dGN gk gk gkl
def acopycb : Form := mk' lE dGN gk gkl gk
def await (all : Bool) : Form := mk' l1 dGN (if all then no else gk) no no
def aseq : Form := mk' l1 dG no no no
def hgemv : Form := mk' lE dGN gk gk gk
def pageNext : Form := mk' l1 dG g no no
def pageReply : Form := mk' l1 dNone no gkl gkl
-- 16 Table 16.1
def amsend : Form := mk' l2 dGN gk gk no
def amsendc : Form := mk' l2 dGN gkl gk no
-- 23 R461, R464
def rmapost : Form := mk' lE dGN gk gkl gk
def rmapoll : Form := mk' l1 dG gkl no no

end Form

/-- A system register as its table lists it: writable by WRSYS, and the module-wide range of its index
(02 R46, R47): `none` takes no index. -/
structure SysReg where
  writable : Bool
  index : Option Nat
  deriving DecidableEq, Repr

/-- The system registers (02 Table 02.3; 07 Table 07.7; 10 Table 10.6; 11 Table 11.8; 14 Table 14.7;
17 Table 17.12; 18 Table 18.6; 19 Table 19.6; 23 Table 23.8). -/
def sysReg (num : BitVec 12) : Option SysReg :=
  let ro (n : Option Nat) : Option SysReg := some { writable := false, index := n }
  let rw (n : Option Nat) : Option SysReg := some { writable := true, index := n }
  match num.toNat with
  | 0x000 => ro none | 0x001 => ro none | 0x002 => ro none | 0x003 => ro none | 0x004 => ro none
  | 0x005 => ro none | 0x006 => ro none | 0x007 => rw none | 0x008 => rw none | 0x009 => ro none
  | 0x00A => ro none | 0x00B => ro none | 0x00C => ro none | 0x00D => ro none | 0x00E => ro none
  | 0x010 => ro (some 8)
  | 0x100 => rw (some 64) | 0x101 => ro (some 320) | 0x102 => ro none | 0x103 => rw none
  | 0x104 => ro none | 0x105 => ro (some 64) | 0x106 => ro (some 128) | 0x107 => ro (some 64)
  | 0x108 => ro (some 4) | 0x109 => rw none | 0x10A => ro none
  | 0x200 => ro none | 0x201 => rw (some 5) | 0x202 => ro none | 0x203 => ro (some 4)
  | 0x204 => ro (some 16) | 0x205 => ro (some 4) | 0x206 => ro (some 4)
  | 0x300 => ro none | 0x301 => ro (some 4) | 0x302 => ro (some 16) | 0x303 => ro none
  | 0x304 => ro none | 0x305 => ro none | 0x306 => ro none | 0x307 => ro none
  | 0x400 => ro (some 324) | 0x401 => ro (some 304) | 0x402 => ro (some 36) | 0x403 => ro none
  | 0x404 => ro (some 4096) | 0x405 => ro none | 0x406 => ro none
  | 0x410 => ro (some 4096) | 0x411 => ro (some 49152) | 0x412 => ro (some 49152) | 0x413 => ro none
  | 0x420 => ro (some 256) | 0x421 => ro (some 1024) | 0x422 => ro none | 0x423 => ro (some 36864)
  | 0x424 => ro none
  | 0x430 => ro (some 4480) | 0x431 => ro (some 17920) | 0x432 => ro (some 17920)
  | 0x433 => ro (some 17920) | 0x434 => ro (some 4480) | 0x435 => ro (some 286720)
  | 0x436 => ro (some 1146880) | 0x437 => ro (some 1146880) | 0x438 => ro (some 4096)
  | 0x439 => ro (some 4096) | 0x43A => ro (some 71680)
  | 0x440 => ro (some 60) | 0x441 => ro (some 256) | 0x442 => ro (some 15) | 0x443 => ro (some 15)
  | _ => Option.none

/-- Whether `i` is a value the index formula of register `num` takes (02 R47): INFLT has entries 0 to 55. -/
def SysReg.inRange (r : SysReg) (num : BitVec 12) (i : Nat) : Bool :=
  match r.index with
  | none => false
  | some n => decide (i < n) && (num != 0x437 || decide (i % 256 < 224))

/-- The number of set bits among the low `n` bits of `x`. -/
def bitCount : Nat → Nat → Nat
  | 0, _ => 0
  | n + 1, x => x % 2 + bitCount n (x / 2)

/-! ### The literal rules -/

/-- Whether a source is a literal. -/
def Src.isLit : Src → Bool
  | .l6 _ | .l32 _ | .l64 _ => true
  | _ => false

/-- Whether a slot of kinds `k` accepts the source (01 R25, R26). -/
def SrcKinds.accepts (k : SrcKinds) : Src → Bool
  | .none => !(k.g || k.v || k.k || k.lit)
  | .g _ => k.g
  | .v _ => k.v
  | .k _ => k.k
  | .l6 _ | .l32 _ | .l64 _ => k.lit

/-- Whether a destination of kinds `k` accepts the operand (01 R24). -/
def DstKinds.accepts (k : DstKinds) : Dst → Bool
  | .none => k.none
  | .g _ => k.g
  | .v _ => k.v
  | .m _ => k.m

/-- Whether the first register of a pair is even (02 R50, 06 R150). -/
def pairOk (pair : Bool) (n : BitVec 6) : Bool := !pair || n.getLsbD 0 == false

/-- Pair rule on a destination. -/
def Dst.evenOk (pair : Bool) : Dst → Bool
  | .g n => pairOk pair n
  | _ => true

/-- Pair rule on a source. -/
def Src.evenOk (pair : Bool) : Src → Bool
  | .g n => pairOk pair n
  | _ => true

/-- The literal operands of a format R word, in slot order, are those its length carries (01 Table 01.4). -/
def Ops.litsR (wide : Bool) (o : Ops) : Bool :=
  match o.len, [o.a, o.b, o.c].filter Src.isLit with
  | .w64, ls => ls.all fun x => match x with | .l6 _ => true | _ => false
  | .w96, [] => true
  | .w96, [.l32 _] => true
  | .w128, [] => true
  | .w128, [.l64 _] => wide
  | .w128, [.l32 _, .l32 _] => true
  | _, _ => false

/-- In formats M, B and E a literal operand uses its own 6-bit field (01 R35). -/
def Ops.lits6 (o : Ops) : Bool :=
  ([o.a, o.b, o.c].filter Src.isLit).all fun x => match x with | .l6 _ => true | _ => false

/-- Length, mask selector, kinds and pairs of an operand set against its form (01 R24 to R27, R31). -/
def Ops.fits (f : Form) (o : Ops) : Bool :=
  f.lens.contains o.len && (f.lanes || o.m == 0) && f.d.accepts o.d && f.a.accepts o.a &&
    f.b.accepts o.b && f.c.accepts o.c && o.d.evenOk f.pairD && o.b.evenOk f.pairB && o.c.evenOk f.pairC

/-! ### Fields of X -/

/-- A signed offset fits the field of `k` bits in the 64-bit form; the 96-bit form carries it in L0
(01 R33, R34, R36). -/
def offOk (k : Nat) (len : Len) (off : BitVec 32) : Bool :=
  match len with
  | .w64 => (off.setWidth k).signExtend 32 == off
  | _ => true

/-- Offset of a load or store (01 Table 01.6). -/
def memOk (o : Ops) (x : MemX) : Bool := offOk 7 o.len x.off

/-- Offset of an atomic (01 Table 01.7). -/
def syncOk (o : Ops) (t : SyncX) : Bool := offOk 6 o.len t.off

/-- Offset of a branch (01 R36). -/
def branchOk (o : Ops) (off : BitVec 32) : Bool := offOk 13 o.len off

/-- Whether a system register takes an index. -/
def indexed (num : BitVec 12) : Bool :=
  match sysReg num with
  | some r => r.index.isSome
  | none => false

/-- The value of a literal in a slot that sign-extends (01 R29). -/
def Src.litVal : Src → Option Word
  | .l6 x => some (x.signExtend 64)
  | .l32 x => some (x.signExtend 64)
  | .l64 x => some x
  | _ => Option.none

/-- What the word alone decides of RDSYS and WRSYS (02 R47). -/
def sysOk (num : BitVec 12) (wr : Bool) (o : Ops) : Bool :=
  match sysReg num with
  | none => false
  | some r =>
    (!wr || r.writable) &&
      match r.index, o.a.litVal with
      | some _, some i => r.inRange num i.toNat
      | _, _ => true

/-- MLOG: a mask number that the operation does not read is zero (08 R212). -/
def mlogOk (op : MLogOp) (ma mb : BitVec 3) : Bool :=
  match op with
  | .not | .mov => mb == 0
  | .fromg => ma == 0 && mb == 0
  | _ => true

/-- No modifier on the unused slot C (08 R217). -/
def noC (md : FMods) : Bool := !md.negC && !md.absC

/-- Width in bits of an element format (03 Table 03.1, R68). -/
def EFmt.width : EFmt → Nat
  | .f32 | .i32 => 32
  | .f16 | .bf16 => 16
  | .e5m2 | .e4m3 | .i8 | .u8 => 8

/-- Whether a format is one of the integer formats 101 to 111 (08 Table 08.5). -/
def EFmt.isInt : EFmt → Bool
  | .i8 | .u8 | .i32 => true
  | _ => false

/-- Width of the narrow side of a conversion, 32 when there is none (08 R221). -/
def narrowWidth (sf df : EFmt) : Nat := Nat.min sf.width df.width

/-- PART is 0 without a narrow side and at most 1 when it is 16 bits wide (08 R221). -/
def partOk (sf df : EFmt) (part : BitVec 2) : Bool :=
  match narrowWidth sf df with
  | 32 => part == 0
  | 16 => decide (part.toNat ≤ 1)
  | _ => true

/-- FCVT fields (08 R221). -/
def fcvtOk (sf df : EFmt) (r : RSel) (part : BitVec 2) (sat : Bool) : Bool :=
  !sf.isInt && !df.isInt && (sf == .f32 || df == .f32) && partOk sf df part && (!sat || df != .f32) &&
    (df != .f32 || r == .dyn)

/-- ICVT fields (08 R221). -/
def icvtOk (sf df : EFmt) (r : RSel) (part : BitVec 2) : Bool :=
  ((sf.isInt && df == .f32) || (df.isInt && sf == .f32)) && partOk sf df part &&
    (!(sf == .i8 || sf == .u8) || r == .dyn)

/-- MSTREAM fields (09 Table 09.5). -/
def mstreamOk (x : MStreamX) : Bool :=
  x.afmt != .c4 && (x.src || x.cb == 0) && decide (x.klen.toNat ≤ 96) && decide (x.nlen.toNat ≤ 256)

/-- MDRAIN fields (09 Table 09.5). -/
def mdrainOk (x : MDrainX) : Bool :=
  (x.src || x.cb == 0) && decide (x.nlen.toNat ≤ 256) && (!x.sat || x.dfmt != .f32)

/-- Payload fields of a send (16 R363). -/
def sendOk (x : SendX) : Bool :=
  x.pcnt != 7 && (x.pcnt != 0 || x.pbase == 0) && decide (x.pbase.toNat + x.pcnt.toNat ≤ 16)

/-! ### The form of an instruction -/

/-- The form an instruction is held against, its operands, whether its literals follow format R, and the
verdict of its own fields. -/
structure Shape where
  form : Form
  ops : Ops
  fmtR : Bool
  fields : Bool
  deriving DecidableEq, Repr

/-- A shape in format R (01 R29). -/
abbrev shapeR (f : Form) (o : Ops) (ok : Bool) : Shape := { form := f, ops := o, fmtR := true, fields := ok }

/-- A shape in formats M, B and E (01 R35). -/
abbrev shape6 (f : Form) (o : Ops) (ok : Bool) : Shape := { form := f, ops := o, fmtR := false, fields := ok }

/-- The shape of each instruction; a step that is an event has no word. -/
def Instr.shape : Instr → Option Shape
  | .add _ o => some (shapeR Form.ialu o true)
  | .sub _ o => some (shapeR Form.ialu o true)
  | .and _ o => some (shapeR Form.ialu o true)
  | .or _ o => some (shapeR Form.ialu o true)
  | .xor _ o => some (shapeR Form.ialu o true)
  | .andn _ o => some (shapeR Form.ialu o true)
  | .shl _ o => some (shapeR Form.ialu o true)
  | .shr _ o => some (shapeR Form.ialu o true)
  | .sar _ o => some (shapeR Form.ialu o true)
  | .rol _ o => some (shapeR Form.ialu o true)
  | .min _ o => some (shapeR Form.ialu o true)
  | .max _ o => some (shapeR Form.ialu o true)
  | .minu _ o => some (shapeR Form.ialu o true)
  | .maxu _ o => some (shapeR Form.ialu o true)
  | .mul _ o => some (shapeR Form.imul o true)
  | .mulh _ o => some (shapeR Form.imul o true)
  | .mulhu _ o => some (shapeR Form.imul o true)
  | .div _ o => some (shapeR Form.imul o true)
  | .divu _ o => some (shapeR Form.imul o true)
  | .rem _ o => some (shapeR Form.imul o true)
  | .remu _ o => some (shapeR Form.imul o true)
  | .clz o => some (shapeR Form.bit1 o true)
  | .ctz o => some (shapeR Form.bit1 o true)
  | .popc o => some (shapeR Form.bit1 o true)
  | .brev o => some (shapeR Form.bit1 o true)
  | .bswap o => some (shapeR Form.bit1 o true)
  | .sext o => some (shapeR Form.bit2 o true)
  | .extb o => some (shapeR Form.bit3 o true)
  | .insb o => some (shapeR Form.bit3 o true)
  | .cmpEq o => some (shapeR Form.cmp o true)
  | .cmpNe o => some (shapeR Form.cmp o true)
  | .cmpLt o => some (shapeR Form.cmp o true)
  | .cmpGe o => some (shapeR Form.cmp o true)
  | .cmpLtu o => some (shapeR Form.cmp o true)
  | .cmpGeu o => some (shapeR Form.cmp o true)
  | .sel o => some (shapeR Form.sel o true)
  | .mov o => some (shapeR Form.mov o true)
  | .movi o => some (shapeR Form.movi o true)
  | .moviH o => some (shapeR Form.moviH o true)
  | .lea x o => some (shape6 Form.lea o (memOk o x))
  | .addpc o => some (shapeR Form.addpc o true)
  | .bccEq off o => some (shape6 Form.bcc o (branchOk o off))
  | .bccNe off o => some (shape6 Form.bcc o (branchOk o off))
  | .bccLt off o => some (shape6 Form.bcc o (branchOk o off))
  | .bccGe off o => some (shape6 Form.bcc o (branchOk o off))
  | .bccLtu off o => some (shape6 Form.bcc o (branchOk o off))
  | .bccGeu off o => some (shape6 Form.bcc o (branchOk o off))
  | .bccZ off o => some (shape6 Form.bccz o (branchOk o off))
  | .bccNz off o => some (shape6 Form.bccz o (branchOk o off))
  | .jmp off o => some (shape6 Form.jmp o (branchOk o off))
  | .jmpi o => some (shapeR Form.jmpi o true)
  | .call off o => some (shape6 Form.call o (branchOk o off))
  | .calli o => some (shapeR Form.calli o true)
  | .ret o => some (shapeR Form.jmpi o true)
  | .loop off o => some (shape6 Form.call o (branchOk o off))
  | .jtab _ _ o => some (shape6 Form.jtab o true)
  | .trap _ o => some (shapeR Form.sys o true)
  | .brk _ o => some (shapeR Form.sys o true)
  | .svc _ o => some (shapeR Form.sys o true)
  | .nop o => some (shapeR Form.nop o true)
  | .pause o => some (shapeR Form.sys o true)
  | .yield o => some (shapeR Form.sys o true)
  | .sresume o => some (shapeR Form.sresume o true)
  | .skill o => some (shapeR Form.sys o true)
  | .rdsys num o => some (shapeR (Form.rdsys (indexed num)) o (sysOk num false o))
  | .wrsys num o => some (shapeR (Form.wrsys (indexed num)) o (sysOk num true o))
  | .rdtime o => some (shapeR Form.rdtime o true)
  | .rdtimeCc o => some (shapeR Form.rdtime o true)
  | .ld _ _ x o => some (shape6 Form.ld o (memOk o x))
  | .ldAcq _ _ x o => some (shape6 Form.ld o (memOk o x))
  | .ldq x o => some (shape6 Form.ldq o (memOk o x))
  | .st _ x o => some (shape6 Form.st o (memOk o x))
  | .stRel _ x o => some (shape6 Form.st o (memOk o x))
  | .stq x o => some (shape6 Form.stq o (memOk o x))
  | .rcommit o => some (shapeR Form.bare o true)
  | .aadd _ t o => some (shape6 Form.aop o (syncOk o t))
  | .aand _ t o => some (shape6 Form.aop o (syncOk o t))
  | .aor _ t o => some (shape6 Form.aop o (syncOk o t))
  | .axor _ t o => some (shape6 Form.aop o (syncOk o t))
  | .amin _ t o => some (shape6 Form.aop o (syncOk o t))
  | .amax _ t o => some (shape6 Form.aop o (syncOk o t))
  | .aminu _ t o => some (shape6 Form.aop o (syncOk o t))
  | .amaxu _ t o => some (shape6 Form.aop o (syncOk o t))
  | .aswap _ t o => some (shape6 Form.aop o (syncOk o t))
  | .afadd dbl t o => some (shape6 Form.aop o (syncOk o t && !dbl))
  | .acas _ t o => some (shape6 Form.acas o (syncOk o t))
  | .acas2 t o => some (shape6 Form.acas2 o (syncOk o t))
  | .fence _ _ o => some (shapeR Form.bare o true)
  | .fencep _ order paths o => some (shapeR Form.bare o (order != .rlx && decide (2 ≤ bitCount 6 paths.toNat)))
  | .waitchg _ t o => some (shape6 Form.waitchg o (syncOk o t && (t.order == .rlx || t.order == .acq)))
  | .rvjoin t o => some (shape6 Form.rvjoin o (syncOk o t))
  | .rvarrive t o => some (shape6 Form.rvjoin o (syncOk o t))
  | .rvwait t o => some (shape6 Form.rvwait o (syncOk o t))
  | .spawn o => some (shapeR Form.spawn o true)
  | .exit o => some (shapeR Form.bare o true)
  | .migrate o => some (shapeR Form.migrate o true)
  | .migrateC o => some (shapeR Form.migrateC o true)
  | .vgrow o => some (shapeR Form.vgrow o true)
  | .vshrink o => some (shapeR Form.vgrow o true)
  | .vmov o => some (shapeR Form.vmov o true)
  | .vbcast o => some (shapeR Form.vbcast o true)
  | .vext o => some (shapeR Form.vext o true)
  | .vins o => some (shapeR Form.vins o true)
  | .viota o => some (shapeR Form.viota o true)
  | .vcmp _ o => some (shapeR Form.vcmp o true)
  | .mlog op ma mb o => some (shapeR (Form.mlogF op) o (mlogOk op ma mb))
  | .mpop _ _ o => some (shapeR Form.mpop o true)
  | .vperm o => some (shapeR Form.vperm o true)
  | .vslide _ o => some (shapeR Form.vslide o true)
  | .vred _ o => some (shapeR Form.vred o true)
  | .vscan _ o => some (shapeR Form.vscan o true)
  | .vadd o => some (shapeR Form.valu o true)
  | .vsub o => some (shapeR Form.valu o true)
  | .vmul o => some (shapeR Form.valu o true)
  | .vmad o => some (shapeR Form.vmad o true)
  | .vand o => some (shapeR Form.valu o true)
  | .vor o => some (shapeR Form.valu o true)
  | .vxor o => some (shapeR Form.valu o true)
  | .vshl o => some (shapeR Form.valu o true)
  | .vshr o => some (shapeR Form.valu o true)
  | .vsar o => some (shapeR Form.valu o true)
  | .vmin _ o => some (shapeR Form.valu o true)
  | .vmax _ o => some (shapeR Form.valu o true)
  | .fadd md _ o => some (shapeR Form.vfalu o (noC md))
  | .fsub md _ o => some (shapeR Form.vfalu o (noC md))
  | .fmul md _ o => some (shapeR Form.vfalu o (noC md))
  | .ffma _ _ o => some (shapeR Form.ffma o true)
  | .fmin md o => some (shapeR Form.vfalu o (noC md))
  | .fmax md o => some (shapeR Form.vfalu o (noC md))
  | .frcp o => some (shapeR Form.vf1 o true)
  | .frsq o => some (shapeR Form.vf1 o true)
  | .frcpn o => some (shapeR Form.vf2 o true)
  | .frsqn o => some (shapeR Form.vf2 o true)
  | .fexp2 _ o => some (shapeR Form.vf1 o true)
  | .flog2 _ o => some (shapeR Form.vf1 o true)
  | .ftanh _ o => some (shapeR Form.vf1 o true)
  | .fcvt sf df r pt sat _ o => some (shapeR Form.cvt o (fcvtOk sf df r pt sat))
  | .icvt sf df r pt o => some (shapeR Form.cvt o (icvtOk sf df r pt))
  | .c4enc _ o => some (shapeR Form.c4enc o true)
  | .bscaleDerive tf o => some (shapeR Form.cvt o (tf == .f16 || tf == .bf16 || tf == .e5m2 || tf == .e4m3))
  | .bscaleApply _ o => some (shapeR Form.bscaleApply o true)
  | .amaxrd o => some (shapeR (Form.amaxrd o.d) o true)
  | .amaxclr o => some (shapeR Form.amaxclr o true)
  | .vld x o => some (shape6 Form.vld o (memOk o x))
  | .vst x o => some (shape6 Form.vst o (memOk o x))
  | .vgath x o => some (shape6 Form.vgath o (memOk o x))
  | .vscat x o => some (shape6 Form.vscat o (memOk o x))
  | .sbind o => some (shapeR Form.sbind o true)
  | .sunbind o => some (shapeR Form.sunbind o true)
  | .cbinit _ level prod cons o => some (shapeR Form.cbinit o (level != 3 && decide (prod.toNat ≤ 3) && decide (cons.toNat ≤ 2)))
  | .cbwaitf _ o => some (shapeR Form.cbwait o true)
  | .cbwaite _ o => some (shapeR Form.cbwait o true)
  | .cbpop _ o => some (shapeR Form.cbpop o true)
  | .cbpush _ o => some (shapeR Form.cbpush o true)
  | .cbstat _ o => some (shapeR Form.cbstat o true)
  | .mwload _ wsc o => some (shape6 (Form.mwload wsc) o true)
  | .mcbook o => some (shapeR Form.mcbook o true)
  | .mstream x o => some (shape6 (Form.mstream x.src) o (mstreamOk x))
  | .mdrain x o => some (shape6 (Form.mstream x.src) o (mdrainOk x))
  | .mclr _ _ o => some (shapeR Form.mclr o true)
  | .mswap o => some (shapeR Form.mclr o true)
  | .mwait all o => some (shapeR (Form.mwait all) o true)
  | .gang _ _ o => some (shapeR Form.gang o true)
  | .clbarArrive _ o => some (shapeR Form.gang o true)
  | .clbarWait _ o => some (shapeR Form.gang o true)
  | .chset _ o => some (shapeR Form.chset o true)
  | .chunk _ o => some (shapeR Form.chunk o true)
  | .geom lv o => some (shapeR Form.geom o (decide (lv.toNat ≤ 5)))
  | .part lvs edge o => some (shapeR (Form.part (lvs == 0) edge) o (lvs != 7))
  | .tlbinvPage _ o => some (shapeR Form.tlbinvPage o true)
  | .tlbinvAsid _ o => some (shapeR Form.tlbinvAsid o true)
  | .tlbinvGlob _ o => some (shapeR Form.tlbinvAll o true)
  | .tlbinvAll _ o => some (shapeR Form.tlbinvAll o true)
  | .acopy x o => some (shape6 (Form.acopy x.dim) o (x.dim != 0 && (x.dim != 1 || (x.srs == 0 && x.trs == 0))))
  | .acopycbFill _ _ _ o => some (shape6 Form.acopycb o true)
  | .acopycbDrain _ _ _ o => some (shape6 Form.acopycb o true)
  | .await _ all o => some (shapeR (Form.await all) o true)
  | .aseq _ _ o => some (shapeR Form.aseq o true)
  | .hgemv x o => some (shape6 Form.hgemv o (decide (1 ≤ x.npc.toNat) && decide (x.npc.toNat ≤ 96) && decide (x.stride.toNat % 64 = 0)))
  | .pagereqNext o => some (shapeR Form.pageNext o true)
  | .pagereqReply o => some (shapeR Form.pageReply o true)
  | .amsend x o => some (shapeR Form.amsend o (sendOk x))
  | .amsendc x o => some (shapeR Form.amsendc o (sendOk x))
  | .rmapostWrite _ _ len o => some (shape6 Form.rmapost o (decide (len.toNat ≤ 0x1000000)))
  | .rmapostRead _ _ len o => some (shape6 Form.rmapost o (decide (len.toNat ≤ 0x1000000)))
  | .rmapostFadd _ _ o => some (shape6 Form.rmapost o true)
  | .rmapostCas _ _ o => some (shape6 Form.rmapost o true)
  | .rmapoll o => some (shapeR Form.rmapoll o true)
  | .issueGroup .. | .pauseEnd .. | .yieldEnd .. | .regionTimerCommit .. | .regionCountCommit ..
  | .writePerformed .. | .readPerformed .. | .loadReply .. | .atomicAtHome .. | .atomicReply ..
  | .rendezvousArrive .. | .rendezvousTake .. | .releaseReply .. | .rendezvousResend .. | .waitchgWake ..
  | .waitchgPoll .. | .replLockGrant .. | .replUpdate .. | .pasAccept .. | .pasLock .. | .pasResult ..
  | .pasResend .. | .pageReply .. | .faultDelivery .. | .deferredFault .. | .migrationArrival ..
  | .migrationResend .. | .migrationStale .. | .messageArrival .. | .messageActivation .. | .sendStatus ..
  | .parkedRestore .. | .dispatcherPlacement .. | .stealRequest .. | .stealAnswer .. | .stealReply ..
  | .preemptionRequest .. | .quiesceEnd .. | .saveComplete .. | .resumeMessage .. | .restoreComplete ..
  | .spillQueueRedelivery .. | .icacheFill .. | .matrixEntryStart .. | .matrixRowAdd ..
  | .matrixEntryComplete .. | .engineStart .. | .engineSpan .. | .engineComplete .. | .baseDieStart ..
  | .tlbWalk .. | .shootdownRequest .. | .shootdownAck .. | .shootdownResend .. | .inrushGrant ..
  | .powerGood .. | .clockForwarding .. | .selfTestDone .. | .edgeTrainingDone .. | .bringupTimeout ..
  | .siteEnable .. | .partitionCreate .. | .routeWrite .. | .logicalCoreRebind ..
  | .regionFrequencyChange .. | .siteFailure .. | .routedPacketReturn .. | .chipletReset ..
  | .staleResponse .. | .firmwareRegisterWrite .. | .contextCreate .. | .contextEnd .. | .kick ..
  | .epoch .. | .packetFetch .. | .rangedLaunch .. | .activeMessageLaunch .. | .timedLaunch ..
  | .timedLaunchFire .. | .barrier .. | .signal .. | .copy .. | .attestation .. | .firmwareUpdate ..
  | .presentation .. | .presentationResend .. | .replayStall .. | .laneDrain .. | .laneStallReport ..
  | .laneFill .. | .endSet .. | .debugAttach .. | .strandStop .. | .coreStop .. | .contextStop ..
  | .force .. | .resume .. | .deliver .. | .step .. | .stateWrite .. | .debugMemoryAccess ..
  | .debugClear .. | .sample .. | .doorbellWrite .. | .debugCommand .. | .hostPortFailover ..
  | .qpCreate .. | .qpInit .. | .qpConnect .. | .qpReset .. | .qpDestroy .. | .reg .. | .revoke ..
  | .revokeApply .. | .frameReceive .. | .portRetrain .. | .fabricForward .. | .packetAgeDrop ..
  | .fabricRequestAtTarget .. | .fabricResponse .. | .notReadyResend .. | .qpContextFetch ..
  | .linkChipletReset .. | .rmapostStart .. | .moduleReset .. | .hostPortUp .. | .portTrained ..
  | .timeDiscipline .. | .stableSupply .. | .clusterPowerGating .. => none

end Sys2Proof
end

