-- ==== Sys2Proof/WellFormed.lean ====
section
/-! DEFINITION. Which instructions have a word: the operands against the form, the literals against the
length, and the fields of X, L0 and L1 against their limits (01 R38, step 6). -/

namespace Sys2Proof

/-- A shape whose word passes step 6 of R38. -/
def Shape.wellFormed (s : Shape) : Bool :=
  s.ops.fits s.form && (if s.fmtR then s.ops.litsR s.form.wide else s.ops.lits6) && s.fields

/-- An instruction that a word can stand for; an event is none. -/
def Instr.wellFormed (i : Instr) : Bool :=
  match i.shape with
  | some s => s.wellFormed
  | none => false

end Sys2Proof
end

