-- ==== Sys2Proof/Decode.lean ====
section
/-! DEFINITION. From bits to instructions and back: the fields of a word (01 Table 01.2), the opcode map
(02 Table 02.1), the decoder, which refuses by name, and the encoder. -/

namespace Sys2Proof

/-- The fields of a word of any length; a literal word that the length does not have is zero. -/
structure Raw where
  len : BitVec 2
  maj : BitVec 8
  fn : BitVec 6
  dk : BitVec 2
  d : BitVec 6
  ak : BitVec 2
  a : BitVec 6
  bk : BitVec 2
  b : BitVec 6
  ck : BitVec 2
  c : BitVec 6
  m : BitVec 3
  x : BitVec 13
  l0 : BitVec 32
  l1 : BitVec 32
  deriving DecidableEq, Repr

/-- The fields of 128 bits, laid out as Table 01.2 lays out the first 64. -/
def Raw.ofBits (w : BitVec 128) : Raw where
  len := w.extractLsb' 0 2
  maj := w.extractLsb' 2 8
  fn := w.extractLsb' 10 6
  d := w.extractLsb' 16 6
  dk := w.extractLsb' 22 2
  a := w.extractLsb' 24 6
  ak := w.extractLsb' 30 2
  b := w.extractLsb' 32 6
  bk := w.extractLsb' 38 2
  c := w.extractLsb' 40 6
  ck := w.extractLsb' 46 2
  m := w.extractLsb' 48 3
  x := w.extractLsb' 51 13
  l0 := w.extractLsb' 64 32
  l1 := w.extractLsb' 96 32

/-- The 128 bits of a set of fields. -/
def Raw.bits (r : Raw) : BitVec 128 :=
  r.l1 ++ r.l0 ++ r.x ++ r.m ++ r.ck ++ r.c ++ r.bk ++ r.b ++ r.ak ++ r.a ++ r.dk ++ r.d ++ r.fn ++ r.maj ++
    r.len

/-- The word with every bit zero, which no instruction has. -/
def Raw.zero : Raw := Raw.ofBits 0

/-- Length in bytes (01 Table 01.1). -/
def Len.bytes : Len → Nat
  | .w64 => 8
  | .w96 => 12
  | .w128 => 16

/-- LEN code (01 Table 01.1). -/
def Len.bits : Len → BitVec 2
  | .w64 => 0
  | .w96 => 1
  | .w128 => 2

/-- The length of a LEN code; 11 is none (01 Table 01.1). -/
def Len.ofBits (x : BitVec 2) : Option Len :=
  match x.toNat with
  | 0 => some .w64
  | 1 => some .w96
  | 2 => some .w128
  | _ => Option.none

/-! ### Codes -/

/-- Codes of Scope (01 Table 01.7). -/
def Scope.bits : Scope → BitVec 3
  | .core => 0
  | .clu => 1
  | .chip => 2
  | .pkg => 3
  | .sys => 4

/-- The Scope of a code, none when the code is illegal (01 Table 01.7). -/
def Scope.ofBits (x : BitVec 3) : Option Scope :=
  match x.toNat with
  | 0 => some .core
  | 1 => some .clu
  | 2 => some .chip
  | 3 => some .pkg
  | 4 => some .sys
  | _ => Option.none

/-- Codes of MemOrder (01 Table 01.7). -/
def MemOrder.bits : MemOrder → BitVec 2
  | .rlx => 0
  | .acq => 1
  | .rel => 2
  | .ar => 3

/-- The MemOrder of a code (01 Table 01.7). -/
def MemOrder.ofBits (x : BitVec 2) : MemOrder :=
  match x.toNat with
  | 0 => .rlx
  | 1 => .acq
  | 2 => .rel
  | _ => .ar

/-- Codes of MemW (01 Table 01.6). -/
def MemW.bits : MemW → BitVec 2
  | .b => 0
  | .h => 1
  | .w => 2
  | .d => 3

/-- The MemW of a code (01 Table 01.6). -/
def MemW.ofBits (x : BitVec 2) : MemW :=
  match x.toNat with
  | 0 => .b
  | 1 => .h
  | 2 => .w
  | _ => .d

/-- Codes of RSel (03 Table 03.3). -/
def RSel.bits : RSel → BitVec 3
  | .rne => 0
  | .rtz => 1
  | .rdn => 2
  | .rup => 3
  | .sr => 4
  | .dyn => 7

/-- The RSel of a code, none when the code is illegal (03 Table 03.3). -/
def RSel.ofBits (x : BitVec 3) : Option RSel :=
  match x.toNat with
  | 0 => some .rne
  | 1 => some .rtz
  | 2 => some .rdn
  | 3 => some .rup
  | 4 => some .sr
  | 7 => some .dyn
  | _ => Option.none

/-- Codes of VCond (08 Table 08.4). -/
def VCond.bits : VCond → BitVec 4
  | .eq => 0
  | .ne => 1
  | .lt => 2
  | .ge => 3
  | .ltu => 4
  | .geu => 5
  | .feq => 8
  | .fne => 9
  | .flt => 10
  | .fge => 11
  | .fun => 12

/-- The VCond of a code, none when the code is illegal (08 Table 08.4). -/
def VCond.ofBits (x : BitVec 4) : Option VCond :=
  match x.toNat with
  | 0 => some .eq
  | 1 => some .ne
  | 2 => some .lt
  | 3 => some .ge
  | 4 => some .ltu
  | 5 => some .geu
  | 8 => some .feq
  | 9 => some .fne
  | 10 => some .flt
  | 11 => some .fge
  | 12 => some .fun
  | _ => Option.none

/-- Codes of MLogOp (08 R212). -/
def MLogOp.bits : MLogOp → BitVec 3
  | .and => 0
  | .or => 1
  | .xor => 2
  | .andn => 3
  | .not => 4
  | .mov => 5
  | .fromg => 6

/-- The MLogOp of a code, none when the code is illegal (08 R212). -/
def MLogOp.ofBits (x : BitVec 3) : Option MLogOp :=
  match x.toNat with
  | 0 => some .and
  | 1 => some .or
  | 2 => some .xor
  | 3 => some .andn
  | 4 => some .not
  | 5 => some .mov
  | 6 => some .fromg
  | _ => Option.none

/-- Codes of MPopMode (08 R213). -/
def MPopMode.bits : MPopMode → BitVec 2
  | .cnt => 0
  | .first => 1
  | .raw => 2

/-- The MPopMode of a code, none when the code is illegal (08 R213). -/
def MPopMode.ofBits (x : BitVec 2) : Option MPopMode :=
  match x.toNat with
  | 0 => some .cnt
  | 1 => some .first
  | 2 => some .raw
  | _ => Option.none

/-- Codes of RedOp (08 Table 08.5a). -/
def RedOp.bits : RedOp → BitVec 4
  | .add => 0
  | .min => 1
  | .max => 2
  | .minu => 3
  | .maxu => 4
  | .and => 5
  | .or => 6
  | .xor => 7
  | .fadd => 8
  | .fmin => 9
  | .fmax => 10

/-- The RedOp of a code, none when the code is illegal (08 Table 08.5a). -/
def RedOp.ofBits (x : BitVec 4) : Option RedOp :=
  match x.toNat with
  | 0 => some .add
  | 1 => some .min
  | 2 => some .max
  | 3 => some .minu
  | 4 => some .maxu
  | 5 => some .and
  | 6 => some .or
  | 7 => some .xor
  | 8 => some .fadd
  | 9 => some .fmin
  | 10 => some .fmax
  | _ => Option.none

/-- Codes of EFmt (08 Table 08.5). -/
def EFmt.bits : EFmt → BitVec 3
  | .f32 => 0
  | .f16 => 1
  | .bf16 => 2
  | .e5m2 => 3
  | .e4m3 => 4
  | .i8 => 5
  | .u8 => 6
  | .i32 => 7

/-- The EFmt of a code (08 Table 08.5). -/
def EFmt.ofBits (x : BitVec 3) : EFmt :=
  match x.toNat with
  | 0 => .f32
  | 1 => .f16
  | 2 => .bf16
  | 3 => .e5m2
  | 4 => .e4m3
  | 5 => .i8
  | 6 => .u8
  | _ => .i32

/-- Codes of MFmt (09 Table 09.2). -/
def MFmt.bits : MFmt → BitVec 3
  | .bf16 => 0
  | .fp16 => 1
  | .e4m3 => 2
  | .e5m2 => 3
  | .int8 => 4
  | .uint8 => 5
  | .c4 => 6

/-- The MFmt of a code, none when the code is illegal (09 Table 09.2). -/
def MFmt.ofBits (x : BitVec 3) : Option MFmt :=
  match x.toNat with
  | 0 => some .bf16
  | 1 => some .fp16
  | 2 => some .e4m3
  | 3 => some .e5m2
  | 4 => some .int8
  | 5 => some .uint8
  | 6 => some .c4
  | _ => Option.none

/-- Codes of DFmt (09 Table 09.5). -/
def DFmt.bits : DFmt → BitVec 2
  | .f32 => 0
  | .f16 => 1
  | .bf16 => 2

/-- The DFmt of a code, none when the code is illegal (09 Table 09.5). -/
def DFmt.ofBits (x : BitVec 2) : Option DFmt :=
  match x.toNat with
  | 0 => some .f32
  | 1 => some .f16
  | 2 => some .bf16
  | _ => Option.none

/-- Codes of SeqMode (11 Table 11.4). -/
def SeqMode.bits : SeqMode → BitVec 2
  | .iss => 0
  | .done => 1
  | .own => 2

/-- The SeqMode of a code, none when the code is illegal (11 Table 11.4). -/
def SeqMode.ofBits (x : BitVec 2) : Option SeqMode :=
  match x.toNat with
  | 0 => some .iss
  | 1 => some .done
  | 2 => some .own
  | _ => Option.none

/-- Codes of HFmt (11 R299). -/
def HFmt.bits : HFmt → BitVec 2
  | .bf16 => 0
  | .e4m3 => 1
  | .e5m2 => 2

/-- The HFmt of a code, none when the code is illegal (11 R299). -/
def HFmt.ofBits (x : BitVec 2) : Option HFmt :=
  match x.toNat with
  | 0 => some .bf16
  | 1 => some .e4m3
  | 2 => some .e5m2
  | _ => Option.none

/-! ### Fields of X -/

/-- Bit `i` of X. -/
def bit (r : Raw) (i : Nat) : Bool := r.x.getLsbD i

/-- `n` bits of X from bit `i`. -/
def fld (r : Raw) (i n : Nat) : BitVec n := r.x.extractLsb' i n

/-- X with bit `i` set as `v`. -/
def b1 (v : Bool) (i : Nat) : BitVec 13 := if v then 1 <<< i else 0

/-- An offset in the low `k` bits of X, or in L0 with those bits zero (01 R33, R34, R36). -/
def offX (k : Nat) (r : Raw) : Option (BitVec 32) :=
  match r.len.toNat with
  | 0 => if r.l0 == 0 && r.l1 == 0 then some ((r.x.setWidth k).signExtend 32) else none
  | 1 => if r.x.setWidth k == 0 && r.l1 == 0 then some r.l0 else none
  | _ => none

/-- SHIFT and the offset of a load or store (01 Table 01.6). -/
def memX (r : Raw) : Option MemX := (offX 7 r).map fun off => { shift := fld r 7 2, off }

/-- WIDTH (01 Table 01.6). -/
def widthX (r : Raw) : MemW := MemW.ofBits (fld r 11 2)

/-- SCOPE, ORDER and the offset (01 Table 01.7). -/
def syncX (r : Raw) : Option SyncX :=
  match Scope.ofBits (fld r 8 3), offX 6 r with
  | some scope, some off => some { scope, order := MemOrder.ofBits (fld r 6 2), off }
  | _, _ => none

/-- The branch offset, in 4-byte units (01 R36). -/
def branchX (r : Raw) : Option (BitVec 32) := offX 13 r

/-- The six modifiers (08 R217). -/
def modsX (r : Raw) : FMods :=
  { negA := bit r 0, absA := bit r 1, negB := bit r 2, absB := bit r 3, negC := bit r 4, absC := bit r 5 }

/-- Fields of MSTREAM (09 Table 09.5). -/
def mstreamX (r : Raw) : Option MStreamX :=
  if r.l0.extractLsb' 16 16 == 0 && r.l1.extractLsb' 16 16 == 0 then
    (MFmt.ofBits (fld r 7 3)).map fun afmt =>
      { clr := bit r 12, src := bit r 11, asc := bit r 10, afmt, cb := fld r 3 4, set := fld r 1 2,
        klen := r.l0.extractLsb' 9 7, nlen := r.l0.extractLsb' 0 9,
        col0 := r.l1.extractLsb' 8 8, row0 := r.l1.extractLsb' 0 8 }
  else none

/-- Fields of MDRAIN (09 Table 09.5). -/
def mdrainX (r : Raw) : Option MDrainX :=
  if r.l0.extractLsb' 9 23 == 0 && r.l1.extractLsb' 16 16 == 0 then
    (DFmt.ofBits (fld r 8 2)).map fun dfmt =>
      { clr := bit r 12, src := bit r 11, sat := bit r 10, dfmt, cb := fld r 4 4, set := fld r 2 2,
        nlen := r.l0.extractLsb' 0 9, col0 := r.l1.extractLsb' 8 8, row0 := r.l1.extractLsb' 0 8 }
  else none

/-- Fields of HGEMV (11 R299). -/
def hgemvX (r : Raw) : Option HgemvX :=
  (HFmt.ofBits (fld r 11 2)).map fun wfmt =>
    { wfmt, acc := bit r 10, wsc := bit r 9, npc := fld r 2 7, n := r.l0.extractLsb' 16 16,
      k := r.l0.extractLsb' 0 16, stride := r.l1 }

/-- The TLBINV of a KIND (10 R279). -/
def tlbinvX (r : Raw) (o : Ops) : Instr :=
  match (fld r 0 2).toNat with
  | 0 => .tlbinvPage (bit r 2) o
  | 1 => .tlbinvAsid (bit r 2) o
  | 2 => .tlbinvGlob (bit r 2) o
  | _ => .tlbinvAll (bit r 2) o

/-- The RMAPOST of an OP (23 R461). -/
def rmapostX (r : Raw) (o : Ops) : Option Instr :=
  if r.l1 != 0 then none
  else
    match (fld r 10 3).toNat with
    | 0 => some (.rmapostWrite (bit r 9) (bit r 8) r.l0 o)
    | 1 => some (.rmapostRead (bit r 9) (bit r 8) r.l0 o)
    | 2 => if r.l0 == 0 then some (.rmapostFadd (bit r 9) (bit r 8) o) else none
    | 3 => if r.l0 == 0 then some (.rmapostCas (bit r 9) (bit r 8) o) else none
    | _ => none

/-! ### Operands -/

/-- Whether a form uses a slot. -/
def SrcKinds.used (k : SrcKinds) : Bool := k.g || k.v || k.k || k.lit

/-- A source slot: its tag, its number and, when the tag is 11, its literal (01 R25, R26). -/
def readSlot (k : SrcKinds) (kind : BitVec 2) (n : BitVec 6) (lit : Option Src) : Option Src :=
  if k.used then
    match kind.toNat with
    | 0 => some (.g n)
    | 1 => some (.v n)
    | 2 => some (.k n)
    | _ => lit
  else if kind == 3 && n == 0 then some .none
  else none

/-- The destination (01 R24): with kind 11 the number must be zero. -/
def readDst (kind : BitVec 2) (n : BitVec 6) : Option Dst :=
  match kind.toNat with
  | 0 => some (.g n)
  | 1 => some (.v n)
  | 2 => some (.m n)
  | _ => if n == 0 then some .none else none

/-- The literal of a slot in format R: `total` literal operands in the word, `i` of them before this one
(01 Table 01.4). A field whose value has moved to a literal word is zero. -/
def litR (r : Raw) (total i : Nat) (n : BitVec 6) : Option Src :=
  match r.len.toNat with
  | 0 => some (.l6 n)
  | 1 => if n == 0 then some (.l32 r.l0) else none
  | _ =>
    if n == 0 then
      (if total = 1 then some (.l64 (r.l1 ++ r.l0)) else if i = 0 then some (.l32 r.l0) else some (.l32 r.l1))
    else none

/-- The literal words that no operand uses are zero (01 Table 01.4). -/
def restZero (r : Raw) (total : Nat) : Bool :=
  match r.len.toNat with
  | 0 => r.l0 == 0 && r.l1 == 0
  | 1 => (total != 0 || r.l0 == 0) && r.l1 == 0
  | _ => total != 0 || (r.l0 == 0 && r.l1 == 0)

/-- Operands of a word, given the literal of each slot. -/
def readOps (f : Form) (r : Raw) (la lb lc : Option Src) : Option Ops :=
  match Len.ofBits r.len, readDst r.dk r.d, readSlot f.a r.ak r.a la, readSlot f.b r.bk r.b lb,
      readSlot f.c r.ck r.c lc with
  | some len, some d, some a, some b, some c => some { len, m := r.m, d, a, b, c }
  | _, _, _, _, _ => none

/-- Operands in format R (01 R29). -/
def opsR (f : Form) (r : Raw) : Option Ops :=
  let la := (f.a.used && r.ak == 3).toNat
  let lb := (f.b.used && r.bk == 3).toNat
  let lc := (f.c.used && r.ck == 3).toNat
  let total := la + lb + lc
  if restZero r total then
    readOps f r (litR r total 0 r.a) (litR r total la r.b) (litR r total (la + lb) r.c)
  else none

/-- Operands in formats M, B and E (01 R35). -/
def ops6 (f : Form) (r : Raw) : Option Ops := readOps f r (some (.l6 r.a)) (some (.l6 r.b)) (some (.l6 r.c))

/-- A row of the opcode map: MAJ, FN, and what a word of it stands for; none when a field is illegal. -/
structure OpRow where
  maj : BitVec 8
  fn : BitVec 6
  dec : Raw → Option Instr

/-- A row in format R; X bits outside `mask` are reserved. -/
def rowR (maj : BitVec 8) (fn : BitVec 6) (mask : BitVec 13) (f : Raw → Form) (mk : Raw → Ops → Option Instr) :
    OpRow where
  maj := maj
  fn := fn
  dec := fun r => if r.x &&& ~~~mask == 0 then (opsR (f r) r).bind (mk r) else none

/-- A row in format M, B or E. -/
def row6 (maj : BitVec 8) (fn : BitVec 6) (mask : BitVec 13) (f : Raw → Form) (mk : Raw → Ops → Option Instr) :
    OpRow where
  maj := maj
  fn := fn
  dec := fun r => if r.x &&& ~~~mask == 0 then (ops6 (f r) r).bind (mk r) else none

/-! ### The opcode map -/

/-- IALU, IMUL, IBIT, CMP, SEL and the moves (05). -/
def rowsInt : List OpRow := [
  rowR 0x01 0x00 0x0001 (fun _ => Form.ialu) (fun r o => some (.add (bit r 0) o)),
  rowR 0x01 0x01 0x0001 (fun _ => Form.ialu) (fun r o => some (.sub (bit r 0) o)),
  rowR 0x01 0x02 0x0001 (fun _ => Form.ialu) (fun r o => some (.and (bit r 0) o)),
  rowR 0x01 0x03 0x0001 (fun _ => Form.ialu) (fun r o => some (.or (bit r 0) o)),
  rowR 0x01 0x04 0x0001 (fun _ => Form.ialu) (fun r o => some (.xor (bit r 0) o)),
  rowR 0x01 0x05 0x0001 (fun _ => Form.ialu) (fun r o => some (.andn (bit r 0) o)),
  rowR 0x01 0x06 0x0001 (fun _ => Form.ialu) (fun r o => some (.shl (bit r 0) o)),
  rowR 0x01 0x07 0x0001 (fun _ => Form.ialu) (fun r o => some (.shr (bit r 0) o)),
  rowR 0x01 0x08 0x0001 (fun _ => Form.ialu) (fun r o => some (.sar (bit r 0) o)),
  rowR 0x01 0x09 0x0001 (fun _ => Form.ialu) (fun r o => some (.rol (bit r 0) o)),
  rowR 0x01 0x0A 0x0001 (fun _ => Form.ialu) (fun r o => some (.min (bit r 0) o)),
  rowR 0x01 0x0B 0x0001 (fun _ => Form.ialu) (fun r o => some (.max (bit r 0) o)),
  rowR 0x01 0x0C 0x0001 (fun _ => Form.ialu) (fun r o => some (.minu (bit r 0) o)),
  rowR 0x01 0x0D 0x0001 (fun _ => Form.ialu) (fun r o => some (.maxu (bit r 0) o)),
  rowR 0x02 0x00 0x0001 (fun _ => Form.imul) (fun r o => some (.mul (bit r 0) o)),
  rowR 0x02 0x01 0x0001 (fun _ => Form.imul) (fun r o => some (.mulh (bit r 0) o)),
  rowR 0x02 0x02 0x0001 (fun _ => Form.imul) (fun r o => some (.mulhu (bit r 0) o)),
  rowR 0x02 0x03 0x0001 (fun _ => Form.imul) (fun r o => some (.div (bit r 0) o)),
  rowR 0x02 0x04 0x0001 (fun _ => Form.imul) (fun r o => some (.divu (bit r 0) o)),
  rowR 0x02 0x05 0x0001 (fun _ => Form.imul) (fun r o => some (.rem (bit r 0) o)),
  rowR 0x02 0x06 0x0001 (fun _ => Form.imul) (fun r o => some (.remu (bit r 0) o)),
  rowR 0x03 0x00 0 (fun _ => Form.bit1) (fun _ o => some (.clz o)),
  rowR 0x03 0x01 0 (fun _ => Form.bit1) (fun _ o => some (.ctz o)),
  rowR 0x03 0x02 0 (fun _ => Form.bit1) (fun _ o => some (.popc o)),
  rowR 0x03 0x03 0 (fun _ => Form.bit1) (fun _ o => some (.brev o)),
  rowR 0x03 0x04 0 (fun _ => Form.bit1) (fun _ o => some (.bswap o)),
  rowR 0x03 0x05 0 (fun _ => Form.bit2) (fun _ o => some (.sext o)),
  rowR 0x03 0x06 0 (fun _ => Form.bit3) (fun _ o => some (.extb o)),
  rowR 0x03 0x07 0 (fun _ => Form.bit3) (fun _ o => some (.insb o)),
  rowR 0x04 0x00 0 (fun _ => Form.cmp) (fun _ o => some (.cmpEq o)),
  rowR 0x04 0x01 0 (fun _ => Form.cmp) (fun _ o => some (.cmpNe o)),
  rowR 0x04 0x02 0 (fun _ => Form.cmp) (fun _ o => some (.cmpLt o)),
  rowR 0x04 0x03 0 (fun _ => Form.cmp) (fun _ o => some (.cmpGe o)),
  rowR 0x04 0x04 0 (fun _ => Form.cmp) (fun _ o => some (.cmpLtu o)),
  rowR 0x04 0x05 0 (fun _ => Form.cmp) (fun _ o => some (.cmpGeu o)),
  rowR 0x05 0x00 0 (fun _ => Form.sel) (fun _ o => some (.sel o)),
  rowR 0x06 0x00 0 (fun _ => Form.mov) (fun _ o => some (.mov o)),
  rowR 0x06 0x01 0x0001 (fun r => if bit r 0 then Form.moviH else Form.movi) (
    fun r o => some (if bit r 0 then .moviH o else .movi o)),
  row6 0x06 0x02 0x01FF (fun _ => Form.lea) (fun r o => (memX r).map (.lea · o)),
  rowR 0x06 0x03 0 (fun _ => Form.addpc) (fun _ o => some (.addpc o))]

/-- Branches, jumps and the SYS operations (05). -/
def rowsFlow : List OpRow := [
  row6 0x20 0x00 0x1FFF (fun _ => Form.bcc) (fun r o => (branchX r).map (.bccEq · o)),
  row6 0x20 0x01 0x1FFF (fun _ => Form.bcc) (fun r o => (branchX r).map (.bccNe · o)),
  row6 0x20 0x02 0x1FFF (fun _ => Form.bcc) (fun r o => (branchX r).map (.bccLt · o)),
  row6 0x20 0x03 0x1FFF (fun _ => Form.bcc) (fun r o => (branchX r).map (.bccGe · o)),
  row6 0x20 0x04 0x1FFF (fun _ => Form.bcc) (fun r o => (branchX r).map (.bccLtu · o)),
  row6 0x20 0x05 0x1FFF (fun _ => Form.bcc) (fun r o => (branchX r).map (.bccGeu · o)),
  row6 0x20 0x06 0x1FFF (fun _ => Form.bccz) (fun r o => (branchX r).map (.bccZ · o)),
  row6 0x20 0x07 0x1FFF (fun _ => Form.bccz) (fun r o => (branchX r).map (.bccNz · o)),
  row6 0x21 0x00 0x1FFF (fun _ => Form.jmp) (fun r o => (branchX r).map (.jmp · o)),
  rowR 0x21 0x01 0 (fun _ => Form.jmpi) (fun _ o => some (.jmpi o)),
  row6 0x21 0x02 0x1FFF (fun _ => Form.call) (fun r o => (branchX r).map (.call · o)),
  rowR 0x21 0x03 0 (fun _ => Form.calli) (fun _ o => some (.calli o)),
  rowR 0x21 0x04 0 (fun _ => Form.jmpi) (fun _ o => some (.ret o)),
  row6 0x22 0x00 0x1FFF (fun _ => Form.call) (fun r o => (branchX r).map (.loop · o)),
  row6 0x23 0x00 0 (fun _ => Form.jtab) (fun r o => some (.jtab r.l0 r.l1 o)),
  rowR 0x24 0x00 0x00FF (fun _ => Form.sys) (fun r o => some (.trap (r.x.setWidth 8) o)),
  rowR 0x24 0x01 0x00FF (fun _ => Form.sys) (fun r o => some (.brk (r.x.setWidth 8) o)),
  rowR 0x24 0x02 0x0FFF (fun _ => Form.sys) (fun r o => some (.svc (r.x.setWidth 12) o)),
  rowR 0x24 0x03 0 (fun _ => Form.nop) (fun _ o => some (.nop o)),
  rowR 0x24 0x04 0 (fun _ => Form.sys) (fun _ o => some (.pause o)),
  rowR 0x24 0x05 0 (fun _ => Form.sys) (fun _ o => some (.yield o)),
  rowR 0x24 0x06 0 (fun _ => Form.sresume) (fun _ o => some (.sresume o)),
  rowR 0x24 0x07 0 (fun _ => Form.sys) (fun _ o => some (.skill o)),
  rowR 0x25 0x00 0x0FFF (fun r => Form.rdsys (indexed (r.x.setWidth 12))) (
    fun r o => some (.rdsys (r.x.setWidth 12) o)),
  rowR 0x26 0x00 0x0FFF (fun r => Form.wrsys (indexed (r.x.setWidth 12))) (
    fun r o => some (.wrsys (r.x.setWidth 12) o)),
  rowR 0x27 0x00 0x0001 (fun _ => Form.rdtime) (
    fun r o => some (if bit r 0 then .rdtimeCc o else .rdtime o))]

/-- Scalar memory, atomics, fences, rendezvous and strand creation (06). -/
def rowsMem : List OpRow := [
  row6 0x30 0x00 0x1FFF (fun _ => Form.ld) (
    fun r o => (memX r).map fun x => if bit r 9 then .ldAcq (widthX r) (bit r 10) x o else .ld (widthX r) (bit r 10) x o),
  row6 0x31 0x00 0x01FF (fun _ => Form.ldq) (fun r o => (memX r).map (.ldq · o)),
  row6 0x32 0x00 0x1BFF (fun _ => Form.st) (
    fun r o => (memX r).map fun x => if bit r 9 then .stRel (widthX r) x o else .st (widthX r) x o),
  row6 0x33 0x00 0x01FF (fun _ => Form.stq) (fun r o => (memX r).map (.stq · o)),
  rowR 0x34 0x00 0 (fun _ => Form.bare) (fun _ o => some (.rcommit o)),
  row6 0x35 0x00 0x1FFF (fun _ => Form.aop) (
    fun r o => if bit r 12 then (syncX r).map (.aadd (bit r 11) · o) else none),
  row6 0x35 0x01 0x1FFF (fun _ => Form.aop) (
    fun r o => if bit r 12 then (syncX r).map (.aand (bit r 11) · o) else none),
  row6 0x35 0x02 0x1FFF (fun _ => Form.aop) (
    fun r o => if bit r 12 then (syncX r).map (.aor (bit r 11) · o) else none),
  row6 0x35 0x03 0x1FFF (fun _ => Form.aop) (
    fun r o => if bit r 12 then (syncX r).map (.axor (bit r 11) · o) else none),
  row6 0x35 0x04 0x1FFF (fun _ => Form.aop) (
    fun r o => if bit r 12 then (syncX r).map (.amin (bit r 11) · o) else none),
  row6 0x35 0x05 0x1FFF (fun _ => Form.aop) (
    fun r o => if bit r 12 then (syncX r).map (.amax (bit r 11) · o) else none),
  row6 0x35 0x06 0x1FFF (fun _ => Form.aop) (
    fun r o => if bit r 12 then (syncX r).map (.aminu (bit r 11) · o) else none),
  row6 0x35 0x07 0x1FFF (fun _ => Form.aop) (
    fun r o => if bit r 12 then (syncX r).map (.amaxu (bit r 11) · o) else none),
  row6 0x35 0x08 0x1FFF (fun _ => Form.aop) (
    fun r o => if bit r 12 then (syncX r).map (.aswap (bit r 11) · o) else none),
  row6 0x35 0x09 0x1FFF (fun _ => Form.aop) (
    fun r o => if bit r 12 then (syncX r).map (.afadd (bit r 11) · o) else none),
  row6 0x36 0x00 0x1FFF (fun _ => Form.acas) (
    fun r o => if bit r 12 then (syncX r).map (.acas (bit r 11) · o) else none),
  row6 0x37 0x00 0x1FFF (fun _ => Form.acas2) (
    fun r o => if bit r 12 && bit r 11 then (syncX r).map (.acas2 · o) else none),
  rowR 0x38 0x00 0x07C0 (fun _ => Form.bare) (
    fun r o => (Scope.ofBits (fld r 8 3)).map (.fence · (MemOrder.ofBits (fld r 6 2)) o)),
  rowR 0x39 0x00 0x07FF (fun _ => Form.bare) (
    fun r o => (Scope.ofBits (fld r 8 3)).map (.fencep · (MemOrder.ofBits (fld r 6 2)) (fld r 0 6) o)),
  row6 0x3A 0x00 0x1FFF (fun _ => Form.waitchg) (
    fun r o => if bit r 12 then (syncX r).map (.waitchg (bit r 11) · o) else none),
  rowR 0x3B 0x00 0 (fun _ => Form.spawn) (fun _ o => some (.spawn o)),
  rowR 0x3C 0x00 0 (fun _ => Form.bare) (fun _ o => some (.exit o)),
  rowR 0x3D 0x00 0x0001 (fun r => if bit r 0 then Form.migrateC else Form.migrate) (
    fun r o => some (if bit r 0 then .migrateC o else .migrate o)),
  row6 0x3E 0x00 0x07FF (fun _ => Form.rvjoin) (fun r o => (syncX r).map (.rvjoin · o)),
  row6 0x3E 0x01 0x07FF (fun _ => Form.rvjoin) (fun r o => (syncX r).map (.rvarrive · o)),
  row6 0x3E 0x02 0x07FF (fun _ => Form.rvwait) (fun r o => (syncX r).map (.rvwait · o))]

/-- Vector arithmetic, conversions and masks (08). -/
def rowsVec : List OpRow := [
  rowR 0x50 0x00 0 (fun _ => Form.vgrow) (fun _ o => some (.vgrow o)),
  rowR 0x50 0x01 0 (fun _ => Form.vgrow) (fun _ o => some (.vshrink o)),
  rowR 0x51 0x00 0 (fun _ => Form.vmov) (fun _ o => some (.vmov o)),
  rowR 0x51 0x01 0 (fun _ => Form.vbcast) (fun _ o => some (.vbcast o)),
  rowR 0x51 0x02 0 (fun _ => Form.vext) (fun _ o => some (.vext o)),
  rowR 0x51 0x03 0 (fun _ => Form.vins) (fun _ o => some (.vins o)),
  rowR 0x51 0x04 0 (fun _ => Form.viota) (fun _ o => some (.viota o)),
  rowR 0x52 0x00 0x000F (fun _ => Form.vcmp) (fun r o => (VCond.ofBits (fld r 0 4)).map (.vcmp · o)),
  rowR 0x52 0x01 0x01FF (fun r => if fld r 6 3 == 6 then Form.mlogF .fromg else Form.mlogF .and) (
    fun r o => (MLogOp.ofBits (fld r 6 3)).map (.mlog · (fld r 0 3) (fld r 3 3) o)),
  rowR 0x52 0x02 0x001F (fun _ => Form.mpop) (
    fun r o => (MPopMode.ofBits (fld r 3 2)).map (.mpop · (fld r 0 3) o)),
  rowR 0x53 0x00 0 (fun _ => Form.vperm) (fun _ o => some (.vperm o)),
  rowR 0x53 0x01 0x0001 (fun _ => Form.vslide) (fun r o => some (.vslide (bit r 0) o)),
  rowR 0x54 0x00 0x000F (fun _ => Form.vred) (fun r o => (RedOp.ofBits (fld r 0 4)).map (.vred · o)),
  rowR 0x54 0x01 0x000F (fun _ => Form.vscan) (fun r o => (RedOp.ofBits (fld r 0 4)).map (.vscan · o)),
  rowR 0x60 0x00 0 (fun _ => Form.valu) (fun _ o => some (.vadd o)),
  rowR 0x60 0x01 0 (fun _ => Form.valu) (fun _ o => some (.vsub o)),
  rowR 0x60 0x02 0 (fun _ => Form.valu) (fun _ o => some (.vmul o)),
  rowR 0x60 0x03 0 (fun _ => Form.vmad) (fun _ o => some (.vmad o)),
  rowR 0x60 0x04 0 (fun _ => Form.valu) (fun _ o => some (.vand o)),
  rowR 0x60 0x05 0 (fun _ => Form.valu) (fun _ o => some (.vor o)),
  rowR 0x60 0x06 0 (fun _ => Form.valu) (fun _ o => some (.vxor o)),
  rowR 0x60 0x07 0 (fun _ => Form.valu) (fun _ o => some (.vshl o)),
  rowR 0x60 0x08 0 (fun _ => Form.valu) (fun _ o => some (.vshr o)),
  rowR 0x60 0x09 0 (fun _ => Form.valu) (fun _ o => some (.vsar o)),
  rowR 0x60 0x0A 0x0001 (fun _ => Form.valu) (fun r o => some (.vmin (bit r 0) o)),
  rowR 0x60 0x0B 0x0001 (fun _ => Form.valu) (fun r o => some (.vmax (bit r 0) o)),
  rowR 0x61 0x00 0x01FF (fun _ => Form.vfalu) (
    fun r o => (RSel.ofBits (fld r 6 3)).map (.fadd (modsX r) · o)),
  rowR 0x61 0x01 0x01FF (fun _ => Form.vfalu) (
    fun r o => (RSel.ofBits (fld r 6 3)).map (.fsub (modsX r) · o)),
  rowR 0x61 0x02 0x01FF (fun _ => Form.vfalu) (
    fun r o => (RSel.ofBits (fld r 6 3)).map (.fmul (modsX r) · o)),
  rowR 0x61 0x03 0x01FF (fun _ => Form.ffma) (
    fun r o => (RSel.ofBits (fld r 6 3)).map (.ffma (modsX r) · o)),
  rowR 0x61 0x04 0x01FF (fun _ => Form.vfalu) (
    fun r o => if fld r 6 3 == 7 then some (.fmin (modsX r) o) else none),
  rowR 0x61 0x05 0x01FF (fun _ => Form.vfalu) (
    fun r o => if fld r 6 3 == 7 then some (.fmax (modsX r) o) else none),
  rowR 0x62 0x00 0x01C0 (fun _ => Form.vf1) (fun r o => if fld r 6 3 == 7 then some (.frcp o) else none),
  rowR 0x62 0x01 0x01C0 (fun _ => Form.vf1) (fun r o => if fld r 6 3 == 7 then some (.frsq o) else none),
  rowR 0x62 0x02 0x01C0 (fun _ => Form.vf2) (fun r o => if fld r 6 3 == 7 then some (.frcpn o) else none),
  rowR 0x62 0x03 0x01C0 (fun _ => Form.vf2) (fun r o => if fld r 6 3 == 7 then some (.frsqn o) else none),
  rowR 0x62 0x04 0x01C0 (fun _ => Form.vf1) (fun r o => (RSel.ofBits (fld r 6 3)).map (.fexp2 · o)),
  rowR 0x62 0x05 0x01C0 (fun _ => Form.vf1) (fun r o => (RSel.ofBits (fld r 6 3)).map (.flog2 · o)),
  rowR 0x62 0x06 0x01C0 (fun _ => Form.vf1) (fun r o => (RSel.ofBits (fld r 6 3)).map (.ftanh · o)),
  rowR 0x63 0x00 0x1FFF (fun _ => Form.cvt) (
    fun r o => (RSel.ofBits (fld r 4 3)).map fun rs => .fcvt (EFmt.ofBits (fld r 10 3)) (EFmt.ofBits (fld r 7 3)) rs (fld r 2 2) (bit r 1) (bit r 0) o),
  rowR 0x63 0x01 0x1FFC (fun _ => Form.cvt) (
    fun r o => (RSel.ofBits (fld r 4 3)).map fun rs => .icvt (EFmt.ofBits (fld r 10 3)) (EFmt.ofBits (fld r 7 3)) rs (fld r 2 2) o),
  rowR 0x63 0x02 0x0007 (fun _ => Form.c4enc) (fun r o => some (.c4enc (fld r 0 3) o)),
  rowR 0x63 0x03 0x1FF0 (fun r => if fld r 10 3 == 1 then Form.cvt else Form.bscaleApply) (
    fun r o => if fld r 10 3 == 1 then (if fld r 4 3 == 7 then some (.bscaleDerive (EFmt.ofBits (fld r 7 3)) o) else none) else if fld r 7 6 == 0 then (RSel.ofBits (fld r 4 3)).map (.bscaleApply · o) else none),
  rowR 0x64 0x00 0 (fun r => if r.dk == 0 then Form.amaxrd (.g 0) else Form.amaxrd (.v 0)) (
    fun _ o => some (.amaxrd o)),
  rowR 0x64 0x01 0 (fun _ => Form.amaxclr) (fun _ o => some (.amaxclr o))]

/-- Vector memory, streams and circular buffers (08). -/
def rowsVecMem : List OpRow := [
  row6 0x80 0x00 0x11FF (fun _ => Form.vld) (fun r o => if bit r 12 then (memX r).map (.vld · o) else none),
  row6 0x80 0x01 0x11FF (fun _ => Form.vst) (fun r o => if bit r 12 then (memX r).map (.vst · o) else none),
  row6 0x80 0x02 0x11FF (fun _ => Form.vgath) (
    fun r o => if bit r 12 then (memX r).map (.vgath · o) else none),
  row6 0x80 0x03 0x11FF (fun _ => Form.vscat) (
    fun r o => if bit r 12 then (memX r).map (.vscat · o) else none),
  rowR 0x81 0x00 0 (fun _ => Form.sbind) (fun _ o => some (.sbind o)),
  rowR 0x81 0x01 0 (fun _ => Form.sunbind) (fun _ o => some (.sunbind o)),
  rowR 0x82 0x00 0x0FFF (fun _ => Form.cbinit) (
    fun r o => some (.cbinit (fld r 0 4) (fld r 4 2) (fld r 6 3) (fld r 9 3) o)),
  rowR 0x82 0x01 0x000F (fun _ => Form.cbwait) (fun r o => some (.cbwaitf (fld r 0 4) o)),
  rowR 0x82 0x02 0x000F (fun _ => Form.cbwait) (fun r o => some (.cbwaite (fld r 0 4) o)),
  rowR 0x82 0x03 0x000F (fun _ => Form.cbpop) (fun r o => some (.cbpop (fld r 0 4) o)),
  rowR 0x82 0x04 0x000F (fun _ => Form.cbpush) (fun r o => some (.cbpush (fld r 0 4) o)),
  rowR 0x82 0x05 0x000F (fun _ => Form.cbstat) (fun r o => some (.cbstat (fld r 0 4) o))]

/-- The matrix array (09). -/
def rowsMtx : List OpRow := [
  row6 0x90 0x00 0x1E00 (fun r => Form.mwload (bit r 9)) (
    fun r o => if r.l0 == 0 && r.l1 == 0 then (MFmt.ofBits (fld r 10 3)).map (.mwload · (bit r 9) o) else none),
  rowR 0x91 0x00 0 (fun _ => Form.mcbook) (fun _ o => some (.mcbook o)),
  row6 0x92 0x00 0x1FFE (fun r => Form.mstream (bit r 11)) (fun r o => (mstreamX r).map (.mstream · o)),
  row6 0x93 0x00 0x1FFC (fun r => Form.mstream (bit r 11)) (fun r o => (mdrainX r).map (.mdrain · o)),
  rowR 0x94 0x00 0x0007 (fun _ => Form.mclr) (fun r o => some (.mclr (bit r 2) (fld r 0 2) o)),
  rowR 0x95 0x00 0 (fun _ => Form.mclr) (fun _ o => some (.mswap o)),
  rowR 0x96 0x00 0x0001 (fun r => Form.mwait (bit r 0)) (fun r o => some (.mwait (bit r 0) o))]

/-- The cluster (10). -/
def rowsClu : List OpRow := [
  rowR 0xA0 0x00 0x0007 (fun _ => Form.gang) (fun r o => some (.gang (fld r 0 2) (bit r 2) o)),
  rowR 0xA1 0x00 0x000F (fun _ => Form.gang) (fun r o => some (.clbarArrive (fld r 0 4) o)),
  rowR 0xA1 0x01 0x000F (fun _ => Form.gang) (fun r o => some (.clbarWait (fld r 0 4) o)),
  rowR 0xA2 0x00 0x0003 (fun _ => Form.chset) (fun r o => some (.chset (fld r 0 2) o)),
  rowR 0xA2 0x01 0x0003 (fun _ => Form.chunk) (fun r o => some (.chunk (fld r 0 2) o)),
  rowR 0xA3 0x00 0x0007 (fun _ => Form.geom) (fun r o => some (.geom (fld r 0 3) o)),
  rowR 0xA3 0x01 0x000F (fun r => Form.part (fld r 0 3 == 0) (bit r 3)) (
    fun r o => some (.part (fld r 0 3) (bit r 3) o)),
  rowR 0xA4 0x00 0x0007 (fun r => if fld r 0 2 == 0 then Form.tlbinvPage else if fld r 0 2 == 1 then Form.tlbinvAsid else Form.tlbinvAll) (
    fun r o => some (tlbinvX r o))]

/-- Engines, paging, sends and remote operations (11, 16, 23). -/
def rowsChip : List OpRow := [
  row6 0xB0 0x00 0x1E00 (fun r => Form.acopy (fld r 11 2)) (
    fun r o => some (.acopy { dim := fld r 11 2, sync := bit r 10, low := bit r 9, srs := r.l0, trs := r.l1 } o)),
  row6 0xB1 0x00 0x1FC0 (fun _ => Form.acopycb) (
    fun r o => if r.l0 == 0 && r.l1 == 0 then some (if bit r 12 then .acopycbDrain (fld r 8 4) (bit r 7) (bit r 6) o else .acopycbFill (fld r 8 4) (bit r 7) (bit r 6) o) else none),
  rowR 0xB2 0x00 0x000B (fun r => Form.await (bit r 3)) (fun r o => some (.await (fld r 0 2) (bit r 3) o)),
  rowR 0xB3 0x00 0x001F (fun _ => Form.aseq) (
    fun r o => (SeqMode.ofBits (fld r 3 2)).map (.aseq (fld r 0 3) · o)),
  row6 0xB4 0x00 0x1FFC (fun _ => Form.hgemv) (fun r o => (hgemvX r).map (.hgemv · o)),
  rowR 0xB5 0x00 0x0001 (fun r => if bit r 0 then Form.pageReply else Form.pageNext) (
    fun r o => some (if bit r 0 then .pagereqReply o else .pagereqNext o)),
  rowR 0xC0 0x00 0x00FF (fun _ => Form.amsend) (
    fun r o => some (.amsend { urg := bit r 7, pcnt := fld r 4 3, pbase := fld r 0 4 } o)),
  rowR 0xC1 0x00 0x00FF (fun _ => Form.amsendc) (
    fun r o => some (.amsendc { urg := bit r 7, pcnt := fld r 4 3, pbase := fld r 0 4 } o)),
  row6 0xD0 0x00 0x1F00 (fun _ => Form.rmapost) (fun r o => rmapostX r o),
  rowR 0xD1 0x00 0 (fun _ => Form.rmapoll) (fun _ o => some (.rmapoll o))]

/-- The opcode map (02 Table 02.1). -/
def opTable : List OpRow :=
  rowsInt ++ rowsFlow ++ rowsMem ++ rowsVec ++ rowsVecMem ++ rowsMtx ++ rowsClu ++ rowsChip

/-! ### The decoder -/

/-- Why a word is refused (01 R38, steps 2 to 6; `truncated`: the bytes given end before the word does). -/
inductive DecErr where
  | opcode | encoding | truncated
  deriving DecidableEq, Repr

/-- The instruction of a set of fields (01 R38, steps 2, 4, 5 and 6). -/
def decodeRaw (r : Raw) : Except DecErr Instr :=
  if r.len == 3 then .error .encoding
  else
    match opTable.find? fun w => w.maj == r.maj && w.fn == r.fn with
    | none => .error .opcode
    | some w =>
      match w.dec r with
      | some i => if i.wellFormed then .ok i else .error .encoding
      | none => .error .encoding

/-- Little-endian value of a list of bytes (00 R12). -/
def leNat : List Byte → Nat
  | [] => 0
  | b :: bs => b.toNat + 256 * leNat bs

/-- The low `n` bytes of a value, lowest first (00 R12). -/
def leBytes : Nat → Nat → List Byte
  | 0, _ => []
  | n + 1, x => BitVec.ofNat 8 x :: leBytes n (x / 256)

/-- The instruction at the start of a list of bytes, and the bytes after it. LEN stands in the first byte
(01 R18, R20). -/
def decode (bs : List Byte) : Except DecErr (Instr × List Byte) :=
  match bs with
  | [] => .error .truncated
  | b :: _ =>
    match Len.ofBits (b.setWidth 2) with
    | none => .error .encoding
    | some len =>
      if bs.length < len.bytes then .error .truncated
      else
        match decodeRaw (Raw.ofBits (BitVec.ofNat 128 (leNat (bs.take len.bytes)))) with
        | .ok i => .ok (i, bs.drop len.bytes)
        | .error e => .error e

/-- The instruction of a row of the opcode table: `w` numbered from the first word's bit 0, `nbits` of it
given and the rest zero. -/
def decodeTableWord (nbits w : Nat) : Option Instr :=
  match decode (leBytes 16 (w % 2 ^ nbits)) with
  | .ok (i, _) => some i
  | .error _ => none

/-! ### The encoder -/

/-- Tag and number of a source. -/
def Src.tag : Src → BitVec 2
  | .none => 3
  | .g _ => 0
  | .v _ => 1
  | .k _ => 2
  | .l6 _ | .l32 _ | .l64 _ => 3

/-- Number field of a source. -/
def Src.num : Src → BitVec 6
  | .none => 0
  | .g n | .v n | .k n => n
  | .l6 x => x
  | .l32 _ | .l64 _ => 0

/-- Kind of a destination. -/
def Dst.tag : Dst → BitVec 2
  | .g _ => 0
  | .v _ => 1
  | .m _ => 2
  | .none => 3

/-- Number field of a destination. -/
def Dst.num : Dst → BitVec 6
  | .g n | .v n | .m n => n
  | .none => 0

/-- L0 and L1 as the literal operands of format R set them (01 Table 01.4). -/
def Ops.litWords (o : Ops) : BitVec 32 × BitVec 32 :=
  match [o.a, o.b, o.c].filter Src.isLit with
  | [.l32 x] => (x, 0)
  | [.l64 x] => (x.extractLsb' 0 32, x.extractLsb' 32 32)
  | [.l32 x, .l32 y] => (x, y)
  | _ => (0, 0)

/-- A word in formats M, B and E. -/
def raw6 (maj : BitVec 8) (fn : BitVec 6) (x : BitVec 13) (l0 l1 : BitVec 32) (o : Ops) : Raw where
  len := o.len.bits
  maj := maj
  fn := fn
  dk := o.d.tag
  d := o.d.num
  ak := o.a.tag
  a := o.a.num
  bk := o.b.tag
  b := o.b.num
  ck := o.c.tag
  c := o.c.num
  m := o.m
  x := x
  l0 := l0
  l1 := l1

/-- A word in format R. -/
def rawR (maj : BitVec 8) (fn : BitVec 6) (x : BitVec 13) (o : Ops) : Raw :=
  raw6 maj fn x o.litWords.1 o.litWords.2 o

/-- A word whose offset stands in the low `k` bits of X or in L0 (01 R33, R34, R36). -/
def rawOff (k : Nat) (maj : BitVec 8) (fn : BitVec 6) (x : BitVec 13) (off : BitVec 32) (o : Ops) : Raw :=
  match o.len with
  | .w64 => raw6 maj fn (x ||| (off.setWidth k).setWidth 13) 0 0 o
  | _ => raw6 maj fn x off 0 o

/-- A load or store (01 Table 01.6). -/
def rawM (maj : BitVec 8) (fn : BitVec 6) (x : BitVec 13) (y : MemX) (o : Ops) : Raw :=
  rawOff 7 maj fn (x ||| y.shift.setWidth 13 <<< 7) y.off o

/-- SCOPE and ORDER (01 Table 01.7). -/
def syncBits (s : Scope) (t : MemOrder) : BitVec 13 := s.bits.setWidth 13 <<< 8 ||| t.bits.setWidth 13 <<< 6

/-- An atomic (01 Table 01.7). -/
def rawT (maj : BitVec 8) (fn : BitVec 6) (x : BitVec 13) (t : SyncX) (o : Ops) : Raw :=
  rawOff 6 maj fn (x ||| syncBits t.scope t.order) t.off o

/-- A branch (01 R36). -/
def rawB (maj : BitVec 8) (fn : BitVec 6) (off : BitVec 32) (o : Ops) : Raw := rawOff 13 maj fn 0 off o

/-- WIDTH in place. -/
def MemW.x (w : MemW) : BitVec 13 := w.bits.setWidth 13 <<< 11

/-- RSEL of VFALU and VFSPEC in place (08 Table 08.1). -/
def RSel.x (r : RSel) : BitVec 13 := r.bits.setWidth 13 <<< 6

/-- Modifiers in place (08 R217). -/
def FMods.x (md : FMods) : BitVec 13 :=
  b1 md.negA 0 ||| b1 md.absA 1 ||| b1 md.negB 2 ||| b1 md.absB 3 ||| b1 md.negC 4 ||| b1 md.absC 5

/-- SFMT, DFMT, RSEL and PART in place (08 Table 08.5). -/
def cvtBits (sf df : EFmt) (r : RSel) (pt : BitVec 2) : BitVec 13 :=
  sf.bits.setWidth 13 <<< 10 ||| df.bits.setWidth 13 <<< 7 ||| r.bits.setWidth 13 <<< 4 |||
    pt.setWidth 13 <<< 2

/-- X of MSTREAM (09 Table 09.5). -/
def MStreamX.x (x : MStreamX) : BitVec 13 :=
  b1 x.clr 12 ||| b1 x.src 11 ||| b1 x.asc 10 ||| x.afmt.bits.setWidth 13 <<< 7 ||| x.cb.setWidth 13 <<< 3 |||
    x.set.setWidth 13 <<< 1

/-- L0 of MSTREAM. -/
def MStreamX.l0 (x : MStreamX) : BitVec 32 := x.klen.setWidth 32 <<< 9 ||| x.nlen.setWidth 32

/-- L1 of MSTREAM. -/
def MStreamX.l1 (x : MStreamX) : BitVec 32 := x.col0.setWidth 32 <<< 8 ||| x.row0.setWidth 32

/-- X of MDRAIN (09 Table 09.5). -/
def MDrainX.x (x : MDrainX) : BitVec 13 :=
  b1 x.clr 12 ||| b1 x.src 11 ||| b1 x.sat 10 ||| x.dfmt.bits.setWidth 13 <<< 8 ||| x.cb.setWidth 13 <<< 4 |||
    x.set.setWidth 13 <<< 2

/-- L0 of MDRAIN. -/
def MDrainX.l0 (x : MDrainX) : BitVec 32 := x.nlen.setWidth 32

/-- L1 of MDRAIN. -/
def MDrainX.l1 (x : MDrainX) : BitVec 32 := x.col0.setWidth 32 <<< 8 ||| x.row0.setWidth 32

/-- The fields of the word of an instruction; an event has no word. -/
def encode : Instr → Raw
  | .add w o => rawR 0x01 0x00 (b1 w 0) o
  | .sub w o => rawR 0x01 0x01 (b1 w 0) o
  | .and w o => rawR 0x01 0x02 (b1 w 0) o
  | .or w o => rawR 0x01 0x03 (b1 w 0) o
  | .xor w o => rawR 0x01 0x04 (b1 w 0) o
  | .andn w o => rawR 0x01 0x05 (b1 w 0) o
  | .shl w o => rawR 0x01 0x06 (b1 w 0) o
  | .shr w o => rawR 0x01 0x07 (b1 w 0) o
  | .sar w o => rawR 0x01 0x08 (b1 w 0) o
  | .rol w o => rawR 0x01 0x09 (b1 w 0) o
  | .min w o => rawR 0x01 0x0A (b1 w 0) o
  | .max w o => rawR 0x01 0x0B (b1 w 0) o
  | .minu w o => rawR 0x01 0x0C (b1 w 0) o
  | .maxu w o => rawR 0x01 0x0D (b1 w 0) o
  | .mul w o => rawR 0x02 0x00 (b1 w 0) o
  | .mulh w o => rawR 0x02 0x01 (b1 w 0) o
  | .mulhu w o => rawR 0x02 0x02 (b1 w 0) o
  | .div w o => rawR 0x02 0x03 (b1 w 0) o
  | .divu w o => rawR 0x02 0x04 (b1 w 0) o
  | .rem w o => rawR 0x02 0x05 (b1 w 0) o
  | .remu w o => rawR 0x02 0x06 (b1 w 0) o
  | .clz o => rawR 0x03 0x00 0 o
  | .ctz o => rawR 0x03 0x01 0 o
  | .popc o => rawR 0x03 0x02 0 o
  | .brev o => rawR 0x03 0x03 0 o
  | .bswap o => rawR 0x03 0x04 0 o
  | .sext o => rawR 0x03 0x05 0 o
  | .extb o => rawR 0x03 0x06 0 o
  | .insb o => rawR 0x03 0x07 0 o
  | .cmpEq o => rawR 0x04 0x00 0 o
  | .cmpNe o => rawR 0x04 0x01 0 o
  | .cmpLt o => rawR 0x04 0x02 0 o
  | .cmpGe o => rawR 0x04 0x03 0 o
  | .cmpLtu o => rawR 0x04 0x04 0 o
  | .cmpGeu o => rawR 0x04 0x05 0 o
  | .sel o => rawR 0x05 0x00 0 o
  | .mov o => rawR 0x06 0x00 0 o
  | .movi o => rawR 0x06 0x01 0 o
  | .moviH o => rawR 0x06 0x01 1 o
  | .lea x o => rawM 0x06 0x02 0 x o
  | .addpc o => rawR 0x06 0x03 0 o
  | .bccEq off o => rawB 0x20 0x00 off o
  | .bccNe off o => rawB 0x20 0x01 off o
  | .bccLt off o => rawB 0x20 0x02 off o
  | .bccGe off o => rawB 0x20 0x03 off o
  | .bccLtu off o => rawB 0x20 0x04 off o
  | .bccGeu off o => rawB 0x20 0x05 off o
  | .bccZ off o => rawB 0x20 0x06 off o
  | .bccNz off o => rawB 0x20 0x07 off o
  | .jmp off o => rawB 0x21 0x00 off o
  | .jmpi o => rawR 0x21 0x01 0 o
  | .call off o => rawB 0x21 0x02 off o
  | .calli o => rawR 0x21 0x03 0 o
  | .ret o => rawR 0x21 0x04 0 o
  | .loop off o => rawB 0x22 0x00 off o
  | .jtab tbl cnt o => raw6 0x23 0x00 0 tbl cnt o
  | .trap code o => rawR 0x24 0x00 (code.setWidth 13) o
  | .brk code o => rawR 0x24 0x01 (code.setWidth 13) o
  | .svc n o => rawR 0x24 0x02 (n.setWidth 13) o
  | .nop o => rawR 0x24 0x03 0 o
  | .pause o => rawR 0x24 0x04 0 o
  | .yield o => rawR 0x24 0x05 0 o
  | .sresume o => rawR 0x24 0x06 0 o
  | .skill o => rawR 0x24 0x07 0 o
  | .rdsys num o => rawR 0x25 0x00 (num.setWidth 13) o
  | .wrsys num o => rawR 0x26 0x00 (num.setWidth 13) o
  | .rdtime o => rawR 0x27 0x00 0 o
  | .rdtimeCc o => rawR 0x27 0x00 1 o
  | .ld w sgn x o => rawM 0x30 0x00 (w.x ||| b1 sgn 10) x o
  | .ldAcq w sgn x o => rawM 0x30 0x00 (w.x ||| b1 sgn 10 ||| b1 true 9) x o
  | .ldq x o => rawM 0x31 0x00 0 x o
  | .st w x o => rawM 0x32 0x00 w.x x o
  | .stRel w x o => rawM 0x32 0x00 (w.x ||| b1 true 9) x o
  | .stq x o => rawM 0x33 0x00 0 x o
  | .rcommit o => rawR 0x34 0x00 0 o
  | .aadd dbl t o => rawT 0x35 0x00 (b1 true 12 ||| b1 dbl 11) t o
  | .aand dbl t o => rawT 0x35 0x01 (b1 true 12 ||| b1 dbl 11) t o
  | .aor dbl t o => rawT 0x35 0x02 (b1 true 12 ||| b1 dbl 11) t o
  | .axor dbl t o => rawT 0x35 0x03 (b1 true 12 ||| b1 dbl 11) t o
  | .amin dbl t o => rawT 0x35 0x04 (b1 true 12 ||| b1 dbl 11) t o
  | .amax dbl t o => rawT 0x35 0x05 (b1 true 12 ||| b1 dbl 11) t o
  | .aminu dbl t o => rawT 0x35 0x06 (b1 true 12 ||| b1 dbl 11) t o
  | .amaxu dbl t o => rawT 0x35 0x07 (b1 true 12 ||| b1 dbl 11) t o
  | .aswap dbl t o => rawT 0x35 0x08 (b1 true 12 ||| b1 dbl 11) t o
  | .afadd dbl t o => rawT 0x35 0x09 (b1 true 12 ||| b1 dbl 11) t o
  | .acas dbl t o => rawT 0x36 0x00 (b1 true 12 ||| b1 dbl 11) t o
  | .acas2 t o => rawT 0x37 0x00 (b1 true 12 ||| b1 true 11) t o
  | .fence sc order o => rawR 0x38 0x00 (syncBits sc order) o
  | .fencep sc order paths o => rawR 0x39 0x00 (syncBits sc order ||| paths.setWidth 13) o
  | .waitchg dbl t o => rawT 0x3A 0x00 (b1 true 12 ||| b1 dbl 11) t o
  | .rvjoin t o => rawT 0x3E 0x00 0 t o
  | .rvarrive t o => rawT 0x3E 0x01 0 t o
  | .rvwait t o => rawT 0x3E 0x02 0 t o
  | .spawn o => rawR 0x3B 0x00 0 o
  | .exit o => rawR 0x3C 0x00 0 o
  | .migrate o => rawR 0x3D 0x00 0 o
  | .migrateC o => rawR 0x3D 0x00 1 o
  | .vgrow o => rawR 0x50 0x00 0 o
  | .vshrink o => rawR 0x50 0x01 0 o
  | .vmov o => rawR 0x51 0x00 0 o
  | .vbcast o => rawR 0x51 0x01 0 o
  | .vext o => rawR 0x51 0x02 0 o
  | .vins o => rawR 0x51 0x03 0 o
  | .viota o => rawR 0x51 0x04 0 o
  | .vcmp cond o => rawR 0x52 0x00 (cond.bits.setWidth 13) o
  | .mlog op ma mb o => rawR 0x52 0x01 (ma.setWidth 13 ||| mb.setWidth 13 <<< 3 ||| op.bits.setWidth 13 <<< 6) o
  | .mpop md ma o => rawR 0x52 0x02 (ma.setWidth 13 ||| md.bits.setWidth 13 <<< 3) o
  | .vperm o => rawR 0x53 0x00 0 o
  | .vslide up o => rawR 0x53 0x01 (b1 up 0) o
  | .vred op o => rawR 0x54 0x00 (op.bits.setWidth 13) o
  | .vscan op o => rawR 0x54 0x01 (op.bits.setWidth 13) o
  | .vadd o => rawR 0x60 0x00 0 o
  | .vsub o => rawR 0x60 0x01 0 o
  | .vmul o => rawR 0x60 0x02 0 o
  | .vmad o => rawR 0x60 0x03 0 o
  | .vand o => rawR 0x60 0x04 0 o
  | .vor o => rawR 0x60 0x05 0 o
  | .vxor o => rawR 0x60 0x06 0 o
  | .vshl o => rawR 0x60 0x07 0 o
  | .vshr o => rawR 0x60 0x08 0 o
  | .vsar o => rawR 0x60 0x09 0 o
  | .vmin u o => rawR 0x60 0x0A (b1 u 0) o
  | .vmax u o => rawR 0x60 0x0B (b1 u 0) o
  | .fadd md rs o => rawR 0x61 0x00 (md.x ||| rs.x) o
  | .fsub md rs o => rawR 0x61 0x01 (md.x ||| rs.x) o
  | .fmul md rs o => rawR 0x61 0x02 (md.x ||| rs.x) o
  | .ffma md rs o => rawR 0x61 0x03 (md.x ||| rs.x) o
  | .fmin md o => rawR 0x61 0x04 (md.x ||| RSel.dyn.x) o
  | .fmax md o => rawR 0x61 0x05 (md.x ||| RSel.dyn.x) o
  | .frcp o => rawR 0x62 0x00 RSel.dyn.x o
  | .frsq o => rawR 0x62 0x01 RSel.dyn.x o
  | .frcpn o => rawR 0x62 0x02 RSel.dyn.x o
  | .frsqn o => rawR 0x62 0x03 RSel.dyn.x o
  | .fexp2 rs o => rawR 0x62 0x04 rs.x o
  | .flog2 rs o => rawR 0x62 0x05 rs.x o
  | .ftanh rs o => rawR 0x62 0x06 rs.x o
  | .fcvt sf df rs pt sat amx o => rawR 0x63 0x00 (cvtBits sf df rs pt ||| b1 sat 1 ||| b1 amx 0) o
  | .icvt sf df rs pt o => rawR 0x63 0x01 (cvtBits sf df rs pt) o
  | .c4enc pos o => rawR 0x63 0x02 (pos.setWidth 13) o
  | .bscaleDerive tf o => rawR 0x63 0x03 (0x0470 ||| tf.bits.setWidth 13 <<< 7) o
  | .bscaleApply rs o => rawR 0x63 0x03 (rs.bits.setWidth 13 <<< 4) o
  | .amaxrd o => rawR 0x64 0x00 0 o
  | .amaxclr o => rawR 0x64 0x01 0 o
  | .vld x o => rawM 0x80 0x00 (b1 true 12) x o
  | .vst x o => rawM 0x80 0x01 (b1 true 12) x o
  | .vgath x o => rawM 0x80 0x02 (b1 true 12) x o
  | .vscat x o => rawM 0x80 0x03 (b1 true 12) x o
  | .sbind o => rawR 0x81 0x00 0 o
  | .sunbind o => rawR 0x81 0x01 0 o
  | .cbinit cb level prod cons o => rawR 0x82 0x00 (cb.setWidth 13 ||| level.setWidth 13 <<< 4 ||| prod.setWidth 13 <<< 6 ||| cons.setWidth 13 <<< 9) o
  | .cbwaitf cb o => rawR 0x82 0x01 (cb.setWidth 13) o
  | .cbwaite cb o => rawR 0x82 0x02 (cb.setWidth 13) o
  | .cbpop cb o => rawR 0x82 0x03 (cb.setWidth 13) o
  | .cbpush cb o => rawR 0x82 0x04 (cb.setWidth 13) o
  | .cbstat cb o => rawR 0x82 0x05 (cb.setWidth 13) o
  | .mwload wfmt wsc o => raw6 0x90 0x00 (wfmt.bits.setWidth 13 <<< 10 ||| b1 wsc 9) 0 0 o
  | .mcbook o => rawR 0x91 0x00 0 o
  | .mstream x o => raw6 0x92 0x00 x.x x.l0 x.l1 o
  | .mdrain x o => raw6 0x93 0x00 x.x x.l0 x.l1 o
  | .mclr sh st o => rawR 0x94 0x00 (b1 sh 2 ||| st.setWidth 13) o
  | .mswap o => rawR 0x95 0x00 0 o
  | .mwait all o => rawR 0x96 0x00 (b1 all 0) o
  | .gang g joint o => rawR 0xA0 0x00 (g.setWidth 13 ||| b1 joint 2) o
  | .clbarArrive bar o => rawR 0xA1 0x00 (bar.setWidth 13) o
  | .clbarWait bar o => rawR 0xA1 0x01 (bar.setWidth 13) o
  | .chset ctr o => rawR 0xA2 0x00 (ctr.setWidth 13) o
  | .chunk ctr o => rawR 0xA2 0x01 (ctr.setWidth 13) o
  | .geom lv o => rawR 0xA3 0x00 (lv.setWidth 13) o
  | .part lvs edge o => rawR 0xA3 0x01 (lvs.setWidth 13 ||| b1 edge 3) o
  | .tlbinvPage wide o => rawR 0xA4 0x00 (0 ||| b1 wide 2) o
  | .tlbinvAsid wide o => rawR 0xA4 0x00 (1 ||| b1 wide 2) o
  | .tlbinvGlob wide o => rawR 0xA4 0x00 (2 ||| b1 wide 2) o
  | .tlbinvAll wide o => rawR 0xA4 0x00 (3 ||| b1 wide 2) o
  | .acopy x o => raw6 0xB0 0x00 (x.dim.setWidth 13 <<< 11 ||| b1 x.sync 10 ||| b1 x.low 9) x.srs x.trs o
  | .acopycbFill cb sync low o => raw6 0xB1 0x00 (cb.setWidth 13 <<< 8 ||| b1 sync 7 ||| b1 low 6) 0 0 o
  | .acopycbDrain cb sync low o => raw6 0xB1 0x00 (b1 true 12 ||| cb.setWidth 13 <<< 8 ||| b1 sync 7 ||| b1 low 6) 0 0 o
  | .await cls all o => rawR 0xB2 0x00 (cls.setWidth 13 ||| b1 all 3) o
  | .aseq cls md o => rawR 0xB3 0x00 (cls.setWidth 13 ||| md.bits.setWidth 13 <<< 3) o
  | .hgemv x o => raw6 0xB4 0x00 (x.wfmt.bits.setWidth 13 <<< 11 ||| b1 x.acc 10 ||| b1 x.wsc 9 ||| x.npc.setWidth 13 <<< 2) (x.n ++ x.k) x.stride o
  | .pagereqNext o => rawR 0xB5 0x00 0 o
  | .pagereqReply o => rawR 0xB5 0x00 1 o
  | .amsend x o => rawR 0xC0 0x00 (b1 x.urg 7 ||| x.pcnt.setWidth 13 <<< 4 ||| x.pbase.setWidth 13) o
  | .amsendc x o => rawR 0xC1 0x00 (b1 x.urg 7 ||| x.pcnt.setWidth 13 <<< 4 ||| x.pbase.setWidth 13) o
  | .rmapostWrite sync fence len o => raw6 0xD0 0x00 (0x0 ||| b1 sync 9 ||| b1 fence 8) len 0 o
  | .rmapostRead sync fence len o => raw6 0xD0 0x00 (0x400 ||| b1 sync 9 ||| b1 fence 8) len 0 o
  | .rmapostFadd sync fence o => raw6 0xD0 0x00 (0x800 ||| b1 sync 9 ||| b1 fence 8) 0 0 o
  | .rmapostCas sync fence o => raw6 0xD0 0x00 (0xc00 ||| b1 sync 9 ||| b1 fence 8) 0 0 o
  | .rmapoll o => rawR 0xD1 0x00 0 o
  | .issueGroup .. | .pauseEnd .. | .yieldEnd .. | .regionTimerCommit .. | .regionCountCommit ..
  | .writePerformed .. | .readPerformed .. | .loadReply .. | .atomicAtHome .. | .atomicReply ..
  | .rendezvousArrive .. | .rendezvousTake .. | .releaseReply .. | .rendezvousResend .. | .waitchgWake ..
  | .waitchgPoll .. | .replLockGrant .. | .replUpdate .. | .pasAccept .. | .pasLock .. | .pasResult ..
  | .pasResend .. | .pageReply .. | .faultDelivery .. | .deferredFault .. | .migrationArrival ..
  | .migrationResend .. | .migrationStale .. | .messageArrival .. | .messageActivation .. | .sendStatus ..
  | .parkedRestore .. | .dispatcherPlacement .. | .stealRequest .. | .stealAnswer .. | .stealReply ..
  | .preemptionRequest .. | .quiesceEnd .. | .saveComplete .. | .resumeMessage .. | .restoreComplete ..
  | .spillQueueRedelivery .. | .icacheFill .. | .matrixEntryStart .. | .matrixRowAdd ..
  | .matrixEntryComplete .. | .engineStart .. | .engineSpan .. | .engineComplete .. | .baseDieStart ..
  | .tlbWalk .. | .shootdownRequest .. | .shootdownAck .. | .shootdownResend .. | .inrushGrant ..
  | .powerGood .. | .clockForwarding .. | .selfTestDone .. | .edgeTrainingDone .. | .bringupTimeout ..
  | .siteEnable .. | .partitionCreate .. | .routeWrite .. | .logicalCoreRebind ..
  | .regionFrequencyChange .. | .siteFailure .. | .routedPacketReturn .. | .chipletReset ..
  | .staleResponse .. | .firmwareRegisterWrite .. | .contextCreate .. | .contextEnd .. | .kick ..
  | .epoch .. | .packetFetch .. | .rangedLaunch .. | .activeMessageLaunch .. | .timedLaunch ..
  | .timedLaunchFire .. | .barrier .. | .signal .. | .copy .. | .attestation .. | .firmwareUpdate ..
  | .presentation .. | .presentationResend .. | .replayStall .. | .laneDrain .. | .laneStallReport ..
  | .laneFill .. | .endSet .. | .debugAttach .. | .strandStop .. | .coreStop .. | .contextStop ..
  | .force .. | .resume .. | .deliver .. | .step .. | .stateWrite .. | .debugMemoryAccess ..
  | .debugClear .. | .sample .. | .doorbellWrite .. | .debugCommand .. | .hostPortFailover ..
  | .qpCreate .. | .qpInit .. | .qpConnect .. | .qpReset .. | .qpDestroy .. | .reg .. | .revoke ..
  | .revokeApply .. | .frameReceive .. | .portRetrain .. | .fabricForward .. | .packetAgeDrop ..
  | .fabricRequestAtTarget .. | .fabricResponse .. | .notReadyResend .. | .qpContextFetch ..
  | .linkChipletReset .. | .rmapostStart .. | .moduleReset .. | .hostPortUp .. | .portTrained ..
  | .timeDiscipline .. | .stableSupply .. | .clusterPowerGating .. => Raw.zero

/-- Length in bytes of an instruction. -/
def Instr.bytes (i : Instr) : Nat :=
  match i.shape with
  | some s => s.ops.len.bytes
  | none => 0

/-- The bytes of an instruction, lowest address first. -/
def encodeBytes (i : Instr) : List Byte := leBytes i.bytes (encode i).bits.toNat

end Sys2Proof
end

