-- ==== Sys2Proof/Config.lean ====
section
/-! DEFINITION. What the manual leaves open: constants without a body, so that no proof can see a value. -/

namespace Sys2Proof

/-- Nanoseconds by which TIME advances at the step numbered by the argument. The manual fixes no
duration of a step (05 R140, R141; log 5). UNVERIFIED: free value. -/
opaque Config.elapsed : Nat → Nat

/-- Which of the acts that may come next does come: the manual orders none of them (log 1). Free value, by the counter of
free values. -/
opaque Config.choice : Nat → Nat

/-- Bits that the secure element's signature puts into an attestation report (18 R419): the private key
never leaves the element (log 14). Free value, by the counter of free values. -/
opaque Config.signature : Nat → BitVec 4096

/-- The SHA-512 measurement of an item of an attestation report (18 R419), by the item's content; the order of the measured bytes
is not given (log 14). Free value. -/
opaque Config.measurement : List Word → BitVec 512

/-- The certificate of the module identity key, which the secure element holds (18 R419); nothing reads it (log 14). Free value. -/
opaque Config.certificate : Unit → List Byte

/-- The module serial number of Table 18.5, set at manufacture (18 R419, log 14). Free value. -/
opaque Config.serial : Unit → BitVec 128

/-- A byte of host memory as a copy reads it (23 R454): the host's memory is outside the module. Free value, by the
counter of free values and the host bus address. -/
opaque Config.hostByte : Nat → BitVec 64 → BitVec 8

/-- Where firmware places the context of a queue pair in the host-memory table (23 R467; log 13): its host bus address, by the
queue pair's number. Free value. -/
opaque Config.qpTable : Nat → Word

/-- The result that a bit-exact reading of the manual does not fix: the argument counts free values (log 5). -/
opaque Config.freeWord : Nat → Word

end Sys2Proof
end

