-- ==== Sys2Proof/Machine/State.lean ====
section
/-! DEFINITION. The state of the module as plain data, the reasons a step can stop, and the state at
module reset. Units that are many and mostly idle (cores, clusters, chiplets, registers of a file) are
tables keyed by number: a key that is not listed stands for the unit's blank record. -/

namespace Sys2Proof.Machine

/-- A table of records by number, keys strictly rising. -/
abbrev Tbl (α : Type) := List (Nat × α)

/-- Memory: bytes by flattened location, strictly rising, none equal to what an unlisted location reads as. -/
abbrev Memory := List Host.Cell

/-! ### Strands (04) -/

/-- How a strand was created (04 Table 04.2, KIND). -/
inductive Kind where
  | launched | spawned | message | handler
  deriving DecidableEq, Repr

/-- Page order attribute (14 Table 14.6, ORD). -/
inductive Ord where
  | so | rc | uo
  deriving DecidableEq, Repr

/-- Fault codes (04 Table 04.9). -/
inductive Code where
  | illegalOpcode | illegalEncoding | fetchStraddle | regAllot | align | addr | orderMix | xlate
  | prot | world | scope | handlerWait | migrateState | gangAbort | engine | memUncorr
  | stacklocal | unreachable | stale | replayDiverge | brk | trap
  deriving DecidableEq, Repr

/-- MAJ, FN and LEN of a fetched word, as a cause word carries them (01 R40). -/
structure WordId where
  maj : BitVec 8
  fn : BitVec 6
  len : BitVec 2
  deriving DecidableEq, Repr

/-- A raised fault: what the handler's g1, g2, g3 will hold (04 R111, Table 04.11). -/
structure FaultRec where
  code : Code
  sub : BitVec 8
  deferred : Bool
  word : WordId
  pc : Word
  addr : Word
  deriving DecidableEq, Repr

/-- What a strand waits for (04 Table 04.6, WAITING). `d` is the destination the wait writes. -/
inductive Wait where
  /-- a fence or a send whose condition does not hold yet: re-executes -/
  | retry
  /-- the reply of the operation in flight with this number -/
  | reply (id : Nat)
  /-- RVJOIN after its arrival: the operation and the generation it joined (06 R170) -/
  | join (id : Nat) (gen : BitVec 8)
  /-- WAITCHG: location, width in bytes, compared value (06 R164), and the route entry that its request carried -/
  | change (loc n : Nat) (b : Word) (d : Dst) (watched : Bool) (order : MemOrder) (route : Word)
  | cbFull (cb : BitVec 4) (d : Dst)
  | cbClaim (cb : BitVec 4) (d : Dst)
  | cbPush (cb : BitVec 4) (slot : Nat)
  /-- CBPUSH whose release waits for the strand's stores (08 R234): re-executes -/
  | cbStores (cb : BitVec 4)
  /-- AWAIT and MWAIT: class and target ticket -/
  | seq (cls : Nat) (target : Word) (d : Dst)
  /-- an issue queue is full: re-issues -/
  | queue (cls : Nat)
  /-- the dispatcher's queue of children is full: re-executes -/
  | spawn
  /-- VGROW to n blocks -/
  | rows (n : Nat)
  | gang (g : BitVec 2)
  | barrier (bar : BitVec 4) (phase : Word) (d : Dst)
  /-- PAGEREQ.next: record address -/
  | page (d : Dst) (addr : Word)
  /-- TLBINV: the shoot-down and the entries dropped at the issuing cluster -/
  | tlbinv (id : Nat) (d : Dst) (dropped : Nat)
  /-- JTAB: the load of its table entry -/
  | table (id : Nat)
  /-- a presentation held at a lane (17 R391, R392, R396): re-presents by re-execution -/
  | held (lane : Nat)
  deriving DecidableEq, Repr

/-- Kinds of page request (11 Table 11.5). -/
inductive ReqKind where
  | fetch | load | store | engine
  deriving DecidableEq, Repr

/-- A strand's outstanding page request (04 R110): its tag, the address and the word that took XLATE. -/
structure PageWait where
  tag : Nat
  va : Word
  word : WordId
  deriving DecidableEq, Repr

/-- States of a strand that holds a slot, a holder or a park entry (04 Table 04.6). PARKED, SAVED and
GONE are places: the park table or a migration, a saved image, nowhere. -/
inductive SState where
  | ready
  | issuing
  | waiting (w : Wait)
  /-- SAVED-WAITING: a wait that a pre-emption has met, which re-executes after resumption (04 Table 04.7) -/
  | kept (w : Wait)
  | sleeping (p : PageWait)
  | faulted (f : FaultRec)
  deriving DecidableEq, Repr

/-- A stream binding (08 R229): allotment register, base, stride, count, position; `ahead` holds the elements read
ahead of the position, at most eight (08 R231). -/
structure Stream where
  reg : Nat
  base : Word
  stride : Word
  count : Nat
  pos : Nat
  ahead : List VReg
  deriving DecidableEq, Repr

/-- A buffered store of the open region (04 R102): effective address, size, value for the store digest,
the bytes by location, the page's order, the region entries it takes, its PC, and its program-order number. -/
structure BufStore where
  ea : Word
  n : Nat
  val : BitVec 128
  cells : List Host.Cell
  ord : Ord
  repl : Bool
  entries : Nat
  pc : Word
  seq : Nat
  deriving DecidableEq, Repr

/-- The region checkpoint (04 Table 04.1, R103). -/
structure Checkpoint where
  pc : Word
  fcnt : BitVec 16
  g : Vector Word 16
  flags : BitVec 16
  rmode : BitVec 3
  amax : BitVec 32
  draw : Word
  sdig : Word
  streams : List Stream
  /-- the boards of the strand at the checkpoint -/
  board : Tbl Nat
  vboard : Tbl Nat
  /-- undo copies of physical vector registers -/
  vregs : Tbl VReg
  /-- undo copies of mask registers -/
  masks : Tbl (BitVec 16)
  /-- program-order number of the first access after the checkpoint -/
  seq : Nat
  deriving DecidableEq, Repr

/-- What remains of a YIELD (05 R133): slots not yet seen in a group, opportunities left. -/
structure YieldHold where
  others : List Nat
  left : Nat
  deriving DecidableEq, Repr

/-- Facts of the message that started a handler strand (19 R421, R434). -/
structure MsgFacts where
  sender : BitVec 16
  sent : Word
  arrived : Word
  activated : Word
  payload0 : Word
  deriving DecidableEq, Repr

/-- A strand (04 Table 04.1) with the core state kept for its slot. -/
structure Strand where
  pc : Word
  asid : BitVec 12
  fcnt : BitVec 16
  kind : Kind
  sec : Bool
  pager : Bool
  sup : Bool
  g : Vector Word 16
  flags : BitVec 16
  rmode : BitVec 3
  amax : BitVec 32
  draw : Word
  sid : Word
  lidx : Word
  sord : BitVec 32
  sdig : Word
  lh : BitVec 32
  rows : List Nat
  streams : List Stream
  region : List BufStore
  ckpt : Checkpoint
  /-- the region has committed and the next instruction takes the new checkpoint (04 R103) -/
  ckptDue : Bool
  /-- instructions retired since the checkpoint (04 R103) -/
  retired : Nat
  /-- cycle count at which the first store of the region was buffered (04 R103) -/
  firstStore : Option Word
  /-- the region commits at the strand's next boundary (10 R280) -/
  mustCommit : Bool
  st : SState
  /-- MAJ, FN and LEN of the instruction being executed or waited in -/
  word : WordId
  /-- order in which waits began (08 R234) -/
  waitNo : Nat
  age : Nat
  /-- a PAUSE holds until this cycle count (05 R132) -/
  pauseUntil : Option Word
  yielding : Option YieldHold
  /-- physical register held by each hold latch A, B, C (07 R186) -/
  latches : List (Option Nat)
  /-- program-order number of the strand's next access -/
  nextSeq : Nat
  /-- the translation walk the strand's issue waits for (10 R278) -/
  walk : Option Nat
  stopped : Bool
  stepping : Bool
  /-- a step has reported it WAITING: its wait instruction executes again at the next STEP or RESUME (19 R428) -/
  stepWait : Bool
  lastFused : Bool
  lastRet : Bool
  msg : Option MsgFacts
  /-- the model's own number of the strand, which its accesses and operations in flight carry: SIDs may coincide
  (04 R97) -/
  own : Nat
  /-- program-order number of the access after the strand's latest acquire (15 R349, Table 15.3) -/
  acqSeq : Nat
  /-- lane at which the strand's presentation is held, and the order in which it first came there (17 R391) -/
  heldSince : Option (Nat × Nat)
  /-- the load that is still to deliver to a g register, or to a byte of an allotment register (64 times its number plus the
  byte): a later write takes its place (05 R115) -/
  board : Tbl Nat
  vboard : Tbl Nat
  deriving DecidableEq, Repr

/-! ### Memory accesses in flight (15) -/

/-- A part of a load that is single-copy atomic: its bytes, `none` until taken (15 R344), the addresses its page maps
(they differ from the locations read on a REPL page), and the route entry that the source held when it sent the request
(11 R309, 16 R378). -/
structure RUnit where
  cells : List (Nat × Option Byte)
  mapped : List Nat
  ord : Ord
  repl : Bool
  route : Word
  /-- order in which its request was sent last (16 R378) -/
  sent : Nat
  /-- order in which its response was sent, and the route entry of its sender then (16 R378) -/
  rsp : Nat × Word
  deriving DecidableEq, Repr

/-- What a load's bytes become (06 R151, 08 R226, 05 R130). -/
inductive LoadDest where
  /-- a g register: bytes, sign-extended or not -/
  | g (n : Nat) (size : Nat) (sgn : Bool)
  | pair (n : Nat)
  /-- lanes of an allotment register, four bytes each -/
  | lanes (reg : Nat) (lanes : List Nat)
  /-- JTAB: the table base -/
  | table (base : Word)
  deriving DecidableEq, Repr

/-- A load that has issued and whose value has not returned (06 R146, 15 R344). -/
structure LoadOp where
  id : Nat
  core : Nat
  slot : Nat
  own : Nat
  sid : Word
  seq : Nat
  acq : Bool
  dest : LoadDest
  parts : List RUnit
  pc : Word
  word : WordId
  /-- the strand's `acqSeq` at the issue of the load -/
  acqSeq : Nat
  deriving DecidableEq, Repr

/-- A write unit handed to memory and not yet performed (15 R344). `lock` is the order of its grant at the
lead replica of a REPL line (15 R359), `locked` once every replica has acknowledged. -/
structure WriteUnit where
  id : Nat
  core : Nat
  slot : Nat
  own : Nat
  sid : Word
  seq : Nat
  rel : Bool
  ord : Ord
  cells : List Host.Cell
  repl : Bool
  locked : Bool
  /-- REPSET of the writer's partition when the page is REPL -/
  reps : BitVec 48
  pc : Word
  /-- route entry that the source held when it sent the write (11 R309, 16 R378) -/
  route : Word
  /-- the engine operation or other agent that writes, when it is no strand (15 R360) -/
  agent : Option Nat
  /-- accesses of the strand numbered below this had issued when the write was handed to memory (06 R152) -/
  after : Nat
  /-- order in which its request was sent last (16 R378) -/
  sent : Nat
  /-- address of its first byte -/
  va : Word
  deriving DecidableEq, Repr

/-! ### Atomics and rendezvous (06, 16) -/

/-- AOP operations (06 Table 06.7). -/
inductive AopFn where
  | add | and | or | xor | min | max | minu | maxu | swap | fadd
  deriving DecidableEq, Repr

/-- What an ordered operation does at its home unit. -/
inductive AtomKind where
  | aop (f : AopFn)
  | cas
  | cas2
  | rvJoin
  | rvArrive
  | rvWait
  deriving DecidableEq, Repr

/-- A home atomic unit (06 Table 06.3): a core's atomic port, or the atomic unit of the chiplet at a site. -/
inductive Home where
  | port (core : Nat)
  | unit (site : Nat)
  deriving DecidableEq, Repr

/-- Where an ordered operation stands. -/
inductive AtomStage where
  /-- on its way to its home unit -/
  | toHome
  /-- on its way to the PAS -/
  | toPas
  /-- returned unperformed: its core re-sends it after 64 cc (06 R169, 16 R374, 17 R392) -/
  | returned
  /-- sequenced by the PAS under a number, its record of that position on the PAS lane; its lock is on the way
  to the home (16 R373) -/
  | locking (num : Word) (rec : BitVec 32)
  /-- performed under the PAS, result on the way back -/
  | pasResult (num : Word) (res : BitVec 128)
  /-- returned by the home for lack of room, on its way back through the PAS (06 R169) -/
  | pasFail (num : Word)
  /-- the reply is on its way to the core -/
  | reply (res : BitVec 128)
  /-- a rendezvous arrival held until the generation closes (06 R167) -/
  | heldArrival
  /-- an RVJOIN or RVWAIT that waits for its generation -/
  | waiting
  deriving DecidableEq, Repr

/-- An atomic or a rendezvous step between issue and retirement (06 R158, R167). -/
structure AtomOp where
  id : Nat
  core : Nat
  slot : Nat
  own : Nat
  sid : Word
  ord : BitVec 32
  asid : Nat
  kind : AtomKind
  scope : Scope
  order : MemOrder
  loc : Nat
  ea : Word
  /-- order of its page (15 R345) -/
  page : Ord
  home : Home
  bytes : Nat
  b : BitVec 128
  c : BitVec 128
  owing : Bool
  d : Dst
  opd : BitVec 32
  seq : Nat
  stage : AtomStage
  pc : Word
  /-- generation of the arrival, once performed -/
  gen : BitVec 8
  /-- MAJ, FN, LEN of the instruction -/
  word : WordId
  /-- route entry that the source held when it sent the request (11 R309, 16 R378) -/
  route : Word
  /-- order in which it came to its unit (06 R167, R169) -/
  arrived : Nat
  /-- its presentation is held where it stands: at its own core's port, at the PAS, or its lock at the home (17 R392) -/
  heldUp : Bool
  /-- order in which its request was sent last (16 R378) -/
  sent : Nat
  /-- order in which its response was sent, and the route entry of its sender then (16 R378) -/
  rsp : Nat × Word
  deriving DecidableEq, Repr

/-! ### Messages and migration (06, 16) -/

/-- An active message (16 Table 16.3). -/
structure ActMsg where
  handler : Word
  payload : Vector Word 6
  sid : Word
  sent : Word
  ord : BitVec 32
  lh : BitVec 32
  lcore : BitVec 16
  urg : Bool
  pcnt : BitVec 3
  arrived : Word
  asid : BitVec 12
  sec : Bool
  sup : Bool
  pager : Bool
  deriving DecidableEq, Repr

/-- Where a send stands (16 R364, R365). -/
inductive SendStage where
  | toDest
  /-- held or returned: re-presents (17 R392) -/
  | returned
  | status (st : BitVec 8)
  | stale
  deriving DecidableEq, Repr

/-- A send between issue and retirement; `packet` marks an active-message launch packet, whose slot and
core are not a strand's (18 Table 18.3). -/
structure SendOp where
  id : Nat
  core : Nat
  slot : Nat
  packet : Option Nat
  dest : Nat
  msg : ActMsg
  d : Dst
  opd : BitVec 32
  stage : SendStage
  pc : Word
  word : WordId
  route : Word
  /-- order in which its request was sent last (16 R378) -/
  sent : Nat
  /-- order in which its response was sent, and the route entry of its sender then (16 R378) -/
  rsp : Nat × Word
  deriving DecidableEq, Repr

/-- Where a migration stands (06 R174, 11 R310). -/
inductive MigStage where
  | toDest | returned | stale
  deriving DecidableEq, Repr

/-- A migration message in flight (04 R93): the strand's migratable state. -/
structure MigOp where
  id : Nat
  src : Nat
  dest : Nat
  strand : Strand
  /-- SORD before the MIGRATE, operand and op digest for its record (17 R388, R389) -/
  ord : BitVec 32
  opd : BitVec 32
  /-- PC of the MIGRATE -/
  pc : Word
  word : WordId
  stage : MigStage
  route : Word
  /-- it was returned for its presentation, not for want of room (17 R392) -/
  heldUp : Bool
  /-- order in which its STALE answer came: its claim on a slot (07 R178) -/
  since : Nat
  /-- order in which its request was sent last (16 R378) -/
  sent : Nat
  deriving DecidableEq, Repr

/-- An entry of the spill queue (07 R202). -/
inductive SpillItem where
  | msg (m : ActMsg)
  | mig (s : Strand)
  deriving DecidableEq, Repr

/-- An entry of the reply area of a core that is not in RUN (07 R202): the slot it is for. -/
inductive ReplyItem where
  | page (slot : Nat) (code : BitVec 8)
  | release (slot : Nat) (id : Nat) (res : BitVec 128)
  | gangAbort (slot : Nat)
  deriving DecidableEq, Repr

/-- A TLB entry (10 R277): `vp` is VA >> 16, or VA >> 29 of a 512 MiB page; `pte` the page table entry. -/
structure TlbEntry where
  asid : BitVec 12
  glob : Bool
  sec : Bool
  big : Bool
  vp : Nat
  pte : Word
  set : Nat
  way : Nat
  deriving DecidableEq, Repr

/-! ### Engines (11, 23) -/

/-- What an engine operation does. -/
inductive EngBody where
  /-- source, destination, planes, rows, bytes per row, row strides, plane strides -/
  | copy (src dst : Word) (planes rows len : Nat) (srs trs sps tps : Word) (low sync : Bool) (bad : Bool)
  | fill (cb : BitVec 4) (addr stride : Word) (planes rows len : Nat) (low sync : Bool)
  | drain (cb : BitVec 4) (addr stride : Word) (planes rows len : Nat) (low sync : Bool)
  | hgemv (x : HgemvX) (w xv y : Word) (stack : Nat)
  | rma (op : RmaOp) (addr off : Word) (key : BitVec 32) (qp : Nat) (len : Nat) (sync fence : Bool)
  deriving DecidableEq, Repr

/-- State of an engine operation (19 Table 19.1, STATE); `ended` is ready to complete. -/
inductive EngSt where
  | queued | running | pageWait | ended
  deriving DecidableEq, Repr

/-- What a walk of the page tables finds (10 R278): a translation, an entry that is not valid, or a table that the request of
the walk does not reach (14 R332; 11 R310). -/
inductive Got where
  | page (e : TlbEntry)
  | absent
  | lost (code : Code)
  deriving DecidableEq, Repr

/-- An engine operation of class 0, 1 or 3 from issue to completion (11 R287). -/
structure EngOp where
  id : Nat
  core : Nat
  slot : Nat
  cls : Nat
  ticket : Word
  own : Nat
  owner : Word
  pc : Word
  word : WordId
  sec : Bool
  asid : Nat
  body : EngBody
  st : EngSt
  /-- bytes moved, or outputs done -/
  pos : Nat
  failed : Bool
  status : BitVec 8
  /-- slot number claimed or acquired by an ACOPYCB -/
  slotNo : Option (BitVec 32)
  /-- accesses of the strand numbered below this precede the operation -/
  before : Nat
  waitNo : Nat
  /-- local bytes that a remote operation has read -/
  data : List Byte
  /-- of a remote operation: the number of its first packet; the offsets of the packets that have been answered; the refusals of each
  packet that was refused; and the earliest refused packet that has not been sent again (23 R467) -/
  seq : Word
  got : List Nat
  refused : Tbl Nat
  again : Option Nat
  /-- the translation walk that it waits for (10 R278), and what the walks for its next span have found, by 64 KiB page -/
  walk : Option Nat
  pages : Tbl Got
  /-- order in which an HGEMV came to its base die (11 R300); of a remote operation, that it has been sent -/
  arrived : Option Nat
  /-- the copy engine of its chiplet that runs a copy (11 Table 11.1) -/
  engine : Nat
  deriving DecidableEq, Repr

/-! ### The core (07, 08, 09) -/

/-- A circular-buffer descriptor (07 Table 07.6); `ready` holds the claims whose fill is done while an earlier one is
not (08 R234). -/
structure CbDesc where
  valid : Bool
  level : BitVec 2
  base : BitVec 24
  slotb : BitVec 16
  nslot : BitVec 16
  fills : BitVec 32
  pops : BitVec 32
  claims : BitVec 32
  waiters : BitVec 16
  prod : BitVec 8
  cons : BitVec 8
  err : Bool
  ready : List (BitVec 32)
  deriving DecidableEq, Repr

/-- A weight buffer of the array (09 Table 09.1): rows of 128 bytes (unlisted 0), scales by 256j + n
(unlisted 0x7F), codebook (unlisted +0). -/
structure WBuf where
  rows : Tbl (BitVec 1024)
  scales : Tbl Byte
  codebook : Tbl (BitVec 16)
  wfmt : MFmt
  poison : Bool
  deriving DecidableEq, Repr

/-- An accumulator set (09 R244): cells (unlisted +0), SHAPE, POISON, free for spill (07 R191), and the cells that hold an
uncorrectable error (09 R247). -/
structure AccSet where
  cells : Tbl (BitVec 32)
  shape : Bool
  poison : Bool
  free : Bool
  bad : List Nat
  deriving DecidableEq, Repr

/-- What a matrix queue entry does, with its register operands read (09 R245). -/
inductive MBody where
  | load (wfmt : MFmt) (src stride : Word) (scales : Option Word)
  | book (addr : Word)
  | stream (x : MStreamX) (base stride : Word) (m : Nat)
  | drain (x : MDrainX) (base stride : Word) (m : Nat)
  | clear (shape : Bool) (set : Nat)
  | swap
  deriving DecidableEq, Repr

/-- State of a matrix queue entry; `void` is one that failed a check or has nothing to do, and only completes. -/
inductive MSt where
  | queued | running | ended | void
  deriving DecidableEq, Repr

/-- A matrix queue entry (09 R245, R259): rows done, the base of its rows once it has started, the slot number that an
SRC 1 form has acquired or claimed. `pair` counts the entry among the MSTREAMs of a joint gang (10 R271). -/
structure MEntry where
  ticket : Word
  own : Nat
  owner : Word
  slot : Nat
  pc : Word
  word : WordId
  body : MBody
  st : MSt
  row : Nat
  base : Word
  claim : Option (BitVec 32)
  pair : Option (Nat × Nat)
  waitNo : Nat
  deriving DecidableEq, Repr

/-- The matrix state of a core (09 R238). -/
structure Matrix where
  front : WBuf
  back : WBuf
  acc : Vector AccSet 4
  queue : List MEntry
  /-- MSTREAMs entered since the last joint join of the core (10 R271) -/
  streams : Nat
  joint : Option Nat
  deriving DecidableEq, Repr

/-- Phases of pre-emption (07 Table 07.8). -/
inductive Phase where
  | run | quiesce | saving | saved | restoring
  deriving DecidableEq, Repr

/-- A watchpoint (19 R430). -/
structure WatchPt where
  ctl : Word
  val : Word
  hit : BitVec 32
  deriving DecidableEq, Repr

/-- Where a parked block lies (07 R191): spill slot `j` of an accumulator set, or a block of the parked-block area. -/
inductive SpillLoc where
  | acc (set j : Nat)
  | area (j : Nat)
  deriving DecidableEq, Repr

/-- Whether a block lies in the parked-block area. -/
def SpillLoc.inArea : SpillLoc → Bool
  | .acc _ _ => false
  | .area _ => true

/-- A parked strand (07 R190) with the spill map of its blocks; its wait ends make it restorable, in order, and it may have
taken a slot while its blocks are not yet back in rows (07 R193). -/
structure ParkEntry where
  strand : Strand
  blocks : List SpillLoc
  restorable : Option Nat
  slot : Option Nat
  deriving DecidableEq, Repr

/-- A class-3 ticket's status word (23 R464). -/
structure RmaStatus where
  ticket : Word
  qp : BitVec 24
  done : Bool
  qst : BitVec 2
  status : BitVec 8
  deriving DecidableEq, Repr

/-- A deferred fault not yet delivered (04 R109): the model's number of its owner. -/
structure Deferred where
  own : Nat
  f : FaultRec
  deriving DecidableEq, Repr

/-- A stop that was asked for while its core is not in RUN (19 R426): of the core, of a strand by its SID, or the FORCE of a core
stop. -/
inductive StopAsk where
  | core
  | strand (sid : Word)
  | force
  deriving DecidableEq, Repr

/-- A core (07). -/
structure Core where
  lcore : BitVec 16
  cfg : Word
  savea : Word
  phase : Phase
  saves : BitVec 32
  resumeAsked : Bool
  preemptAsked : Bool
  fdis : Bool
  slots : Tbl Strand
  holders : Tbl (Nat × Strand)
  faultQ : List Nat
  park : Tbl ParkEntry
  migQ : List Strand
  inbuf : List ActMsg
  spillQ : List SpillItem
  replies : List ReplyItem
  deferred : List Deferred
  vrf : Tbl VReg
  masks : Vector (BitVec 16) 8
  cbd : Vector CbDesc 16
  ptr : Nat
  cc : Word
  /-- the vector read stage is held until this cycle by the strand of a slot (07 R187) -/
  readUntil : Word
  readSlot : Nat
  /-- cycle counts at which the dividers in use are free again (05 R118) -/
  dividers : List Word
  mtx : Matrix
  issq : Vector Word 4
  eseq : Vector Word 4
  /-- tickets of each class completed above ESEQ -/
  done : List (Nat × Word)
  rma : List RmaStatus
  quota : Nat
  urgUntil : Word
  perf : Vector Word 16
  wp : Vector WatchPt 4
  dlyCfg : Word
  dlyKey : Tbl Word
  dlyAcc : Tbl Word
  dbg : Word
  sampled : Nat
  /-- sampling periods that have ended and have not been sampled (19 R435) -/
  sampleDue : Nat
  /-- stops asked for while the core is not in RUN (19 R426) -/
  stopAsks : List StopAsk
  deriving DecidableEq, Repr

/-! ### The cluster (10) -/

/-- An arrival at a gang (10 R270). -/
structure GangArr where
  core : Nat
  slot : Nat
  own : Nat
  mask : BitVec 4
  joint : Bool
  d : Dst
  opd : BitVec 32
  deriving DecidableEq, Repr

/-- A gang (10 R269); `arrived` in arrival order, `held` second strands of a core. -/
structure Gang where
  gen : BitVec 8
  opn : Bool
  mask : BitVec 4
  arr : BitVec 4
  jm : Bool
  mis : Bool
  arrived : List GangArr
  held : List GangArr
  members : List (Nat × Nat)
  deriving DecidableEq, Repr

/-- A cluster barrier (10 R274). -/
structure Bar where
  phase : BitVec 16
  parties : BitVec 16
  cnt : BitVec 16
  mis : Bool
  deriving DecidableEq, Repr

/-- An iteration counter (10 R275); `p` 0 stands for 256. -/
structure Ctr where
  next : BitVec 32
  stop : BitVec 32
  min : BitVec 16
  factor : BitVec 8
  p : BitVec 8
  deriving DecidableEq, Repr

/-- A walk in flight (10 R278), and what waits for it with the addresses asked for: strands by core and slot, and engine
operations by core and number, whose kind is `engine`. -/
structure Walk where
  id : Nat
  asid : BitVec 12
  sec : Bool
  va : Word
  waiters : List (Nat × Nat × ReqKind × Word)
  deriving DecidableEq, Repr

/-- An entry of the walk cache (10 R278): ASID, level, VA prefix, entry. -/
structure WalkEntry where
  asid : BitVec 12
  level : Nat
  pre : Nat
  pte : Word
  deriving DecidableEq, Repr

/-- Power state of a cluster (18 R416): a woken cluster holds its inrush token until stable supply. -/
inductive Power where
  | up | gated | asking | waking
  deriving DecidableEq, Repr

/-- A cluster. -/
structure Cluster where
  cfg : Word
  icache : Tbl (BitVec 512)
  gangs : Vector Gang 4
  bars : Vector Bar 16
  ctrs : Vector Ctr 4
  tlb : List TlbEntry
  plru : Tbl (BitVec 7)
  walkCache : List WalkEntry
  walks : List Walk
  tree : Vector Word 5
  mailbox : List Nat
  misses : BitVec 32
  power : Power
  deriving DecidableEq, Repr

/-! ### The chiplet (11) -/

/-- A page request (11 Table 11.5); `op` is the engine operation of an ENGINE request. -/
structure PageReq where
  tag : Nat
  va : Word
  sid : Word
  core : Nat
  lcore : BitVec 16
  slot : Nat
  kind : ReqKind
  ticket : BitVec 8
  asid : BitVec 12
  sec : Bool
  op : Option Nat
  deriving DecidableEq, Repr

/-- A dispatcher's range of a live launch (11 R303, R305); `out` holds the indices of it that a REPLAY has placed before the
first (17 Table 17.7). -/
structure DispRange where
  asid : Nat
  lh : BitVec 32
  s : Nat
  n : Nat
  out : List Nat
  /-- ranks asked without success since the last success; the lap ends stealing -/
  asked : Nat
  asking : Bool
  deriving DecidableEq, Repr

/-- A steal between request and reply (11 R305). -/
structure Steal where
  id : Nat
  asid : Nat
  lh : BitVec 32
  /-- launch number, for its record -/
  ln : BitVec 30
  thief : Nat
  victim : Nat
  /-- first index and count of the reply -/
  ans : Option (Nat × Nat)
  deriving DecidableEq, Repr

/-- A chiplet. -/
structure Chiplet where
  pagerCore : BitVec 16
  sec : Bool
  ranges : List DispRange
  children : List Strand
  pagerQ : List PageReq
  pagerPend : List PageReq
  nextTag : Nat
  engDone : Vector (BitVec 32) 4
  stale : BitVec 32
  route : Tbl Word
  deriving DecidableEq, Repr

/-! ### The module (14, 15, 16, 17, 18) -/

/-- What stands at a site (14 R322, Table 14.7). -/
inductive SiteKind where
  | empty | mClass | bClass | link | spine
  deriving DecidableEq, Repr

/-- Bring-up states, in the order of Table 14.2. -/
inductive SiteState where
  | off | clocked | probed | trained | routed | live | isolated | failed
  deriving DecidableEq, Repr

/-- A site as SITEST shows it (14 Table 14.7). -/
structure Site where
  st : SiteState
  kind : SiteKind
  failedEdges : BitVec 8
  cores : BitVec 16
  lchip : BitVec 16
  inc : BitVec 8
  part : BitVec 6
  deriving DecidableEq, Repr

/-- A partition (14 R326, R327, R336): sites and cores in logical order, donating cores by rank, D code. -/
structure Partition where
  chips : List Nat
  cores : List Nat
  donors : List Nat
  d : BitVec 2
  repset : BitVec 48
  deriving DecidableEq, Repr

/-- A clock region (14 R335, Table 14.7). -/
structure Region where
  grade : BitVec 2
  running : BitVec 2
  mhz : BitVec 16
  deriving DecidableEq, Repr

/-- A live launch (18 R409, R412). -/
structure Launch where
  slot : Nat
  ln : BitVec 30
  entry : Word
  fault : Word
  seed : Word
  chips : List Nat
  cap : Nat
  count : Nat
  queue : Nat
  pos : Word
  tag : BitVec 32
  ptype : BitVec 8
  notify : Bool
  late : Bool
  deriving DecidableEq, Repr

/-- A context (18 R404, 17 R382, 19 R437). -/
structure Ctx where
  part : Nat
  sec : Bool
  mode : ColMode
  stop : Bool
  endSet : Bool
  rb : Word
  segLog : Nat
  quota : Nat
  slotQuota : Nat
  nextLn : BitVec 30
  nextLh : BitVec 32
  launches : Tbl Launch
  trcCfg : Word
  trcWritten : BitVec 32
  trcLost : BitVec 32
  trcMark : Bool
  deriving DecidableEq, Repr

/-- A Colophon lane (17 R396, R397): WP and DP in RECORD, RP and FP in REPLAY; cycles that its head record has waited; a
stall has been reported; the records on their way to the ring, oldest first (17 R383). -/
structure Lane where
  p : BitVec 32
  q : BitVec 32
  waited : Nat
  warned : Bool
  buf : List (BitVec 256)
  deriving DecidableEq, Repr

/-- A packet that has issued and is not complete: what its completion record returns (18 R406). -/
structure OpenPacket where
  pos : Nat
  tag : BitVec 32
  type : BitVec 8
  deriving DecidableEq, Repr

/-- A user queue (18 R405, R414): its QCB, whether its pending bit is set, its next completion. -/
structure Queue where
  asid : Nat
  qcb : Qcb
  pending : Bool
  comps : Nat
  /-- packets issued and not complete -/
  open_ : List OpenPacket
  /-- the SIGNAL or COPY at its head has sent its writes to replicated pages, under this number (15 R359) -/
  writing : Option Nat
  /-- whether it was runnable when TIME last advanced, and the TIME at which it last became so or was unmapped -/
  runnable : Bool
  since : Word
  deriving DecidableEq, Repr

/-- A packet fetched ahead (18 R408): header and body as the 128 bytes read. -/
structure Packet where
  pos : Nat
  bytes : BitVec 1024
  deriving DecidableEq, Repr

/-- A hardware queue slot (18 R405 to R414). -/
structure HwSlot where
  queue : Nat
  asid : Nat
  sec : Bool
  fetched : List Packet
  /-- TIME at which the queue was mapped -/
  mappedAt : Word
  /-- a timed launch at its head waits for its fire time, which had passed when it was reached (16 R380) -/
  timed : Option (Word × Bool)
  /-- its packet is held at the launch lane (17 R391, R396) -/
  held : Bool
  deriving DecidableEq, Repr

/-- A wide or local shoot-down (10 R279, R281). -/
structure Shoot where
  id : Nat
  core : Nat
  slot : Nat
  clu : Nat
  kind : BitVec 2
  asid : BitVec 12
  va : Word
  sec : Bool
  wide : Bool
  /-- refused by a full root mailbox -/
  refused : Bool
  /-- clusters that have received it, with the operation numbers that had been given then -/
  got : List (Nat × Nat)
  /-- clusters that have acknowledged -/
  acked : List Nat
  deriving DecidableEq, Repr

/-- A page-in reply on its way (11 R307). -/
structure PageReply where
  site : Nat
  req : PageReq
  code : BitVec 8
  deriving DecidableEq, Repr

/-- A saved core image (07 R200), named by its save area: the core's record and its scratchpad bytes by offset (log 8).
`stashed` when the core has been given other work since: its operations then wait here. -/
structure Saved where
  asid : BitVec 12
  core : Nat
  image : Core
  bytes : Memory
  ops : List EngOp
  stashed : Bool
  deriving DecidableEq, Repr

/-- Events that the module writes to the host (18 R404, 23 R453) and other outputs. -/
inductive HostEvent where
  | contextEnd (asid : Nat) (code : BitVec 8) (sid : Word)
  | contextRefused (asid : Nat)
  | divergence (asid : Nat) (report : BitVec 512)
  | highWater (asid lane : Nat)
  | lowWater (asid lane : Nat)
  | laneStall (asid lane : Nat)
  | drained (asid lane : Nat) (recs : List (BitVec 256))
  | saved (core : Nat)
  | response (ok : Bool) (val : Word)
  | stepped (core slot : Nat) (st : BitVec 3)
  | debugRead (bytes : List Byte)
  /-- the state of a stopped strand and its allotment registers -/
  | stateRead (p : Strand) (regs : List VReg)
  | report (bits : BitVec 2304) (sig : BitVec 4096)
  | qpError (qp : Nat) (status : BitVec 8)
  | revoked (index : Nat)
  | gone (asid : Nat)
  /-- a packet for a module leaves by a port (23 R457) -/
  | fabric (link port dst : Nat) (pkt : FabPkt)
  | hostWrite (addr : Word) (bytes : List Byte)
  deriving DecidableEq, Repr

/-! ### The fabric (23) -/

/-- States of a queue pair (23 Table 23.3). -/
inductive QpState where
  | reset | init | rts | error
  deriving DecidableEq, Repr

/-- A queue pair (23 Table 23.2). -/
structure Qp where
  st : QpState
  retry : BitVec 4
  sec : Bool
  asid : BitVec 12
  rmod : BitVec 8
  rqp : BitVec 24
  inc : BitVec 8
  port : BitVec 2
  nextSend : Word
  nextRecv : Word
  resident : Bool
  /-- whether the queue pair has stopped sending after NOT_READY (23 R467) -/
  backoff : Bool
  deriving DecidableEq, Repr

/-- States of a memory region (23 R460). -/
inductive RegionState where
  | free | valid | draining
  deriving DecidableEq, Repr

/-- A memory region (23 R460). -/
structure MemRegion where
  asid : BitVec 12
  sec : Bool
  base : Word
  len : Nat
  rr : Bool
  rw : Bool
  ra : Bool
  gen : BitVec 8
  st : RegionState
  drain : Nat
  /-- link chiplets that have not yet applied the revoke -/
  toApply : List Nat
  deriving DecidableEq, Repr

/-- A fabric port (23 Table 23.8): 0 down, 1 training, 2 up; consecutive failures; the packets that wait while it trains, each with
its module (23 R456). -/
structure Port where
  st : BitVec 2
  resent : BitVec 32
  fails : Nat
  waits : List (Nat × FabPkt)
  deriving DecidableEq, Repr

/-- A port that has not come up. -/
def Port.blank : Port where
  st := 0
  resent := 0
  fails := 0
  waits := []

/-- An operation admitted at a target and not yet performed, with the answers to its packets, which leave when every access of it is
performed (23 R465, R468). -/
structure Admitted where
  rmod : Nat
  opId : Nat
  index : Nat
  rsps : List FabRsp
  deriving DecidableEq, Repr

/-- A link chiplet (23); `tcache` is its translation cache of 1,024 entries, the latest first (23 R465). -/
structure Link where
  ports : Tbl Port
  tcache : List TlbEntry
  /-- resident queue pairs, least recently used first -/
  lru : List Nat
  staged : List FabReq
  notReady : BitVec 16
  rstale : BitVec 32
  admitted : List Admitted
  /-- responses that wait for a suspended operation, and requests that wait for a locked location -/
  rsps : List FabRsp
  reqs : List FabReq
  /-- those of `reqs` that have sent their writes to replicated pages, each with its number (15 R359) -/
  sent : List (FabReq × Nat)
  deriving DecidableEq, Repr

/-! ### The module's state -/

/-- The Spine (18) and module-wide registers. -/
structure Spine where
  time : Word
  recovery : Bool
  powered : Bool
  /-- the firmware image that the module carries, none before the first power good (18 R418) -/
  fw : Option FwImage
  minVersion : BitVec 16
  pasSeq : Word
  /-- what the time unit has still to add to TIME by slewing, in ns (05 R141) -/
  slew : Int
  tokens : Nat
  wakeQ : List Nat
  queues : Tbl Queue
  hw : Tbl HwSlot
  worlds : Tbl Word
  colTmo : BitVec 24
  modules : Nat
  modNum : BitVec 8
  asidRoot : Tbl Word
  /-- TIME of the last epoch (18 R414) -/
  lastEpoch : Word
  attached : Option (Nat × BitVec 2)
  commands : List Instr
  /-- the control blocks that system software has written since the last kick of their queues, with their context, by queue
  (18 R405; their byte layout is not given, log 13) -/
  blocks : Tbl (Nat × Qcb)
  /-- a debugger's write whose writes to replicated pages are on their way, under this number (15 R359) -/
  debugging : Option Nat
  dropped : Nat
  port0 : Bool
  port1 : Bool
  froute : Tbl Word
  /-- the incarnations that the Spine holds for the chiplets that it sends to, by site (11 R309) -/
  incs : Tbl (BitVec 8)
  deriving DecidableEq, Repr

/-- The state of the module. -/
structure State where
  mem : Memory
  /-- 64-byte lines (location / 64) that hold an uncorrectable error (04 R109) -/
  uncorr : List Nat
  sites : Tbl Site
  parts : Tbl Partition
  regions : Tbl Region
  cores : Tbl Core
  clusters : Tbl Cluster
  chiplets : Tbl Chiplet
  ctxs : Tbl Ctx
  lanes : Tbl Lane
  spine : Spine
  links : Tbl Link
  qps : Tbl Qp
  memRegions : Tbl MemRegion
  saved : List Saved
  loads : List LoadOp
  writes : List WriteUnit
  atoms : List AtomOp
  sends : List SendOp
  migs : List MigOp
  ops : List EngOp
  shoots : List Shoot
  steals : List Steal
  pageReplies : List PageReply
  events : List HostEvent
  /-- numbers given to operations in flight, waits and accesses; also the counter of free values -/
  fresh : Nat
  /-- the strand that executes: core and slot -/
  cur : Nat × Nat
  /-- members of the current issue group that have not executed yet -/
  issuing : List (Nat × Nat)
  /-- the acts of other agents that come next (log 1) -/
  agenda : List Instr
  deriving DecidableEq, Repr

/-- No step of the machine faults: a fault of the part is a next state, in which the strand is FAULTED or
its context has ended. -/
inductive Fault where
  deriving DecidableEq, Repr

/-- Reasons a step has no meaning. -/
inductive Refusal where
  /-- Raised by an arm of `exec` whose row has no meaning yet. Safe: nothing can be proved of the step. -/
  | notModelled (mnemonic : String)
  deriving DecidableEq, Repr

/-! ### Blank records and reset -/

/-- A checkpoint of a strand that has not started. -/
def Checkpoint.blank : Checkpoint where
  pc := 0
  fcnt := 0
  g := Vector.replicate 16 0
  flags := 0
  rmode := 0
  amax := 0
  draw := 0
  sdig := 0
  streams := []
  board := []
  vboard := []
  vregs := []
  masks := []
  seq := 0

/-- A strand with every field at its value at creation (04 R98, 03 R74). -/
def Strand.blank : Strand where
  pc := 0
  asid := 0
  fcnt := 0
  kind := .launched
  sec := false
  pager := false
  sup := false
  g := Vector.replicate 16 0
  flags := 0
  rmode := 0
  amax := 0
  draw := 0
  sid := 0
  lidx := 0
  sord := 0
  sdig := 0
  lh := 0
  rows := []
  streams := []
  region := []
  ckpt := Checkpoint.blank
  ckptDue := true
  retired := 0
  firstStore := none
  mustCommit := false
  st := .ready
  word := { maj := 0, fn := 0, len := 0 }
  waitNo := 0
  age := 0
  pauseUntil := none
  yielding := none
  latches := [none, none, none]
  nextSeq := 0
  walk := none
  stopped := false
  stepping := false
  stepWait := false
  lastFused := false
  lastRet := false
  msg := none
  own := 0
  acqSeq := 0
  heldSince := none
  board := []
  vboard := []

/-- A descriptor that is not set up (07 R196). -/
def CbDesc.blank : CbDesc where
  valid := false
  level := 0
  base := 0
  slotb := 0
  nslot := 0
  fills := 0
  pops := 0
  claims := 0
  waiters := 0
  prod := 0
  cons := 0
  err := false
  ready := []

/-- A weight buffer at assignment (09 R238). -/
def WBuf.blank : WBuf where
  rows := []
  scales := []
  codebook := []
  wfmt := .bf16
  poison := false

/-- An accumulator set at assignment (09 R238). -/
def AccSet.blank : AccSet where
  cells := []
  shape := false
  poison := false
  free := false
  bad := []

/-- The matrix state at assignment (09 R238). -/
def Matrix.blank : Matrix where
  front := WBuf.blank
  back := WBuf.blank
  acc := Vector.replicate 4 AccSet.blank
  queue := []
  streams := 0
  joint := none

/-- A core with no context assigned (07; log 6 for the values the manual gives no reset value). -/
def Core.blank : Core where
  lcore := 0xFFFF
  cfg := 0
  savea := 0
  phase := .run
  saves := 0
  resumeAsked := false
  preemptAsked := false
  fdis := false
  slots := []
  holders := []
  faultQ := []
  park := []
  migQ := []
  inbuf := []
  spillQ := []
  replies := []
  deferred := []
  vrf := []
  masks := Vector.replicate 8 0
  cbd := Vector.replicate 16 CbDesc.blank
  ptr := 0
  cc := 0
  readUntil := 0
  readSlot := 0
  dividers := []
  mtx := Matrix.blank
  issq := Vector.replicate 4 0
  eseq := Vector.replicate 4 0
  done := []
  rma := []
  quota := 32
  urgUntil := 0
  perf := Vector.replicate 16 0
  wp := Vector.replicate 4 { ctl := 0, val := 0, hit := 0 }
  dlyCfg := 0
  dlyKey := []
  dlyAcc := []
  dbg := 0
  sampled := 0
  sampleDue := 0
  stopAsks := []

/-- A gang at assignment (10 R262). -/
def Gang.blank : Gang where
  gen := 0
  opn := false
  mask := 0
  arr := 0
  jm := false
  mis := false
  arrived := []
  held := []
  members := []

/-- A cluster with no context assigned (10 R262; log 6). -/
def Cluster.blank : Cluster where
  cfg := 0
  icache := []
  gangs := Vector.replicate 4 Gang.blank
  bars := Vector.replicate 16 { phase := 0, parties := 0, cnt := 0, mis := false }
  ctrs := Vector.replicate 4 { next := 0, stop := 0, min := 0, factor := 0, p := 0 }
  tlb := []
  plru := []
  walkCache := []
  walks := []
  tree := Vector.replicate 5 0
  mailbox := []
  misses := 0
  power := .up

/-- A chiplet with no context assigned (11; log 6). -/
def Chiplet.blank : Chiplet where
  pagerCore := 0xFFFF
  sec := false
  ranges := []
  children := []
  pagerQ := []
  pagerPend := []
  nextTag := 0
  engDone := Vector.replicate 4 0
  stale := 0
  route := []

/-- What the site grid places at site number n = 18y + x (14 R322, Table 14.1). -/
def siteKind (n : Nat) : SiteKind :=
  let x := n % 18
  let y := n / 18
  if n ≥ 324 then .empty
  else if 1 ≤ x ∧ x ≤ 16 ∧ 1 ≤ y ∧ y ≤ 16 then .mClass
  else if (x = 0 ∨ x = 17) ∧ (y = 0 ∨ y = 17) then .empty
  else
    let p := if y = 0 ∨ y = 17 then x else y
    if y = 0 ∧ p = 9 then .spine
    else if p = 4 ∨ p = 8 ∨ p = 9 ∨ p = 13 then .link
    else .bClass

/-- A site at module reset: OFF, in no partition (14 R325; log 6). -/
def Site.reset (n : Nat) : Site where
  st := .off
  kind := siteKind n
  failedEdges := 0
  cores := 0
  lchip := 0xFFFF
  inc := 0
  part := 0x3F

/-- A clock region as it is taken to be before its grade is reported (14 R335; log 6). -/
def Region.reset : Region where
  grade := 0
  running := 0
  mhz := 1250

/-- A partition number that names no partition. -/
def Partition.blank : Partition where
  chips := []
  cores := []
  donors := []
  d := 0
  repset := 0

/-- An ASID that names no context. -/
def Ctx.blank : Ctx where
  part := 0x3F
  sec := false
  mode := .off
  stop := false
  endSet := false
  rb := 0
  segLog := 0
  quota := 32
  slotQuota := 0
  nextLn := 0
  nextLh := 0
  launches := []
  trcCfg := 0
  trcWritten := 0
  trcLost := 0
  trcMark := false

/-- A lane handle that names no launch. -/
def Launch.blank : Launch where
  slot := 0
  ln := 0
  entry := 0
  fault := 0
  seed := 0
  chips := []
  cap := 0
  count := 0
  queue := 0
  pos := 0
  tag := 0
  ptype := 0
  notify := false
  late := false

/-- An empty lane (17 R384). -/
def Lane.blank : Lane where
  p := 0
  q := 0
  waited := 0
  warned := false
  buf := []

/-- A queue pair number that is free. -/
def Qp.blank : Qp where
  st := .reset
  retry := 0
  sec := false
  asid := 0
  rmod := 0
  rqp := 0
  inc := 0
  port := 0
  nextSend := 0
  nextRecv := 0
  resident := false
  backoff := false

/-- An index that has never been registered (23 R460). -/
def MemRegion.blank : MemRegion where
  asid := 0
  sec := false
  base := 0
  len := 0
  rr := false
  rw := false
  ra := false
  gen := 0
  st := .free
  drain := 0
  toApply := []

/-- A link chiplet at reset (log 6). -/
def Link.blank : Link where
  ports := []
  tcache := []
  lru := []
  staged := []
  notReady := 0
  rstale := 0
  admitted := []
  rsps := []
  reqs := []
  sent := []

/-- The Spine at module reset (17 R402: COLTMO 10,000; 18 R416: 32 tokens; log 6 for the rest). -/
def Spine.reset : Spine where
  time := 0
  recovery := false
  powered := false
  fw := none
  minVersion := 0
  pasSeq := 0
  slew := 0
  tokens := 32
  wakeQ := []
  queues := []
  hw := []
  worlds := []
  colTmo := 10000
  modules := 1
  modNum := 0
  asidRoot := []
  lastEpoch := 0
  attached := none
  commands := []
  blocks := []
  debugging := none
  dropped := 0
  port0 := true
  port1 := true
  froute := []
  incs := []

/-- The module right after module reset (14 R325): every site OFF, no strand anywhere, memory with
nothing listed. -/
def State.reset : State where
  mem := []
  uncorr := []
  sites := []
  parts := []
  regions := []
  cores := []
  clusters := []
  chiplets := []
  ctxs := []
  lanes := []
  spine := Spine.reset
  links := []
  qps := []
  memRegions := []
  saved := []
  loads := []
  writes := []
  atoms := []
  sends := []
  migs := []
  ops := []
  shoots := []
  steals := []
  pageReplies := []
  events := []
  fresh := 0
  cur := (0, 0)
  issuing := []
  agenda := []

end Sys2Proof.Machine
end

