-- ==== Sys2Proof/Machine/Tables.lean ====
section
/-! DEFINITION. Tables by number, bytes and memory, and the hash step that several chapters share. -/

namespace Sys2Proof.Machine

/-! ### Tables -/

/-- The record listed under a number. -/
def tfind {α : Type} : Tbl α → Nat → Option α
  | [], _ => none
  | (k, v) :: t, n => if k = n then some v else tfind t n

/-- The record of a number, `d` when it is not listed. -/
def tget {α : Type} (d : α) (t : Tbl α) (n : Nat) : α := (tfind t n).getD d

/-- Lists `v` under `n`, keeping the keys rising. -/
def tput {α : Type} : Tbl α → Nat → α → Tbl α
  | [], n, v => [(n, v)]
  | (k, w) :: t, n, v =>
    if n < k then (n, v) :: (k, w) :: t else if n = k then (n, v) :: t else (k, w) :: tput t n v

/-- Removes the record of `n`. -/
def tdel {α : Type} (t : Tbl α) (n : Nat) : Tbl α := t.filter fun e => e.1 != n

/-- The numbers below `n` at which a predicate holds, ascending. -/
def numsWhere (n : Nat) (p : Nat → Bool) : List Nat := (List.range n).filter p

/-- Position of the first element that satisfies a predicate. -/
def indexWhere {α : Type} (p : α → Bool) : List α → Nat → Option Nat
  | [], _ => none
  | a :: l, i => if p a then some i else indexWhere p l (i + 1)

/-- Replaces the elements that satisfy a predicate. -/
def mapWhere {α : Type} (p : α → Bool) (f : α → α) (l : List α) : List α := l.map fun a => if p a then f a else a

/-- Element `i` of a list, `d` beyond its end. -/
def nth {α : Type} (d : α) (l : List α) (i : Nat) : α := (l[i]?).getD d

/-- Inserts before the first element that it must precede. -/
def insertBy {α : Type} (le : α → α → Bool) (a : α) : List α → List α
  | [] => [a]
  | b :: l => if le a b then a :: b :: l else b :: insertBy le a l

/-- A list sorted by a relation; elements that precede each other keep their order. -/
def sortBy {α : Type} (le : α → α → Bool) (l : List α) : List α := l.foldr (insertBy le) []

/-- The ceiling of a quotient. -/
def ceilDiv (a b : Nat) : Nat := (a + (b - 1)) / b

/-- A fixed vector with entry `i` changed; an index beyond the end changes nothing. -/
def vset {α : Type} {n : Nat} (v : Vector α n) (i : Nat) (a : α) : Vector α n := v.setIfInBounds i a

/-- Entry `i` of a fixed vector, `d` beyond its end. -/
def vget {α : Type} {n : Nat} (d : α) (v : Vector α n) (i : Nat) : α := (v[i]?).getD d

/-! ### Bits and bytes -/

/-- Bits `i` to `i + n - 1` of a number. -/
def bitsOf (x i n : Nat) : Nat := x / 2 ^ i % 2 ^ n

/-- A field of a word. -/
def wfld (x : Word) (i n : Nat) : Nat := bitsOf x.toNat i n

/-- A word from its value modulo 2^64. -/
abbrev toWord (n : Nat) : Word := BitVec.ofNat 64 n

/-- The low `8 * n` bits of a value as a word, sign-extended or not (06 R151). -/
def extend (sgn : Bool) (n v : Nat) : Word :=
  if sgn then (BitVec.ofNat (8 * n) v).signExtend 64 else (BitVec.ofNat (8 * n) v).setWidth 64

/-- Signed value of the low `n` bits of a number. -/
def signedOf (n x : Nat) : Int := (BitVec.ofNat n x).toInt

/-- A word from an integer, modulo 2^64. -/
abbrev wordInt (i : Int) : Word := BitVec.ofInt 64 i

/-- One step of the hash of 03 R77, which identities, draws, digests and the pool share. -/
def round3 (x w c : Word) : Word :=
  let y := (x ^^^ w) * c
  y ^^^ (y >>> 31)

/-! ### Memory -/

/-- The byte at a location; a byte that is not listed reads 0 (log 4). -/
def memGet : Memory → Nat → Byte
  | [], _ => 0
  | (a, b) :: m, l => if a = l then b else memGet m l

/-- Memory with the byte at a location replaced, in the same canonical form. -/
def memPut : Memory → Nat → Byte → Memory
  | [], l, v => if v = 0 then [] else [(l, v)]
  | (a, b) :: m, l, v =>
    if l < a then (if v = 0 then (a, b) :: m else (l, v) :: (a, b) :: m)
    else if l = a then (if v = 0 then m else (l, v) :: m)
    else (a, b) :: memPut m l v

/-- Writes bytes one after another. -/
def memWrite (m : Memory) (cells : List Host.Cell) : Memory := cells.foldl (fun m c => memPut m c.1 c.2) m

/-- Clears `n` bytes from a location. -/
def memClear (m : Memory) (l n : Nat) : Memory := m.filter fun c => !(decide (l ≤ c.1) && decide (c.1 < l + n))

/-- Whether every entry lies above `lo`, the entries rise and none is zero. -/
def memRising : Nat → Memory → Bool
  | _, [] => true
  | lo, (a, b) :: m => decide (lo ≤ a) && b != 0 && memRising (a + 1) m

/-- The canonical form: addresses strictly rising, no entry equal to what an unlisted byte reads as. -/
def Memory.wf (m : Memory) : Bool := memRising 0 m

/-- The little-endian value of bytes at given locations (00 R12). -/
def memVal (m : Memory) (locs : List Nat) : Nat := leNat (locs.map (memGet m))

/-- `n` locations from `l`. -/
def locsFrom (l n : Nat) : List Nat := (List.range n).map (l + ·)

/-- The bytes of a value at given locations, lowest first (00 R12). -/
def cellsOf (locs : List Nat) (v : Nat) : List Host.Cell := locs.zip (leBytes locs.length v)

end Sys2Proof.Machine
end

