-- ==== Sys2Proof/Machine/Float.lean ====
section
/-! DEFINITION. Element formats, the rounding procedure and exact arithmetic on values (03). -/

namespace Sys2Proof.Machine

/-! ### Formats -/

/-- A floating-point format: exponent and mantissa bits, bias, whether it encodes infinity (03 Table 03.1). -/
structure Fmt where
  eb : Nat
  mb : Nat
  bias : Nat
  hasInf : Bool
  deriving DecidableEq, Repr

/-- FP32. -/
def Fmt.f32 : Fmt := { eb := 8, mb := 23, bias := 127, hasInf := true }
/-- FP16. -/
def Fmt.f16 : Fmt := { eb := 5, mb := 10, bias := 15, hasInf := true }
/-- BF16. -/
def Fmt.bf16 : Fmt := { eb := 8, mb := 7, bias := 127, hasInf := true }
/-- FP8 E5M2. -/
def Fmt.e5m2 : Fmt := { eb := 5, mb := 2, bias := 15, hasInf := true }
/-- FP8 E4M3, whose largest exponent code encodes values except for M = 111 (03 R64). -/
def Fmt.e4m3 : Fmt := { eb := 4, mb := 3, bias := 7, hasInf := false }

/-- Exponent of the smallest normal value. -/
def Fmt.emin (f : Fmt) : Int := 1 - (f.bias : Int)

/-- Exponent of the largest finite value. -/
def Fmt.emax (f : Fmt) : Int := (2 ^ f.eb - 1 : Nat) - (f.bias : Int) - (if f.hasInf then 1 else 0)

/-- The largest finite magnitude, in units of its last place. -/
def Fmt.maxK (f : Fmt) : Nat := if f.hasInf then 2 ^ (f.mb + 1) - 1 else 2 ^ (f.mb + 1) - 2

/-- Sign bit in place. -/
def Fmt.sign (f : Fmt) (neg : Bool) : Nat := if neg then 2 ^ (f.eb + f.mb) else 0

/-- The infinity of a sign. -/
def Fmt.inf (f : Fmt) (neg : Bool) : Nat := f.sign neg + (2 ^ f.eb - 1) * 2 ^ f.mb

/-- The canonical NaN (03 Table 03.2). -/
def Fmt.nan (f : Fmt) : Nat :=
  if f.hasInf then (2 ^ f.eb - 1) * 2 ^ f.mb + 2 ^ (f.mb - 1) else 2 ^ (f.eb + f.mb) - 1

/-- The largest finite value of a sign (03 Table 03.2). -/
def Fmt.maxFin (f : Fmt) (neg : Bool) : Nat :=
  f.sign neg + (f.emax + f.bias).toNat * 2 ^ f.mb + (f.maxK - 2 ^ f.mb)

/-! ### Values -/

/-- An exact result: NaN, an infinity, or (−1)^neg × (m + t) × 2^e with t = 0, or 0 < t < 1 when `more` is
set (an irrational or a quotient, known to enough bits). -/
inductive FV where
  | nan
  | inf (neg : Bool)
  | fin (neg : Bool) (m : Nat) (e : Int) (more : Bool)
  deriving DecidableEq, Repr

/-- The value of an encoding (03 R64, R65). -/
def Fmt.value (f : Fmt) (x : Nat) : FV :=
  let neg := x / 2 ^ (f.eb + f.mb) % 2 == 1
  let e := x / 2 ^ f.mb % 2 ^ f.eb
  let m := x % 2 ^ f.mb
  if f.hasInf && e == 2 ^ f.eb - 1 then (if m = 0 then .inf neg else .nan)
  else if !f.hasInf && x % 2 ^ (f.eb + f.mb) == 2 ^ (f.eb + f.mb) - 1 then .nan
  else if e = 0 then .fin neg m (f.emin - f.mb) false
  else .fin neg (m + 2 ^ f.mb) ((e : Int) - f.bias - f.mb) false

/-- The value of FP32 bits. -/
def fv32 (x : BitVec 32) : FV := Fmt.f32.value x.toNat

/-- An integer as a value. -/
def fvInt (i : Int) : FV := .fin (decide (i < 0)) i.natAbs 0 false

/-- Whether a value is NaN. -/
def FV.isNan : FV → Bool
  | .nan => true
  | _ => false

/-- Whether a value is a zero. -/
def FV.isZero : FV → Bool
  | .fin _ 0 _ false => true
  | _ => false

/-- Whether a value is an infinity. -/
def FV.isInf : FV → Bool
  | .inf _ => true
  | _ => false

/-- Sign of a value; a NaN has none. -/
def FV.neg : FV → Bool
  | .nan => false
  | .inf n => n
  | .fin n _ _ _ => n

/-- The value negated. -/
def FV.negate : FV → FV
  | .nan => .nan
  | .inf n => .inf (!n)
  | .fin n m e t => .fin (!n) m e t

/-- The value multiplied by a power of two. -/
def FV.scale (k : Int) : FV → FV
  | .fin n m e t => .fin n m (e + k) t
  | v => v

/-! ### FLAGS (03 Table 03.4) -/

/-- NX. -/
def flNX : BitVec 16 := 0x01
/-- UF. -/
def flUF : BitVec 16 := 0x02
/-- OF. -/
def flOF : BitVec 16 := 0x04
/-- DZ. -/
def flDZ : BitVec 16 := 0x08
/-- NV. -/
def flNV : BitVec 16 := 0x10
/-- NAN. -/
def flNAN : BitVec 16 := 0x20
/-- SAT. -/
def flSAT : BitVec 16 := 0x40

/-! ### Rounding (03 R75) -/

/-- Rounding modes (03 Table 03.3, DYN resolved). -/
inductive RMode where
  | rne | rtz | rdn | rup | sr
  deriving DecidableEq, Repr

/-- The integer part of a magnitude in units of 2^q, the remainder over its denominator, and whether more
follows. -/
def cut (m : Nat) (e q : Int) : Nat × Nat × Nat :=
  if q ≤ e then (m * 2 ^ (e - q).toNat, 0, 1)
  else
    let d := 2 ^ (q - e).toNat
    (m / d, m % d, d)

/-- Whether a magnitude between `k` and `k + 1` units goes up: remainder `r` of `d`, and more (03 R75). -/
def goesUp (mode : RMode) (neg : Bool) (k r d : Nat) (more : Bool) (rnd : Nat) : Bool :=
  match mode with
  | .rne => decide (d < 2 * r) || (2 * r == d && (more || k % 2 == 1))
  | .rtz => false
  | .rdn => neg
  | .rup => !neg
  | .sr => decide (rnd < r * 2 ^ 32 / d)

/-- The encoding of k × 2^q, a grid value of the format. -/
def Fmt.encode (f : Fmt) (neg : Bool) (k : Nat) (q : Int) : Nat :=
  if k < 2 ^ f.mb then f.sign neg + k
  else
    let (k, q) := if k = 2 ^ (f.mb + 1) then (2 ^ f.mb, q + 1) else (k, q)
    f.sign neg + (q + f.mb + f.bias).toNat * 2 ^ f.mb + (k - 2 ^ f.mb)

/-- Rounds to `sig` significant bits of a format's range, or to its subnormal grid, and encodes: bits and
FLAGS (03 R75; with fewer than the format's own bits, R83). -/
def Fmt.roundSig (f : Fmt) (sig : Nat) (v : FV) (mode : RMode) (sat : Bool) (rnd : Nat) : Nat × BitVec 16 :=
  match v with
  | .nan => (f.nan, 0)
  | .inf neg =>
    if sat then (f.maxFin neg, flSAT) else if f.hasInf then (f.inf neg, 0) else (f.nan, flNV)
  | .fin neg m e more =>
    if m = 0 then (f.sign neg, 0)
    else
      let p := e + Nat.log2 m
      let q := if p < f.emin then f.emin - f.mb else p - (sig - 1 : Nat)
      let (k, r, d) := cut m e q
      let inexact := r != 0 || more
      let k' := if inexact && goesUp mode neg k r d more rnd then k + 1 else k
      let fl := (if inexact then flNX else 0) ||| (if inexact && decide (p < f.emin) then flUF else 0)
      -- in units of the format's own last place
      let w := if p < f.emin then 0 else f.mb + 1 - sig
      let kk := k' * 2 ^ w
      let qq := q - w
      if f.emax - f.mb < qq || (qq == f.emax - f.mb && decide (f.maxK < kk)) then
        if sat then (f.maxFin neg, fl ||| flNX ||| flSAT)
        else
          let fl := fl ||| flNX ||| flOF
          if mode == .rtz || (mode == .rdn && !neg) || (mode == .rup && neg) then (f.maxFin neg, fl)
          else if f.hasInf then (f.inf neg, fl)
          else (f.nan, fl)
      else (f.encode neg kk qq, fl)

/-- round_to (03 R75). -/
def Fmt.round (f : Fmt) (v : FV) (mode : RMode) (sat : Bool) (rnd : Nat) : Nat × BitVec 16 :=
  f.roundSig (f.mb + 1) v mode sat rnd

/-- round_to FP32 by RNE, as the array, HGEMV and the reductions round (03 R71). -/
def rne32 (v : FV) : BitVec 32 × BitVec 16 :=
  let r := Fmt.f32.round v .rne false 0
  (BitVec.ofNat 32 r.1, r.2)

/-- Conversion to an integer of a range (03 R76). -/
def toInteger (lo hi : Int) (v : FV) (mode : RMode) (rnd : Nat) : Int × BitVec 16 :=
  match v with
  | .nan => (0, flNV)
  | .inf neg => (if neg then lo else hi, flNV)
  | .fin neg m e more =>
    let (k, r, d) := cut m e 0
    let inexact := r != 0 || more
    let k' : Nat := if inexact && goesUp mode neg k r d more rnd then k + 1 else k
    let i : Int := if neg then -(k' : Int) else k'
    if i < lo then (lo, flNV) else if hi < i then (hi, flNV) else (i, if inexact then flNX else 0)

/-! ### Exact arithmetic -/

/-- Product, and whether it is 0 × ∞. -/
def FV.mul (a b : FV) : FV × Bool :=
  match a, b with
  | .nan, _ | _, .nan => (.nan, false)
  | .inf n, b => if b.isZero then (.nan, true) else (.inf (n != b.neg), false)
  | a, .inf n => if a.isZero then (.nan, true) else (.inf (a.neg != n), false)
  | .fin n m e _, .fin n' m' e' _ => (.fin (n != n') (m * m') (e + e') false, false)

/-- Sum, and whether it is ∞ − ∞; an exact zero takes its sign by 03 R67. -/
def FV.add (down : Bool) (a b : FV) : FV × Bool :=
  match a, b with
  | .nan, _ | _, .nan => (.nan, false)
  | .inf n, .inf n' => if n = n' then (.inf n, false) else (.nan, true)
  | .inf n, _ => (.inf n, false)
  | _, .inf n => (.inf n, false)
  | .fin n m e _, .fin n' m' e' _ =>
    let lo := if e ≤ e' then e else e'
    let x : Int := (if n then -1 else 1) * (m * 2 ^ (e - lo).toNat : Nat)
    let y : Int := (if n' then -1 else 1) * (m' * 2 ^ (e' - lo).toNat : Nat)
    let z := x + y
    if z = 0 then (.fin (if m = 0 && m' = 0 && n == n' then n else down) 0 lo false, false)
    else (.fin (decide (z < 0)) z.natAbs lo false, false)

/-- Ordering of two values that are not NaN: less, −0 and +0 being equal. -/
def FV.lt (a b : FV) : Bool :=
  match a, b with
  | .nan, _ | _, .nan => false
  | .inf n, b => n && b != .inf true
  | _, .inf n => !n
  | .fin n m e _, .fin n' m' e' _ =>
    let lo := if e ≤ e' then e else e'
    let x : Int := (if n then -1 else 1) * (m * 2 ^ (e - lo).toNat : Nat)
    let y : Int := (if n' then -1 else 1) * (m' * 2 ^ (e' - lo).toNat : Nat)
    decide (x < y)

/-- Equality of two values, false for a NaN. -/
def FV.eq (a b : FV) : Bool := !a.isNan && !b.isNan && !a.lt b && !b.lt a

/-- A finite value divided by 2^e as an integer fixed-point number of `p` fraction bits, rounded down. -/
def fixed (p : Nat) (m : Nat) (e : Int) : Nat := if 0 ≤ e + p then m * 2 ^ (e + p).toNat else m / 2 ^ (-(e + p)).toNat

/-! ### Reciprocals (03 R83) -/

/-- 1 / x of a finite nonzero x: a quotient of at least 60 bits. -/
def recip (neg : Bool) (m : Nat) (e : Int) : FV :=
  .fin neg (2 ^ 100 / m) (-e - 100) (decide (2 ^ 100 % m ≠ 0))

/-- The integer square root, bit by bit from bit `i - 1`. -/
def isqrt (n : Nat) : Nat → Nat → Nat
  | 0, r => r
  | i + 1, r => isqrt n i (if (r + 2 ^ i) * (r + 2 ^ i) ≤ n then r + 2 ^ i else r)

/-- 1 / √x of a positive finite x. -/
def recipSqrt (m : Nat) (e : Int) : FV :=
  let (m, e) := if e % 2 = 0 then (m, e) else (2 * m, e - 1)
  let r := isqrt (2 ^ 160 / m) 81 0
  .fin false r (-(e / 2) - 80) (decide (r * r * m ≠ 2 ^ 160))

/-! ### Transcendental functions (08 R220; log 10) -/

/-- Fraction bits of the fixed-point work. -/
def tp : Nat := 320

/-- ln 2 with `tp` fraction bits. -/
def ln2 : Nat :=
  0xb17217f7d1cf79abc9e3b39803f2f6af40f343267298b62d8a0d175b8baafa2be7b876206debac98

/-- Sum of the exponential series from term `n`, whose value is `t`. -/
def expSeries (y : Nat) : Nat → Nat → Nat → Nat
  | 0, _, _ => 0
  | f + 1, n, t => t + expSeries y f (n + 1) (t * y / 2 ^ tp / n)

/-- e^y for y below 1, both with `tp` fraction bits. -/
def expFixed (y : Nat) : Nat := expSeries y 90 1 (2 ^ tp)

/-- 2^a of a finite a. -/
def exp2 (neg : Bool) (m : Nat) (e : Int) : FV :=
  if m = 0 then .fin false 1 0 false
  else if 10 < e + Nat.log2 m then (if neg then .fin false 1 (-1000) true else .fin false 1 1000 false)
  else
    let x := fixed tp m e
    let i : Int := (x / 2 ^ tp : Nat)
    let f := x % 2 ^ tp
    if f = 0 && !decide (e + Nat.log2 m < -(tp : Int)) then .fin false 1 (if neg then -i else i) false
    else if neg then .fin false (expFixed ((2 ^ tp - f) * ln2 / 2 ^ tp)) (-i - 1 - tp) true
    else .fin false (expFixed (f * ln2 / 2 ^ tp)) (i - tp) true

/-- `n` bits of log2 y for y in [1, 2) with `tp` fraction bits, by repeated squaring. -/
def logBits : Nat → Nat → Nat → Nat
  | 0, _, acc => acc
  | n + 1, y, acc =>
    let z := y * y / 2 ^ tp
    if z < 2 * 2 ^ tp then logBits n z (2 * acc) else logBits n (z / 2) (2 * acc + 1)

/-- log2 x of a positive finite x. -/
def log2v (m : Nat) (e : Int) : FV :=
  let p := Nat.log2 m
  let i : Int := e + p
  if m = 2 ^ p then fvInt i
  else
    let b := logBits 200 (m * 2 ^ (tp - p)) 0
    let v : Int := i * 2 ^ 200 + (b : Int)
    if 0 ≤ v then .fin false v.natAbs (-200) true else .fin true (v.natAbs - 1) (-200) true

/-- tanh x of a finite nonzero magnitude; below 2^−40 it lies under x by less than 2^−55 of a last place. -/
def tanhv (neg : Bool) (m : Nat) (e : Int) : FV :=
  let p := e + Nat.log2 m
  if p < -40 then .fin neg (m * 2 ^ 64 - 1) (e - 64) true
  else if 5 ≤ p then .fin neg (2 ^ 64 - 1) (-64) true
  else
    let y := 2 * fixed tp m e
    let n := y / ln2
    let x := expFixed (y - n * ln2) * 2 ^ n
    .fin neg ((x - 2 ^ tp) * 2 ^ tp / (x + 2 ^ tp)) (-(tp : Int)) true

end Sys2Proof.Machine
end

