-- ==== Sys2Proof/Machine/Topology.lean ====
section
/-! DEFINITION. Sites, logical numbers, levels and the physical address map (14). A core's number is
16 × site + 4 × CLU + CIX, a cluster's 4 × site + CLU. -/

namespace Sys2Proof.Machine

/-! ### Numbers of units -/

/-- Site of a core. -/
def coreSite (c : Nat) : Nat := c / 16
/-- Cluster of a core. -/
def coreClu (c : Nat) : Nat := c / 4
/-- CLU of a core (10 Table 10.2). -/
def coreCLU (c : Nat) : Nat := c / 4 % 4
/-- CIX of a core (10 Table 10.2). -/
def coreCIX (c : Nat) : Nat := c % 4
/-- Site of a cluster. -/
def cluSite (k : Nat) : Nat := k / 4

/-- Sites of the B-class chiplets, by stack number (14 Table 14.1, R323). -/
def stackSites : List Nat :=
  [1, 2, 3, 5, 6, 7, 10, 11, 12, 14, 15, 16, 18, 35, 36, 53, 54, 71, 90, 107, 108, 125, 126, 143, 180,
   197, 198, 215, 216, 233, 252, 269, 270, 287, 288, 305, 307, 308, 309, 311, 312, 313, 316, 317, 318,
   320, 321, 322]

/-- Sites of the link chiplets, by link number (14 Table 14.1, R323). -/
def linkSites : List Nat :=
  [4, 8, 13, 72, 89, 144, 161, 162, 179, 234, 251, 310, 314, 315, 319]

/-- Site of the Spine (14 R322). -/
def spineSite : Nat := 9

/-- Clusters of a chiplet by class (14 R324, 11 Table 11.1). -/
def cluCount (k : SiteKind) : Nat :=
  match k with
  | .mClass => 4
  | .bClass => 2
  | _ => 0

/-- Site record `n`. -/
def State.site (s : State) (n : Nat) : Site := tget (Site.reset n) s.sites n
/-- Core record `c`. -/
def State.core (s : State) (c : Nat) : Core := tget Core.blank s.cores c
/-- Cluster record `k`. -/
def State.clu (s : State) (k : Nat) : Cluster := tget Cluster.blank s.clusters k
/-- Chiplet record of a site. -/
def State.chip (s : State) (n : Nat) : Chiplet := tget Chiplet.blank s.chiplets n
/-- Partition record `p`. -/
def State.partn (s : State) (p : Nat) : Partition := tget Partition.blank s.parts p
/-- Context record of an ASID. -/
def State.ctx (s : State) (a : Nat) : Ctx := tget Ctx.blank s.ctxs a
/-- Clock region `r`. -/
def State.region (s : State) (r : Nat) : Region := tget Region.reset s.regions r

/-- Replaces a core record. -/
def State.setCore (s : State) (c : Nat) (k : Core) : State := { s with cores := tput s.cores c k }
/-- Changes a core record. -/
def State.modCore (s : State) (c : Nat) (f : Core → Core) : State := s.setCore c (f (s.core c))
/-- Changes a cluster record. -/
def State.modClu (s : State) (k : Nat) (f : Cluster → Cluster) : State :=
  { s with clusters := tput s.clusters k (f (s.clu k)) }
/-- Changes a chiplet record. -/
def State.modChip (s : State) (n : Nat) (f : Chiplet → Chiplet) : State :=
  { s with chiplets := tput s.chiplets n (f (s.chip n)) }
/-- Changes a site record. -/
def State.modSite (s : State) (n : Nat) (f : Site → Site) : State :=
  { s with sites := tput s.sites n (f (s.site n)) }
/-- Changes a context record. -/
def State.modCtx (s : State) (a : Nat) (f : Ctx → Ctx) : State := { s with ctxs := tput s.ctxs a (f (s.ctx a)) }
/-- Changes the Spine. -/
def State.modSpine (s : State) (f : Spine → Spine) : State := { s with spine := f s.spine }

/-- A cluster asks for power (18 R416). -/
def State.wake (s : State) (k : Nat) : State :=
  if (s.clu k).power == .gated then
    (s.modClu k fun u => { u with power := .asking }).modSpine fun z => { z with wakeQ := z.wakeQ ++ [k] }
  else s

/-! ### Logical numbers (14 R326, R327) -/

/-- A core that passed self-test, on a LIVE site. -/
def State.liveCore (s : State) (c : Nat) : Bool :=
  let t := s.site (coreSite c)
  t.st == .live && t.cores.getLsbD (c % 16)

/-- The live cores of a site, in logical order. -/
def State.siteCores (s : State) (n : Nat) : List Nat := (locsFrom (16 * n) 16).filter s.liveCore

/-- The live cores of a cluster, bit CIX for each (10 Table 10.2, LIVE). -/
def State.liveMask (s : State) (k : Nat) : Nat :=
  ((List.range 4).map fun i => if s.liveCore (4 * k + i) then 2 ^ i else 0).sum

/-- The partition of a site. -/
def State.partOf (s : State) (n : Nat) : Partition := s.partn (s.site n).part.toNat

/-- The core of a logical number in the partition of site `n`, when it is live. -/
def State.coreOfL (s : State) (n l : Nat) : Option Nat :=
  match (s.partOf n).cores[l]? with
  | some c => if s.liveCore c then some c else none
  | none => none

/-- The site of a logical chiplet in the partition of site `n`, when it is live. -/
def State.chipOfL (s : State) (n l : Nat) : Option Nat :=
  match (s.partOf n).chips[l]? with
  | some t => if (s.site t).st == .live then some t else none
  | none => none

/-- Whether a core is the pager core of its chiplet (11 R306). -/
def State.isPager (s : State) (c : Nat) : Bool := (s.chip (coreSite c)).pagerCore == (s.core c).lcore

/-- Donation of a core in bytes (07 Table 07.7). -/
def State.donation (s : State) (c : Nat) : Nat := wfld (s.core c).cfg 0 2 * 2 ^ 18

/-- CORECFG (07 Table 07.7). -/
def coreCfg (asid : Nat) (sec : Bool) (d : Nat) : Word :=
  toWord (2 ^ 29 + (if sec then 2 ^ 28 else 0) + asid % 4096 * 2 ^ 16 + d % 4)

/-- CTXV of CORECFG. -/
def Core.ctxv (k : Core) : Bool := k.cfg.getLsbD 29
/-- ASID of CORECFG. -/
def Core.asid (k : Core) : Nat := wfld k.cfg 16 12
/-- SEC of CORECFG. -/
def Core.sec (k : Core) : Bool := k.cfg.getLsbD 28

/-- A launch of a context by handle (18 R409). -/
def State.launch (s : State) (asid lh : Nat) : Launch := tget Launch.blank (s.ctx asid).launches lh

/-! ### Levels of GEOM and PART (10 Table 10.3) -/

/-- How many of a list lie below a number. -/
def rankIn (l : List Nat) (n : Nat) : Nat := (l.filter (· < n)).length

/-- The live cores of a list of logical chiplets. -/
def State.coresOfChips (s : State) (n : Nat) (chips : List Nat) : List Nat :=
  (chips.filterMap (s.chipOfL n)).flatMap s.siteCores

/-- Index and count of a level, for a strand of launch `lh` in slot `sl` of core `c` (10 Table 10.3). -/
def State.level (s : State) (c sl asid lh lv : Nat) : Nat × Nat :=
  let site := coreSite c
  let chips := (s.launch asid lh).chips
  match lv with
  | 0 => (sl, 64)
  | 1 =>
    let live := (locsFrom (4 * coreClu c) 4).filter s.liveCore
    (rankIn live c, live.length)
  | 2 =>
    let clus := (locsFrom (4 * site) 4).filter fun k => s.liveMask k != 0
    (rankIn clus (coreClu c), clus.length)
  | 3 => (rankIn chips (s.site site).lchip.toNat, chips.length)
  | 4 =>
    let cores := (s.coresOfChips site chips).map fun k => (s.core k).lcore.toNat
    (rankIn cores (s.core c).lcore.toNat, cores.length)
  | _ => (s.spine.modNum.toNat, s.spine.modules)

/-! ### Routes (14 Table 14.3) -/

/-- The ROUTE index of a site seen from a site: its logical number in the partition, a link or the Spine. -/
def State.routeIx (s : State) (src dst : Nat) : Nat :=
  match indexWhere (· == dst) (s.partOf src).chips 0 with
  | some i => i
  | none =>
    match indexWhere (· == dst) linkSites 0 with
    | some i => 304 + i
    | none => if dst = spineSite then 319 else 320

/-- The ROUTE entry of a site towards a site; an index that no unit has, or an entry not yet written, has
MODE 11 (14 R330). The Spine has no table: it reaches every site, and holds its incarnation (11 R309; log 40). -/
def State.route (s : State) (src dst : Nat) : Word :=
  if src = spineSite then toWord ((tget 0 s.spine.incs dst).toNat * 2 ^ 54)
  else tget (toWord (3 * 2 ^ 62)) (s.chip src).route (s.routeIx src dst)

/-- Whether a request from one site to another has a route (14 R332); a site reaches itself. -/
def State.routable (s : State) (src dst : Nat) : Bool := src == dst || wfld (s.route src dst) 62 2 != 3

/-- Chiplet hops by ROUTE. -/
def State.hops (s : State) (src dst : Nat) : Nat := if src = dst then 0 else wfld (s.route src dst) 48 6

/-! ### Locations -/

/-- Location of a byte of an HBM4E stack. -/
def locHbm (stack off : Nat) : Nat := stack * 2 ^ 36 + off
/-- Location of a byte of a core scratchpad. -/
def locCore (c off : Nat) : Nat := 2 ^ 64 + c * 2 ^ 24 + off
/-- Location of a byte of a cluster scratchpad. -/
def locClu (k off : Nat) : Nat := 2 * 2 ^ 64 + k * 2 ^ 24 + off
/-- Location of a byte of a chiplet scratchpad. -/
def locChip (n off : Nat) : Nat := 3 * 2 ^ 64 + n * 2 ^ 24 + off
/-- Location of a byte of the constant bank of a launch. -/
def locConst (asid lh off : Nat) : Nat := 4 * 2 ^ 64 + (asid * 2 ^ 32 + lh) * 512 + off

/-- Sizes of the scratchpads (06 Table 06.1). -/
def coreBytes : Nat := 0x180000
/-- Cluster scratchpad. -/
def cluBytes : Nat := 0x600000
/-- Chiplet scratchpad. -/
def chipBytes : Nat := 0xC00000

/-- Donor rank and group of a pool line (14 R337). -/
def poolPlace (l n : Nat) : Nat × Nat :=
  let g := n / l
  let x := round3 0 (toWord g) 0xD1B54A32D192ED03
  ((n % l + wfld x 32 32) % l, g)

/-- Donated bytes of each donor of a partition (14 R336). -/
def Partition.donated (p : Partition) : Nat := p.d.toNat * 2 ^ 18

/-- The location of a physical byte, none outside Table 14.5. -/
def State.physLoc (s : State) (pa : Nat) : Option Nat :=
  if pa < 0x24000000000 then some (locHbm (pa / 64 % 48) (64 * (pa / 64 / 48) + pa % 64))
  else if 2 ^ 52 ≤ pa ∧ pa < 2 ^ 52 + 48 * 2 ^ 36 then
    let off := (pa - 2 ^ 52) % 2 ^ 36
    if off < 48 * 2 ^ 30 then some (locHbm ((pa - 2 ^ 52) / 2 ^ 36) off) else none
  else if 2 ^ 54 ≤ pa ∧ pa < 2 ^ 54 + 64 * 2 ^ 42 then
    let p := s.partn ((pa - 2 ^ 54) / 2 ^ 42)
    let off := (pa - 2 ^ 54) % 2 ^ 42
    let l := p.donors.length
    if off < l * p.donated then
      let (k, g) := poolPlace l (off / 64)
      some (locCore (nth 0 p.donors k) (coreBytes - p.donated + 64 * g + off % 64))
    else none
  else none

/-- The space of a location: 0 HBM4E, 1 core, 2 cluster, 3 chiplet scratchpad, 4 constant bank. -/
def locTag (l : Nat) : Nat := l / 2 ^ 64

/-- The unit of a scratchpad location. -/
def locUnit (l : Nat) : Nat := l % 2 ^ 64 / 2 ^ 24

/-- Offset of a location within its unit. -/
def locOff (l : Nat) : Nat := if locTag l = 0 then l % 2 ^ 36 else l % 2 ^ 24

/-- The site that holds a location. -/
def locSite (l : Nat) : Nat :=
  match locTag l with
  | 0 => nth 0 stackSites (l / 2 ^ 36)
  | 1 => coreSite (locUnit l)
  | 2 => cluSite (locUnit l)
  | _ => locUnit l

/-- Whether a location lies in a core's donation to the wafer pool. -/
def State.isPool (s : State) (l : Nat) : Bool :=
  locTag l == 1 && decide (coreBytes - s.donation (locUnit l) ≤ locOff l)

/-! ### Worlds (18 R417) -/

/-- World of a cluster (CLUCFG.SEC, 10 Table 10.6). -/
def Cluster.sec (u : Cluster) : Bool := u.cfg.getLsbD 28

/-- The granule of a location of HBM4E: MiB n of stack s is granule 49,152 s + n (18 R417, R420; log 20). -/
def granuleOf (l : Nat) : Nat := l / 2 ^ 36 * 49152 + l % 2 ^ 36 / 2 ^ 20

/-- The world of the granule or the block that holds a location (18 R417). A constant bank is its launch's, and the donation of a
core that no context holds has the world of the page that maps it (log 20). -/
def State.worldOf (s : State) (l : Nat) : Option Bool :=
  match locTag l with
  | 0 => some ((tget 0 s.spine.worlds (granuleOf l / 64)).getLsbD (granuleOf l % 64))
  | 1 => if s.isPool l && !(s.core (locUnit l)).ctxv then none else some (s.core (locUnit l)).sec
  | 2 => some (s.clu (locUnit l)).sec
  | 3 => some (s.chip (locUnit l)).sec
  | _ => none

/-- Whether a location may be reached in a world. -/
def State.worldOk (s : State) (sec : Bool) (l : Nat) : Bool := (s.worldOf l).getD sec == sec

end Sys2Proof.Machine
end

