-- ==== Sys2Proof/Machine/Routes.lean ====
section
/-! DEFINITION. The grid of sites, the straight runs and the paths of routes, and the holes that they meet (14 R322, R325, R331). -/

namespace Sys2Proof.Machine

/-! ### The grid (14 R322) -/

/-- The neighbour of a site in a direction: 0 east, 1 north, 2 west, 3 south (14 Table 14.3). -/
def neighbour (n dir : Nat) : Option Nat :=
  let x := n % 18
  let y := n / 18
  match dir with
  | 0 => if x < 17 then some (n + 1) else none
  | 1 => if y < 17 then some (n + 18) else none
  | 2 => if 0 < x then some (n - 1) else none
  | _ => if 0 < y then some (n - 18) else none

/-- Bit of a direction in a nibble of failed edges, N E S W from high to low (14 Table 14.7). -/
def edgeBit (dir : Nat) : Nat :=
  match dir with
  | 0 => 2
  | 1 => 3
  | 2 => 0
  | _ => 1

/-- Whether an edge of a mesh works: neither of its sites marks it failed. Mesh 0 is XY, 1 is YX. -/
def State.edgeOk (s : State) (mesh n dir : Nat) : Bool :=
  match neighbour n dir with
  | none => false
  | some m =>
    !(s.site n).failedEdges.getLsbD (4 * mesh + edgeBit dir) &&
      !(s.site m).failedEdges.getLsbD (4 * mesh + edgeBit ((dir + 2) % 4))

/-- A site that routes may meet: LIVE; while a site is brought up, also TRAINED and ROUTED sites, which firmware enables
(14 R326, R331, R333; log 19). -/
def State.passable (s : State) (up : Bool) (n : Nat) : Bool :=
  match (s.site n).st with
  | .live => true
  | .trained | .routed => up
  | _ => false

/-! ### Paths (14 R331) -/

/-- Whether a straight run of hops meets no hole. -/
def State.straight (s : State) (up : Bool) (mesh dir : Nat) : Nat → Nat → Bool
  | 0, _ => true
  | len + 1, n =>
    match neighbour n dir with
    | none => false
    | some m => s.edgeOk mesh n dir && s.passable up m && s.straight up mesh dir len m

/-- The site after a straight run. -/
def runEnd (dir len n : Nat) : Nat :=
  match dir with
  | 0 => n + len
  | 1 => n + 18 * len
  | 2 => n - len
  | _ => n - 18 * len

/-- Directions and lengths along x and along y between two sites. -/
def legsOf (src dst : Nat) : (Nat × Nat) × (Nat × Nat) :=
  let (x, y, x', y') := (src % 18, src / 18, dst % 18, dst / 18)
  ((if x ≤ x' then 0 else 2, if x ≤ x' then x' - x else x - x'), (if y ≤ y' then 1 else 3, if y ≤ y' then y' - y else y - y'))

/-- Whether the XY path (mesh 0) or the YX path (mesh 1) meets no hole. -/
def State.meshOk (s : State) (up : Bool) (mesh src dst : Nat) : Bool :=
  let (h, v) := legsOf src dst
  let (p, q) := if mesh = 0 then (h, v) else (v, h)
  s.straight up mesh p.1 p.2 src && s.straight up mesh q.1 q.2 (runEnd p.1 p.2 src)

/-- Chiplet hops between two sites on a mesh path. -/
def gridHops (src dst : Nat) : Nat := (legsOf src dst).1.2 + (legsOf src dst).2.2

/-- Whether the legs of a gusset route, coded 32 × direction + length from bit 0, meet no hole; the count is that of the legs. -/
def State.legsOk (s : State) : Nat → Nat → Nat → Bool
  | 0, _, _ => true
  | k + 1, legs, n =>
    let dir := legs % 128 / 32
    let len := legs % 32
    s.straight false 0 dir len n && s.legsOk k (legs / 128) (runEnd dir len n)

/-- Whether the path of a route entry between two sites meets no hole: a packet that meets one is returned to its source (14 R325,
R334). The Spine and the link chiplets hold no table; what they send is taken to have a path. -/
def State.pathClear (s : State) (src dst : Nat) (route : Word) : Bool :=
  src == dst || src == spineSite || linkSites.contains src ||
    match wfld route 62 2 with
    | 0 => s.meshOk false 0 src dst
    | 1 => s.meshOk false 1 src dst
    | 2 => s.legsOk (wfld route 45 3) (wfld route 0 35) src
    | _ => false

/-- Whether the incarnation that a chiplet holds for another is not its present one (11 R309, R310). -/
def State.staleTo (s : State) (src dst : Nat) : Bool :=
  src != dst && wfld (s.route src dst) 54 8 != (s.site dst).inc.toNat

/-- What a request that leaves a site for another now meets. -/
inductive Way where
  | clear
  /-- a hole on its path returns it: it waits at its source (14 R325, R334) -/
  | hole
  /-- no route (14 R332), or another incarnation (11 R310) -/
  | lost (code : Code)
  deriving DecidableEq, Repr

/-- The way of a request by the entry that its source holds now. -/
def State.wayTo (s : State) (src dst : Nat) : Way :=
  if !s.routable src dst then .lost .unreachable
  else if !s.pathClear src dst (s.route src dst) then .hole
  else if s.staleTo src dst then .lost .stale
  else .clear

/-- Whether the path of a route entry between two sites runs over a site. -/
def crosses (src dst : Nat) (route : Word) (site : Nat) : Bool :=
  let run (dir len n : Nat) : List Nat := (List.range (len + 1)).map fun i => runEnd dir i n
  let (h, v) := legsOf src dst
  let straightRun (p q : Nat × Nat) : List Nat := run p.1 p.2 src ++ run q.1 q.2 (runEnd p.1 p.2 src)
  let gusset := (List.range (wfld route 45 3)).foldl (fun (r : List Nat × Nat) i =>
    let leg := wfld route (7 * i) 7
    (r.1 ++ run (leg / 32) (leg % 32) r.2, runEnd (leg / 32) (leg % 32) r.2)) ([], src)
  match wfld route 62 2 with
  | 0 => (straightRun h v).contains site
  | 1 => (straightRun v h).contains site
  | 2 => gusset.1.contains site
  | _ => false

end Sys2Proof.Machine
end

