-- ==== Sys2Proof/Machine/Access.lean ====
section
/-! DEFINITION. Translation (10 R277, R278; 14 R340, R341), the address windows (06 R143, R144), homes and
scopes (06 R147 to R149), and the checks of a memory access in their order (06 Table 06.5). -/

namespace Sys2Proof.Machine

/-! ### Page table entries (14 Table 14.6) -/

/-- A leaf as an access sees it: the physical address of its first byte and its attributes. -/
structure Page where
  pa : Nat
  ord : Ord
  sec : Bool
  x : Bool
  w : Bool
  r : Bool
  repl : Bool
  stackLocal : Bool
  deriving DecidableEq, Repr

/-- ORD of an entry; code 11 is not valid and never reaches this (14 Table 14.6). -/
def pteOrd (e : Word) : Ord :=
  match wfld e 7 2 with
  | 0 => .so
  | 1 => .rc
  | _ => .uo

/-- PA of an entry. -/
def ptePa (e : Word) : Nat := wfld e 16 39 * 2 ^ 16

/-- The leaf an entry describes. -/
def ptePage (e : Word) : Page where
  pa := ptePa e
  ord := pteOrd e
  sec := e.getLsbD 6
  x := e.getLsbD 4
  w := e.getLsbD 3
  r := e.getLsbD 2
  repl := e.getLsbD 9
  stackLocal := e.getLsbD 10

/-- Whether a physical address lies in a stack-local view. -/
def isLocalView (pa : Nat) : Bool := decide (2 ^ 52 ≤ pa) && decide (pa < 2 ^ 52 + 48 * 2 ^ 36)

/-- Whether every stack that a page at `pa` reaches, or its pool, lies in partition `pn` (14 R341). -/
def State.inPartition (s : State) (pn pa : Nat) : Bool :=
  let p := s.partn pn
  if isLocalView pa then p.chips.contains (nth 0 stackSites ((pa - 2 ^ 52) / 2 ^ 36))
  else if pa < 2 ^ 52 then stackSites.all p.chips.contains
  else decide ((pa - 2 ^ 54) / 2 ^ 42 = pn)

/-- Whether a leaf of a level is valid for a context of partition `pn` (14 R341). -/
def State.leafValid (s : State) (pn lvl : Nat) (e : Word) : Bool :=
  let size := if lvl = 1 then 2 ^ 29 else 2 ^ 16
  e.getLsbD 0 && !e.getLsbD 1 && decide (1 ≤ lvl) && decide (wfld e 7 2 ≠ 3) &&
    (lvl != 1 || wfld e 16 13 == 0) && e.getLsbD 10 == isLocalView (ptePa e) &&
    (s.physLoc (ptePa e)).isSome && (s.physLoc (ptePa e + size - 1)).isSome && s.inPartition pn (ptePa e) &&
    (!e.getLsbD 9 || e.getLsbD 10)

/-- Whether an entry of level 0 or 1 names a next table for a context of partition `pn` (14 R340, R341). -/
def State.nextValid (s : State) (pn : Nat) (e : Word) : Bool :=
  e.getLsbD 0 && e.getLsbD 1 && (s.physLoc (ptePa e)).isSome && s.inPartition pn (ptePa e)

/-- The entry of a table at a physical address, read at its home (15 R346). -/
def State.readPte (s : State) (table ix : Nat) : Word :=
  match s.physLoc (table + 8 * ix) with
  | some l => toWord (memVal s.mem (locsFrom l 8))
  | none => 0

/-- Index of a virtual address at a level (14 R340). -/
def vaIx (va : Word) (lvl : Nat) : Nat := wfld va (42 - 13 * lvl) 13

/-- The virtual address above the part that a table at `lvl` indexes. -/
def vaPre (va : Word) (lvl : Nat) : Nat := bitsOf va.toNat (42 - 13 * lvl) (13 * (lvl + 1))

/-- What a walk finds: the leaf and whether it maps 512 MiB, the non-leaf entries it read, and the sites that it read from. -/
structure WalkResult where
  leaf : Option (Bool × Word)
  read : List WalkEntry
  sites : List Nat
  deriving DecidableEq, Repr

/-- The site that holds an entry of a table. -/
def State.pteSite (s : State) (table ix : Nat) : List Nat := ((s.physLoc (table + 8 * ix)).map locSite).toList

/-- The non-leaf entry of a level, from the walk cache or from memory (10 R278), and where it was read. -/
def State.walkStep (s : State) (k pn : Nat) (asid : BitVec 12) (table : Nat) (va : Word) (lvl : Nat) :
    Word × List WalkEntry × List Nat :=
  match (s.clu k).walkCache.find? fun e => e.asid == asid && e.level == lvl && e.pre == vaPre va lvl with
  | some e => (e.pte, [], [])
  | none =>
    let e := s.readPte table (vaIx va lvl)
    (e, if s.nextValid pn e then [{ asid, level := lvl, pre := vaPre va lvl, pte := e }] else [], s.pteSite table (vaIx va lvl))

/-- A walk of the tables of an ASID (10 R278, 14 R340). -/
def State.walkTables (s : State) (k : Nat) (asid : BitVec 12) (va : Word) : WalkResult :=
  let root := tget 0 s.spine.asidRoot asid.toNat
  let pn := (s.ctx asid.toNat).part
  if !root.getLsbD 0 then { leaf := none, read := [], sites := [] }
  else
    let (e0, r0, n0) := s.walkStep k pn asid (ptePa root) va 0
    if !s.nextValid pn e0 then { leaf := none, read := [], sites := n0 }
    else
      let (e1, r1, n1) := s.walkStep k pn asid (ptePa e0) va 1
      if s.nextValid pn e1 then
        let e2 := s.readPte (ptePa e1) (vaIx va 2)
        { leaf := if s.leafValid pn 2 e2 then some (false, e2) else none, read := r0 ++ r1,
          sites := n0 ++ n1 ++ s.pteSite (ptePa e1) (vaIx va 2) }
      else { leaf := if s.leafValid pn 1 e1 then some (true, e1) else none, read := r0, sites := n0 ++ n1 }

/-! ### The cluster TLB (10 R277) -/

/-- Virtual page number of an entry of either size. -/
def vpOf (big : Bool) (va : Word) : Nat := va.toNat / (if big then 2 ^ 29 else 2 ^ 16)

/-- Set of a page of either size. -/
def setOf (big : Bool) (va : Word) : Nat := if big then wfld va 29 9 else wfld va 16 9

/-- Whether an entry serves an address of an ASID in a world. The world of an entry is that of the access
that walked it; the page's own SEC is checked after translation (log 12). -/
def TlbEntry.hits (e : TlbEntry) (asid : BitVec 12) (sec : Bool) (va : Word) : Bool :=
  (e.glob || e.asid == asid) && e.sec == sec && e.vp == vpOf e.big va

/-- The entry that serves an address. -/
def State.tlbFind (s : State) (k : Nat) (asid : BitVec 12) (sec : Bool) (va : Word) : Option TlbEntry :=
  (s.clu k).tlb.find? fun e => e.hits asid sec va

/-- Physical address of a byte through an entry. -/
def TlbEntry.phys (e : TlbEntry) (va : Word) : Nat :=
  if e.big then ptePa e.pte / 2 ^ 29 * 2 ^ 29 + va.toNat % 2 ^ 29 else ptePa e.pte + va.toNat % 2 ^ 16

/-- The three tree bits on the path to a way, each with the value that points away from it. -/
def plruPath (way : Nat) : List (Nat × Bool) :=
  let b2 := way / 4 % 2
  let b1 := way / 2 % 2
  [(0, b2 == 0), (1 + b2, b1 == 0), (3 + 2 * b2 + b1, way % 2 == 0)]

/-- Tree bits after a use of a way: the path points away from it (log 12). -/
def plruTouch (t : BitVec 7) (way : Nat) : BitVec 7 :=
  (plruPath way).foldl (fun t p => if p.2 then t ||| (1#7 <<< p.1) else t &&& ~~~(1#7 <<< p.1)) t

/-- The way the tree points to. -/
def plruVictim (t : BitVec 7) : Nat :=
  let b2 := (t.getLsbD 0).toNat
  let b1 := (t.getLsbD (1 + b2)).toNat
  4 * b2 + 2 * b1 + (t.getLsbD (3 + 2 * b2 + b1)).toNat

/-- Records a use of an entry. -/
def Cluster.touch (u : Cluster) (e : TlbEntry) : Cluster :=
  { u with plru := tput u.plru e.set (plruTouch (tget 0 u.plru e.set) e.way) }

/-- Enters a leaf, in a free way or in the one the tree points to (10 R277). -/
def Cluster.enter (u : Cluster) (asid : BitVec 12) (sec big : Bool) (va pte : Word) : Cluster :=
  let set := setOf big va
  let used := (u.tlb.filter fun e => e.set == set).map (·.way)
  let way := ((List.range 8).find? fun w => !used.contains w).getD (plruVictim (tget 0 u.plru set))
  let e : TlbEntry := { asid, glob := pte.getLsbD 5, sec, big, vp := vpOf big va, pte, set, way }
  { u with tlb := e :: u.tlb.filter fun f => !(f.set == set && f.way == way) }.touch e

/-! ### Windows (06 Table 06.1) -/

/-- Where an address leads: global memory, or a run of locations with the world of its block (18 R417). -/
inductive Win where
  | glob
  | direct (base : Nat) (konst sec : Bool)
  deriving DecidableEq, Repr

/-- A window of a size: every byte of the access lies in it, else ADDR SUB 0x03 at the first that does not. -/
def winSized (ea : Word) (off n size base : Nat) (konst sec : Bool) : Except (Nat × Word) Win :=
  if off + n ≤ size then .ok (.direct base konst sec)
  else .error (0x03, ea + toWord (size - off))

/-- Size of a core's scratchpad window (06 Table 06.1). -/
def State.coreWin (s : State) (c : Nat) : Nat := coreBytes - s.donation c

/-- Classifies `n` bytes at an address formed on core `c` by a strand of a launch (06 R143, R144; 11 R291 for
an engine, which also accepts window 0xF6 and refuses 0xF3). The error is the SUB and the address. -/
def State.window (s : State) (c asid lh : Nat) (sec eng : Bool) (ea : Word) (n : Nat) : Except (Nat × Word) Win :=
  let off := wfld ea 0 24
  let site := coreSite c
  let own := wfld ea 24 32 == 0
  match wfld ea 56 8 with
  | 0x00 =>
    if ea.getLsbD 55 then .error (0x01, ea)
    else if ea.toNat + n ≤ 2 ^ 55 then .ok .glob
    else .error (0x03, toWord (2 ^ 55))
  | 0xF0 => if own then winSized ea off n (s.coreWin c) (locCore c 0) false (s.core c).sec else .error (0x01, ea)
  | 0xF1 => if own then winSized ea off n cluBytes (locClu (coreClu c) 0) false (s.clu (coreClu c)).sec else .error (0x01, ea)
  | 0xF2 => if own then winSized ea off n chipBytes (locChip site 0) false (s.chip site).sec else .error (0x01, ea)
  | 0xF3 =>
    if own && !eng then winSized ea off n 512 (locConst asid lh 0) true sec else .error (0x01, ea)
  | 0xF4 =>
    if wfld ea 24 16 != 0 then .error (0x01, ea)
    else
      match s.coreOfL site (wfld ea 40 16) with
      | some k => winSized ea off n (s.coreWin k) (locCore k 0) false (s.core k).sec
      | none => .error (0x04, ea)
  | 0xF5 =>
    if wfld ea 24 16 != 0 then .error (0x01, ea)
    else
      match s.chipOfL site (wfld ea 40 16) with
      | some t => winSized ea off n chipBytes (locChip t 0) false (s.chip t).sec
      | none => .error (0x04, ea)
  | 0xF6 =>
    if !eng || wfld ea 24 16 != 0 then .error (0x01, ea)
    else
      match s.chipOfL site (wfld ea 42 14) with
      | some t =>
        let k := 4 * t + wfld ea 40 2
        if s.liveMask k = 0 then .error (0x04, ea)
        else winSized ea off n cluBytes (locClu k 0) false (s.clu k).sec
      | none => .error (0x04, ea)
  | _ => .error (0x01, ea)

/-! ### Homes and scopes (06 R147 to R149) -/

/-- Home atomic unit of a location (06 Table 06.3). -/
def State.homeOf (s : State) (l : Nat) : Home :=
  if locTag l = 1 && !s.isPool l then .port (locUnit l) else .unit (locSite l)

/-- Order of the scopes. -/
def scopeRank : Scope → Nat
  | .core => 0
  | .clu => 1
  | .chip => 2
  | .pkg => 3
  | .sys => 4

/-- Smallest scope of a location for a strand on core `c` (06 Table 06.3). -/
def State.minScope (s : State) (c l : Nat) : Scope :=
  if locSite l ≠ coreSite c then .pkg
  else
    match locTag l with
    | 1 =>
      if s.isPool l then .chip
      else if locUnit l = c then .core
      else if coreClu (locUnit l) = coreClu c then .clu
      else .chip
    | 2 => .clu
    | _ => .chip

/-- The lowest-numbered of some cores, the pager core of the chiplet excepted (06 R148). -/
def State.firstFree (s : State) (cores : List Nat) : Option Nat := cores.find? fun k => !s.isPager k

/-- Home core of a location (06 Table 06.3, R148); none when the chiplet has no core for it. A physical core that a rebind has left
without a logical number (14 R328) counts among the live cores of its chiplet (log 40). -/
def State.homeCore (s : State) (c l : Nat) : Option Nat :=
  let n := locSite l
  let free := s.firstFree (s.siteCores n)
  let orFree (k : Nat) : Option Nat := if s.isPager k then free else some k
  match locTag l with
  | 0 =>
    let cores := (s.siteCores n).filter fun k => !s.isPager k
    cores[locOff l / 64 % cores.length]?
  | 1 => orFree (locUnit l)
  | 2 =>
    match ((locsFrom (4 * locUnit l) 4).filter s.liveCore).head? with
    | some k => orFree k
    | none => free
  | 3 => free
  | _ => if s.isPager c then s.firstFree (s.siteCores (coreSite c)) else some c

/-! ### The checks of an access (06 Table 06.5) -/

/-- What a form needs (06 Table 06.6): permissions, alignment in bytes, scope. -/
structure Need where
  r : Bool
  w : Bool
  atomic : Bool
  align : Nat
  scope : Option Scope
  deriving DecidableEq, Repr

/-- A part of an access: its address, the location of each byte, the location that its page maps each to (another one where
a replica serves a read), and its page's attributes. -/
structure Piece where
  ea : Word
  locs : List Nat
  mapped : List Nat
  ord : Ord
  repl : Bool
  stackLocal : Bool
  entry : Option TlbEntry
  deriving DecidableEq, Repr

/-- A part that holds no byte. -/
def Piece.blank : Piece where
  ea := 0
  locs := []
  mapped := []
  ord := .rc
  repl := false
  stackLocal := false
  entry := none

/-- Whether a form accesses the bytes that it addresses: MIGRATE and a send only translate them (06 R173, 16 R364). -/
def Need.accesses (nd : Need) : Bool := nd.r || nd.w || nd.atomic

/-- Verdict of the checks. -/
inductive Acc where
  | fault (code : Code) (sub : Nat) (addr : Word)
  /-- the translation of this address is not in the TLB -/
  | miss (va : Word)
  | ok (ps : List Piece)
  deriving DecidableEq, Repr

/-- An access cut at the boundary of the naturally aligned unit of its size (06 R151): lengths in order. -/
def splitAt (ea : Word) (n : Nat) : List (Word × Nat) :=
  let r := n - ea.toNat % n
  if ea.toNat % n = 0 then [(ea, n)] else [(ea, r), (ea + toWord r, n - r)]

/-- Hops by ROUTE from a site to a compute chiplet; none without a route. The Spine and the link chiplets hold no table: for
them the entry of the chiplet towards them counts (log 40). -/
def State.readHops (s : State) (site dst : Nat) : Option Nat :=
  let (a, b) := if site = spineSite || linkSites.contains site then (dst, site) else (site, dst)
  if s.routable a b then some (s.hops a b) else none

/-- The replica that serves a read on a site: fewest hops of those that have a route, then the lowest stack (14 R342). -/
def State.nearest (s : State) (site : Nat) (reps : BitVec 48) (own : Nat) : Nat :=
  let st := (numsWhere 48 reps.getLsbD).filterMap fun k => (s.readHops site (nth 0 stackSites k)).map fun h => (k, h)
  let best := st.foldl (fun (b : Option (Nat × Nat)) k =>
    match b with
    | none => some k
    | some j => if k.2 < j.2 then some k else b) none
  (best.map Prod.fst).getD own

/-- Locations of `n` bytes at an address through an entry; a read of a replicated page goes to the nearest
replica (14 R342). -/
def State.entryLocs (s : State) (site : Nat) (rd : Bool) (e : TlbEntry) (va : Word) (n : Nat) : List Nat :=
  let p := ptePage e.pte
  (List.range n).map fun i =>
    let l := (s.physLoc (e.phys (va + toWord i))).getD 0
    if p.repl && rd then locHbm (s.nearest site (s.partOf site).repset (l / 2 ^ 36)) (l % 2 ^ 36) else l

/-- Locations of the other replicas of a byte of a replicated page. -/
def replicas (reps : BitVec 48) (l : Nat) : List Nat :=
  (numsWhere 48 reps.getLsbD).map fun k => locHbm k (l % 2 ^ 36)

/-- Locations that an access of `n` bytes through an entry reaches: a write of a replicated page reaches every replica. -/
def State.reachLocs (s : State) (site : Nat) (rd : Bool) (e : TlbEntry) (va : Word) (n : Nat) : List Nat :=
  let ls := s.entryLocs site rd e va n
  if (ptePage e.pte).repl && !rd then ls.flatMap (replicas (s.partOf site).repset) else ls

/-- Whether a page, or a granule or block that an access reaches through it, is of the other world (06 Table 06.5, 18 R417). -/
def State.foreign (s : State) (sec : Bool) (e : TlbEntry) (locs : List Nat) : Bool :=
  (ptePage e.pte).sec != sec || locs.any fun l => !s.worldOk sec l

/-- Whether a location lies in a line with an uncorrectable error (04 R109). -/
def State.bad (s : State) (l : Nat) : Bool := s.uncorr.contains (l / 64)

/-- Whether a chiplet's requests to a location carry an incarnation that its chiplet no longer has (11 R309, R310). -/
def State.staleLoc (s : State) (c l : Nat) : Bool :=
  let dst := locSite l
  locTag l != 4 && coreSite c != dst && wfld (s.route (coreSite c) dst) 54 8 != (s.site dst).inc.toNat

/-- The sites to which an access of a part sends requests: those of every replica for a write of a replicated page. -/
def State.pieceSites (s : State) (c : Nat) (nd : Need) (p : Piece) : List Nat :=
  let l := p.locs.headD 0
  if !nd.accesses || locTag l == 4 then []
  else if p.repl && nd.w then (replicas (s.partOf (coreSite c)).repset l).map locSite
  else [locSite l]

/-- Checks 7 and 8, and the route to the location (14 R332, 11 R310). The address reported is the lowest of the access in the
failing page. -/
def State.finishAcc (s : State) (c : Nat) (nd : Need) (ps : List Piece) : Acc :=
  let first (p : Piece) : Nat := p.locs.headD 0
  let start (p : Piece) : Word := ((ps.find? fun q => q.entry == p.entry).getD p).ea
  match nd.scope, ps.find? fun p => (nd.scope.map scopeRank).getD 9 < scopeRank (s.minScope c (first p)) with
  | some _, some p => .fault .scope 0 (start p)
  | _, _ =>
    match ps.find? fun p => (s.pieceSites c nd p).any fun n => !s.routable (coreSite c) n with
    | some p => .fault .unreachable 0 (start p)
    | none =>
      match ps.find? fun p => nd.r && s.staleLoc c (first p), ps.find? fun p => nd.r && p.locs.any s.bad with
      | some p, _ => .fault .stale 0 (start p)
      | none, some p => .fault .memUncorr 0 (start p)
      | none, none => .ok ps

/-- The checks of `n` bytes at `ea` (06 R154), for a strand of core `c`. -/
def State.access (s : State) (c : Nat) (asid : BitVec 12) (lh : Nat) (sec : Bool) (nd : Need) (ea : Word)
    (n : Nat) : Acc :=
  match s.window c asid.toNat lh sec false ea n with
  | .error (sub, a) => .fault .addr sub a
  | .ok w =>
    if ea.toNat % nd.align ≠ 0 then .fault .align 0 ea
    else
      match w with
      | .direct base konst wsec =>
        if wsec != sec then .fault .world 0 ea
        else if konst && (nd.w || nd.atomic) then .fault .prot 0x12 ea
        else
          s.finishAcc c nd ((splitAt ea n).map fun p =>
            { ea := p.1, locs := locsFrom (base + wfld p.1 0 24) p.2, mapped := locsFrom (base + wfld p.1 0 24) p.2, ord := .rc, repl := false,
              stackLocal := false, entry := none })
      | .glob =>
        let parts := splitAt ea n
        let k := coreClu c
        match parts.find? fun p => (s.tlbFind k asid sec p.1).isNone with
        | some p => .miss p.1
        | none =>
          let es := parts.filterMap fun p => (s.tlbFind k asid sec p.1).map fun e => (p.1, p.2, e)
          let pg (q : Word × Nat × TlbEntry) : Page := ptePage q.2.2.pte
          let other (q : Word × Nat × TlbEntry) : Bool := s.foreign sec q.2.2 (s.reachLocs (coreSite c) (!nd.w) q.2.2 q.1 q.2.1)
          match es.find? other, es.find? fun q => nd.r && !(pg q).r,
              es.find? fun q => nd.w && !(pg q).w, es.find? fun q => nd.atomic && (pg q).repl with
          | some q, _, _, _ => .fault .world 0 q.1
          | none, some q, _, _ => .fault .prot 0x10 q.1
          | none, none, some q, _ => .fault .prot 0x11 q.1
          | none, none, none, some q => .fault .prot 0x13 q.1
          | none, none, none, none =>
            match es.find? fun q => es.any fun r => (pg q).ord != (pg r).ord with
            | some q => .fault .orderMix 0 q.1
            | none =>
              s.finishAcc c nd (es.map fun q =>
                { ea := q.1, locs := s.entryLocs (coreSite c) (nd.r && !nd.w) q.2.2 q.1 q.2.1,
                  mapped := s.entryLocs (coreSite c) false q.2.2 q.1 q.2.1, ord := (pg q).ord,
                  repl := (pg q).repl, stackLocal := (pg q).stackLocal, entry := some q.2.2 })

/-- What a load needs. -/
def Need.load : Need := { r := true, w := false, atomic := false, align := 1, scope := none }
/-- What a store needs. -/
def Need.store : Need := { r := false, w := true, atomic := false, align := 1, scope := none }
/-- What an address for MIGRATE or a send needs: translation only. -/
def Need.none : Need := { r := false, w := false, atomic := false, align := 1, scope := .none }
/-- What an atomic or a rendezvous step of a size and a scope needs. -/
def Need.atom (n : Nat) (sc : Scope) : Need := { r := true, w := true, atomic := true, align := n, scope := some sc }
/-- What a WAITCHG of a size and a scope needs. -/
def Need.watch (n : Nat) (sc : Scope) : Need :=
  { r := true, w := false, atomic := true, align := n, scope := some sc }

end Sys2Proof.Machine
end

