-- ==== Sys2Proof/Machine/Ops.lean ====
section
/-! DEFINITION. The operations that the meanings share: strands in slots, counters and trace, watchpoints,
register writes, regions (04 R102 to R104), raising a fault, delivering it to a handler strand and returning
from it (04 R109 to R112, 05 R134), and the end of waits. -/

namespace Sys2Proof.Machine

/-! ### Strands -/

/-- The strand in a slot. -/
def State.strand? (s : State) (c sl : Nat) : Option Strand := tfind (s.core c).slots sl

/-- The strand in a slot, a blank one when the slot is free. -/
def State.strandAt (s : State) (c sl : Nat) : Strand := (s.strand? c sl).getD Strand.blank

/-- Puts a strand into a slot. -/
def State.putStrand (s : State) (c sl : Nat) (p : Strand) : State :=
  s.modCore c fun k => { k with slots := tput k.slots sl p }

/-- Changes the strand in a slot; a free slot stays free. -/
def State.modStrand (s : State) (c sl : Nat) (f : Strand → Strand) : State :=
  match s.strand? c sl with
  | some p => s.putStrand c sl (f p)
  | none => s

/-- The strand that executes. -/
def State.me (s : State) : Strand := s.strandAt s.cur.1 s.cur.2

/-- Changes the strand that executes. -/
def State.modMe (s : State) (f : Strand → Strand) : State := s.modStrand s.cur.1 s.cur.2 f

/-- The core that executes. -/
def State.myCore (s : State) : Core := s.core s.cur.1

/-- Changes the core that executes. -/
def State.modMyCore (s : State) (f : Core → Core) : State := s.modCore s.cur.1 f

/-- A fresh number. -/
def State.tick (s : State) : State := { s with fresh := s.fresh + 1 }

/-- TIME after some ns: of what the time unit has still to correct it takes no more than half of them, either way, so that TIME
never steps and never runs backwards (05 R141; log 5). -/
def Spine.advance (z : Spine) (ns : Nat) : Spine :=
  let part := max (-(ns / 2 : Int)) (min z.slew (ns / 2 : Int))
  { z with time := z.time + toWord (ns + part).toNat, slew := z.slew - part }

/-- The launch of a strand (04 R90, LH). -/
def State.launchOf (s : State) (p : Strand) : Launch := s.launch p.asid.toNat p.lh.toNat

/-- Job seed of a strand (03 R74). -/
def State.seed (s : State) (p : Strand) : Word := (s.launchOf p).seed

/-- The free slots: no strand stands in one, and no parked strand has taken it (07 R193). -/
def Core.freeSlots (k : Core) : List Nat :=
  (List.range 64).filter fun n => (tfind k.slots n).isNone && !k.park.any fun e => e.2.slot == some n

/-- The lowest free slot (07 R178). -/
def Core.freeSlot (k : Core) : Option Nat := k.freeSlots.head?

/-- The PC is always a multiple of 4: bits 1 and 0 of a value that becomes a PC are dropped (01 R19; log 33). -/
def pcOf (v : Word) : Word := v &&& ~~~3

/-- Whether a strand in this wait is WAITING in the sense of 04 Table 04.6; in the others its instruction is
still ISSUING: it retires when a reply returns, or goes on when a condition lets it. -/
def Wait.listed : Wait → Bool
  | .retry | .reply _ | .table _ => false
  | _ => true

/-- State code of SLOTST (07 Table 07.7). -/
def SState.code : SState → Nat
  | .ready => 1
  | .issuing => 2
  | .waiting w => if w.listed then 3 else 2
  | .kept _ => 3
  | .sleeping _ => 4
  | .faulted _ => 5

/-- Whether a strand is a handler strand (04 R101). -/
def Strand.handler (p : Strand) : Bool := p.kind == .message || p.kind == .handler

/-! ### Bytes written to memory -/

/-- Whether some writes replace every byte of a line. -/
def wholeLine (cells : List Host.Cell) (line : Nat) : Bool :=
  (locsFrom (64 * line) 64).all fun l => cells.any fun c => c.1 == l

/-- Bytes written to memory; a whole-line write corrects the line (04 R109). -/
def State.poke (s : State) (cells : List Host.Cell) : State :=
  { s with mem := memWrite s.mem cells, uncorr := s.uncorr.filter fun l => !wholeLine cells l }

/-! ### The places of strands -/

/-- Where a strand of a core stands: in a slot or in the park table. -/
inductive Place where
  | slot (n : Nat)
  | park (n : Nat)
  deriving DecidableEq, Repr

/-- The strands of a core that satisfy a predicate, those in slots first. -/
def Core.strandsWhere (k : Core) (p : Strand → Bool) : List (Place × Strand) :=
  (k.slots.filter fun e => p e.2).map (fun e => (.slot e.1, e.2)) ++
    (k.park.filter fun e => p e.2.strand).map (fun e => (.park e.1, e.2.strand))

/-- A strand of a core by the number an event names: a slot below 64, else a park entry. -/
def placeOf (n : Nat) : Place := if n < 64 then .slot n else .park (n - 64)

/-- The strand at a place. -/
def State.strandIn (s : State) (c : Nat) : Place → Option Strand
  | .slot n => s.strand? c n
  | .park n => (tfind (s.core c).park n).map (·.strand)

/-- The wait of a strand. -/
def Strand.wait? (p : Strand) : Option Wait :=
  match p.st with
  | .waiting w => some w
  | _ => none

/-- Changes a strand where it stands. A parked strand whose change leaves it READY or FAULTED becomes
restorable (07 R193). -/
def State.modPlace (s : State) (c : Nat) (pl : Place) (f : Strand → Strand) : State :=
  match pl with
  | .slot n => s.modStrand c n f
  | .park n =>
    match tfind (s.core c).park n with
    | none => s
    | some e =>
      let q := f e.strand
      let up : Bool := match q.st with | .waiting _ | .kept _ | .sleeping _ => false | _ => true
      let mark := if up && e.restorable.isNone then some s.fresh else e.restorable
      (s.modCore c fun k => { k with park := tput k.park n { e with strand := q, restorable := mark } }).tick

/-- The number that an event gives the place of a strand. -/
def Place.num : Place → Nat
  | .slot n => n
  | .park n => 64 + n

/-! ### Counters, trace and stops (19) -/

/-- Whether the core's counters count (19 R436). -/
def Core.counting (k : Core) : Bool := k.phase == .run && wfld k.dbg 4 2 != 2

/-- Adds to a performance counter (19 Table 19.5). -/
def State.count (s : State) (c n k : Nat) : State :=
  s.modCore c fun u => if u.counting then { u with perf := vset u.perf n (vget 0 u.perf n + toWord k) } else u

/-- What a trace record concerns. -/
structure TraceRec where
  type : Nat
  handler : Bool
  fused : Bool
  ret : Bool
  sid : Word
  pc : Word
  aux : Word
  deriving DecidableEq, Repr

/-- Writes a trace record to the ring of the context of core `c` (19 R433). A context whose TRCCFG names no
size from 10 to 24 has no trace buffer. A buffer is full when it has taken as many records as it holds since TRCPTR was last
written, and drops what comes then (log 15). -/
def State.trace (s : State) (c : Nat) (r : TraceRec) : State :=
  let k := s.core c
  let a := k.asid
  let x := s.ctx a
  let size := wfld x.trcCfg 8 5
  if !k.ctxv || size < 10 || 24 < size then s
  else
    let base := wfld x.trcCfg 16 39 * 2 ^ 16
    let flags := r.handler.toNat + 2 * r.fused.toNat + 4 * r.ret.toNat + 8 * x.trcMark.toNat
    let v := r.type + 256 * (flags + 256 * (k.lcore.toNat + 2 ^ 16 * (k.cc.toNat % 2 ^ 32 + 2 ^ 32 *
      (r.sid.toNat + 2 ^ 64 * (r.pc.toNat + 2 ^ 64 * r.aux.toNat)))))
    let pa := base + 32 * (x.trcWritten.toNat % 2 ^ size)
    match s.physLoc pa, s.physLoc (pa + 31), decide (x.trcWritten.toNat < 2 ^ size) with
    | some _, some _, true =>
      let locs := (List.range 32).map fun i => (s.physLoc (pa + i)).getD 0
      (s.poke (cellsOf locs v)).modCtx a fun x => { x with trcWritten := x.trcWritten + 1, trcMark := false }
    | _, _, _ => s.modCtx a fun x => { x with trcLost := x.trcLost + 1, trcMark := true }

/-- Every strand that a core holds, with its slot where it stands in one. -/
def Core.located (k : Core) : List (Option Nat × Strand) :=
  k.slots.map (fun e => (some e.1, e.2)) ++ k.holders.map (fun e => (none, e.2.2)) ++ k.park.map (fun e => (none, e.2.strand)) ++
    k.migQ.map (fun p => (none, p)) ++ k.spillQ.filterMap fun i => match i with | .mig p => some (none, p) | .msg _ => none

/-- Every strand that a core holds, wherever it stands. -/
def Core.allStrands (k : Core) : List Strand := k.located.map (·.2)

/-- Changes the strands of a core, wherever they stand. -/
def Core.mapStrands (k : Core) (f : Option Nat → Strand → Strand) : Core :=
  { k with slots := k.slots.map fun e => (e.1, f (some e.1) e.2),
           holders := k.holders.map fun e => (e.1, e.2.1, f none e.2.2),
           park := k.park.map fun e => (e.1, { e.2 with strand := f none e.2.strand }), migQ := k.migQ.map (f none),
           spillQ := k.spillQ.map fun i => match i with | .mig p => .mig (f none p) | .msg m => .msg m }

/-- The trace record of a strand stop (19 Table 19.4). -/
def Strand.stopRec (p : Strand) : TraceRec :=
  { type := 5, handler := p.handler, fused := false, ret := false, sid := p.sid, pc := p.pc, aux := 0 }

/-- Stops the strands of a core that satisfy a predicate, wherever they stand, each at its next boundary and with its trace record
(19 R424, Table 19.4). -/
def State.stopWhere (s : State) (c : Nat) (hit : Option Nat → Strand → Bool) : State :=
  ((s.core c).located.filter fun e => hit e.1 e.2 && !e.2.stopped).foldl (fun s e => s.trace c e.2.stopRec)
    (s.modCore c fun k => k.mapStrands fun n p => if hit n p then { p with stopped := true } else p)

/-- Stops the strand in a slot. -/
def State.stopStrand (s : State) (c sl : Nat) : State := s.stopWhere c fun n _ => n == some sl

/-- Sets DBGCFG.DST of a core (19 Table 19.6). -/
def Core.setDst (k : Core) (d : Nat) : Core :=
  { k with dbg := k.dbg &&& ~~~(0x30 : Word) ||| toWord (d * 16) }

/-- The holder of the strand that faulted in a slot. -/
def Core.holderOf (k : Core) (sl : Nat) : Option (Nat × Strand) :=
  (k.holders.find? fun e => e.2.1 == sl).map fun e => (e.1, e.2.2)

/-- Whether a core stop lets the strand in a slot run on: a message handler, or the fault handler of one (19 R425). -/
def Core.runsOn (k : Core) (sl : Nat) (p : Strand) : Bool :=
  p.kind == .message || (p.kind == .handler && ((k.holderOf sl).map fun h => h.2.kind == .message).getD false)

/-- Whether a message handler of the core is not yet GONE and not stopped, wherever it stands. -/
def Core.handling (k : Core) : Bool := k.allStrands.any fun p => p.kind == .message && !p.stopped

/-- STOPPING becomes STOPPED when no running message handler remains (19 R425). -/
def State.settleStop (s : State) (c : Nat) : State :=
  let k := s.core c
  if wfld k.dbg 4 2 = 1 && !k.handling then
    (s.setCore c (k.setDst 2)).trace c
      { type := 5, handler := false, fused := false, ret := false, sid := 0, pc := 0, aux := 1 }
  else s

/-- A core stop (19 R425): every strand that is not a running message handler stops. One that meets a core outside RUN
takes effect when the core is back in RUN (19 R426). -/
def State.stopCore (s : State) (c : Nat) : State :=
  let k := s.core c
  if k.phase != .run then s.modCore c fun k => { k with stopAsks := k.stopAsks ++ [.core] }
  else
  let s := if wfld k.dbg 4 2 = 0 then s.setCore c (k.setDst 1) else s
  (s.stopWhere c fun n p => match n with | some sl => !k.runsOn sl p | none => p.kind != .message).settleStop c

/-- A FORCE (19 R425): the message handlers that a core stop lets run on stop at their boundaries. Outside RUN it takes effect
when the core is back in RUN (19 R426). -/
def State.forceCore (s : State) (c : Nat) : State :=
  let k := s.core c
  if k.phase != .run then s.modCore c fun k => { k with stopAsks := k.stopAsks ++ [.force] }
  else if wfld k.dbg 4 2 = 1 then (s.stopWhere c fun _ _ => true).settleStop c
  else s

/-- The strand with a number stops at its next boundary, wherever its core holds it (19 R424, R432). -/
def State.stopOwn (s : State) (c own : Nat) : State := (s.stopWhere c fun _ p => p.own == own).settleStop c

/-- A strand stop (19 R424): the strands of a core with a SID stop, those too whose migration has not been accepted. Outside RUN it
takes effect when the core is back in RUN (19 R426). -/
def State.stopSid (s : State) (c : Nat) (sid : Word) : State :=
  if (s.core c).phase != .run then s.modCore c fun k => { k with stopAsks := k.stopAsks ++ [.strand sid] }
  else
    let mine (m : MigOp) : Bool := m.src == c && m.strand.sid == sid && m.strand.asid.toNat == (s.core c).asid
    let t := (s.migs.filter fun m => mine m && !m.strand.stopped).foldl (fun s m => s.trace c m.strand.stopRec)
      { s with migs := mapWhere mine (fun m => { m with strand := { m.strand with stopped := true } }) s.migs }
    (t.stopWhere c fun _ p => p.sid == sid).settleStop c

/-- A watchpoint of a core fires: it counts, traces and acts on the strand that made the access or owns the operation, by its
core and number (19 R430, R432). -/
def State.fire (s : State) (c i : Nat) (who : Option (Nat × Nat)) (sid pc : Word) (path : Nat) (what : Word) : State :=
  let w := vget { ctl := 0, val := 0, hit := 0 } (s.core c).wp i
  let s := s.modCore c fun k => { k with wp := vset k.wp i { w with hit := w.hit + 1 } }
  let act := wfld w.ctl 60 2
  let s :=
    if act = 0 then s
    else
      let strand := who.bind fun w => (s.core w.1).slots.find? fun e => e.2.own == w.2
      s.trace c { type := 4, handler := (strand.map fun e => e.2.handler).getD false, fused := false, ret := false, sid, pc,
                  aux := toWord (wfld w.ctl 62 2 * 2 ^ 62 + i * 2 ^ 60 + path * 2 ^ 56) ||| what }
  match act, who with
  | 2, some w => s.stopOwn w.1 w.2
  | 3, _ => s.stopCore c
  | _, _ => s

/-- Fires every watchpoint of a core whose setting satisfies a predicate, in ascending order (19 R432). -/
def State.fireAll (s : State) (c : Nat) (p : WatchPt → Bool) (who : Option (Nat × Nat)) (sid pc : Word) (path : Nat)
    (what : Word) : State :=
  (List.range 4).foldl (fun s i =>
    if p (vget { ctl := 0, val := 0, hit := 0 } (s.core c).wp i) then s.fire c i who sid pc path what else s) s

/-- Range watchpoints of the cores whose scratchpads hold some of the locations that an access reads or writes (19 R431); a
record names the first of them (log 42). -/
def State.watchRange (s : State) (wr : Bool) (locs : List Nat) (who : Option (Nat × Nat)) (sid pc : Word) (path : Nat) :
    State :=
  let hits := locs.filter fun l => locTag l == 1
  (hits.map locUnit).dedup.foldl (fun (s : State) c =>
    let mine := hits.filter fun l => locUnit l == c
    let hit (w : WatchPt) : Bool :=
      wfld w.ctl 62 2 == 1 && (if wr then w.ctl.getLsbD 58 else w.ctl.getLsbD 59) &&
        mine.any fun l => decide (wfld w.ctl 0 24 ≤ locOff l) &&
          decide (locOff l < wfld w.ctl 0 24 + wfld w.val 0 25)
    s.fireAll c hit who sid pc path (toWord (locOff (mine.headD 0)))) s

/-- The trace record of a step that reports a state code (19 Table 19.4). -/
def Strand.stepRec (p : Strand) (code : Nat) : TraceRec :=
  { type := 6, handler := p.handler, fused := false, ret := false, sid := p.sid, pc := p.pc, aux := toWord code }

/-- A step of the strand at a place reports: the strand stops again at its boundary (19 R428). -/
def State.reportAt (s : State) (c : Nat) (pl : Place) : State :=
  match s.strandIn c pl with
  | some p =>
    if p.stepping then
      let s := s.modPlace c pl fun p => { p with stepping := false, stopped := true, stepWait := p.wait?.isSome }
      State.trace { s with events := s.events ++ [.stepped c pl.num (BitVec.ofNat 3 p.st.code)] } c (p.stepRec p.st.code)
    else s
  | none => s

/-- That of the strand in a slot. -/
def State.reportStep (s : State) (c sl : Nat) : State := s.reportAt c (.slot sl)

/-- A step of a strand that has left its slot, GONE or with a migration, reports (19 R428). -/
def State.reportGone (s : State) (c sl : Nat) (p : Strand) : State :=
  if p.stepping then State.trace { s with events := s.events ++ [.stepped c sl 0] } c (p.stepRec 0) else s

/-! ### Register writes -/

/-- Writes a g register of a strand (04 R90); a number above 15 names none. A load that was still to deliver to the register
delivers no more: its write is the earlier one. -/
def Strand.setG (p : Strand) (n : Nat) (v : Word) : Strand := { p with g := vset p.g n v, board := tdel p.board n }

/-- Reads a g register. -/
def Strand.getG (p : Strand) (n : Nat) : Word := vget 0 p.g n

/-- Register watchpoints on a g register of a strand (19 R431). -/
def State.watchGAt (s : State) (c : Nat) (pl : Place) (n : Nat) : State :=
  match s.strandIn c pl with
  | some p =>
    s.fireAll c (fun w => wfld w.ctl 62 2 == 3 && !w.ctl.getLsbD 59 && wfld w.ctl 0 4 == n &&
      wfld w.val 0 32 == wfld p.sid 0 32) (some (c, p.own)) p.sid p.pc 0 (toWord n)
  | none => s

/-- Those on a g register of the strand in a slot. -/
def State.watchG (s : State) (c sl n : Nat) : State := s.watchGAt c (.slot sl) n

/-- Writes a g register of the strand that executes. -/
def State.setG (s : State) (n : Nat) (v : Word) : State :=
  (s.modMe fun p => p.setG n v).watchG s.cur.1 s.cur.2 n

/-- Writes the g destination of an instruction; with no destination nothing is written (01 R24). -/
def State.setD (s : State) (d : Dst) (v : Word) : State :=
  match d with
  | .g n => s.setG n.toNat v
  | _ => s

/-- Physical register of an allotment index (07 R184). -/
def Strand.phys (p : Strand) (i : Nat) : Nat := 6 * nth 0 p.rows (i / 6) + i % 6

/-- Valid allotment indices (07 R188). -/
def Strand.nreg (p : Strand) : Nat := Nat.min (6 * p.rows.length) 64

/-- The content of a physical register. -/
def Core.vreg (k : Core) (n : Nat) : VReg := tget 0 k.vrf n

/-- ATAB of an index (07 R189). Beside a fault holder it shows the list of the handler, which stands in the slot (log 34). -/
def Core.atab (k : Core) (i : Nat) : Nat :=
  let rows := ((tfind k.slots (i / 2)).map (·.rows)).getD []
  let part := if i % 2 = 0 then rows.take 8 else (rows.drop 8).take 3
  leNat (part.map fun r => BitVec.ofNat 8 r)

/-- Empties every latch that holds a physical register (07 R186). -/
def Core.dropLatch (k : Core) (n : Nat) : Core :=
  { k with slots := k.slots.map fun e =>
      (e.1, { e.2 with latches := e.2.latches.map fun x => if x == some n then none else x }) }

/-- Writes a physical register: the latches that hold it empty (07 R186). -/
def Core.setV (k : Core) (n : Nat) (v : VReg) : Core := { k.dropLatch n with vrf := tput k.vrf n v }

/-- Register watchpoints on a physical register (19 R431). -/
def State.watchV (s : State) (c sl n : Nat) : State :=
  let p := s.strandAt c sl
  s.fireAll c (fun w => wfld w.ctl 62 2 == 3 && w.ctl.getLsbD 59 && wfld w.ctl 0 9 == n) (some (c, p.own)) p.sid p.pc 0
    (toWord n)

/-- The mask register `n`; m0 reads 0xFFFF (01 R27). -/
def Core.mask (k : Core) (n : Nat) : BitVec 16 := if n = 0 then 0xFFFF else vget 0 k.masks n

/-! ### Regions (04 R102 to R104) -/

/-- The checkpoint of a strand as it stands (04 Table 04.1). -/
def Strand.snapshot (p : Strand) : Checkpoint where
  pc := p.pc
  fcnt := p.fcnt
  g := p.g
  flags := p.flags
  rmode := p.rmode
  amax := p.amax
  draw := p.draw
  sdig := p.sdig
  streams := p.streams.map fun b => { b with ahead := [] }
  board := p.board
  vboard := p.vboard
  vregs := []
  masks := []
  seq := p.nextSeq

/-- Takes a new checkpoint. -/
def Strand.checkpoint (p : Strand) : Strand :=
  { p with ckpt := p.snapshot, ckptDue := false, retired := 0, firstStore := none }

/-- The store digest after one store (17 R390). -/
def foldStore (d ea : Word) (n : Nat) (v : BitVec 128) : Word :=
  let x := round3 d ea 0x9B4E27D16A53C8F7
  let x := round3 x (toWord n) 0xD2C6814BF07A3E95
  let x := round3 x (v.setWidth 64) 0xA85F3C17D69E2B4D
  if n = 16 then round3 x (v.extractLsb' 64 64) 0xA85F3C17D69E2B4D else x

/-- The youngest byte that the stores of an open region before a program-order number give a location (04 R102). -/
def regionByte (l : List BufStore) (seq loc : Nat) : Option Byte :=
  l.foldl (fun r b =>
    if seq ≤ b.seq then r else match b.cells.find? fun c => c.1 == loc with | some c => some c.2 | none => r) none

/-- The part of a load that memory has not yet performed takes now the bytes that the strand's own region gives it and that the
commit drops for younger ones (04 R102, 15 R350): those that a store after the load replaces. -/
def RUnit.keepOwn (u : RUnit) (region : List BufStore) (seq : Nat) : RUnit :=
  { u with cells := (u.cells.zip u.mapped).map fun c =>
      let newer (b : BufStore) : Bool := decide (seq ≤ b.seq) && b.cells.any fun x => x.1 == c.2
      match c.1.2 with
      | some b => (c.1.1, some b)
      | none => (c.1.1, if region.any newer then regionByte region seq c.2 else none) }

/-- The same for a load. -/
def LoadOp.keepOwn (l : LoadOp) (region : List BufStore) : LoadOp :=
  { l with parts := l.parts.map fun u => u.keepOwn region l.seq }

/-- The stores of a region with the bytes that a later store of the region replaces left out (15 R350). -/
def mergeRegion : List BufStore → List BufStore
  | [] => []
  | b :: l => { b with cells := b.cells.filter fun c => !(l.any fun d => d.cells.any fun e => e.1 == c.1) } ::
      mergeRegion l

/-- Hands one write of a strand to memory (15 R344). -/
def State.handOver (s : State) (c sl : Nat) (rel : Bool) (b : BufStore) : State :=
  let p := s.strandAt c sl
  if b.cells.isEmpty then s
  else
    let u : WriteUnit :=
      { id := s.fresh, core := c, slot := sl, own := p.own, sid := p.sid, seq := b.seq, rel, ord := b.ord, cells := b.cells,
        repl := b.repl, locked := false, reps := (s.partOf (coreSite c)).repset, pc := b.pc,
        route := s.route (coreSite c) (locSite ((b.cells.headD (0, 0)).1)), agent := none, after := p.nextSeq, sent := s.fresh,
        va := b.ea }
    State.watchRange (State.tick { s with writes := s.writes ++ [u] }) true (b.cells.map Prod.fst) (some (c, p.own)) p.sid b.pc 0

/-- Commits the open region of a strand (04 R103): every store is folded into SDIG in program order, the
merged bytes go to memory, and the next instruction takes a new checkpoint. An instruction that goes on after a wait at its issue
has counted its commit already (19 R436). -/
def State.commitRegion (s : State) (c sl : Nat) : State :=
  match s.strand? c sl with
  | none => s
  | some p =>
    let sdig := p.region.foldl (fun d b => if b.n = 0 then d else foldStore d b.ea b.n b.val) p.sdig
    let s := s.putStrand c sl
      { p with sdig, region := [], retired := 0, firstStore := none, mustCommit := false, ckptDue := true }
    let s := if p.ckptDue || p.st == .waiting .retry then s else s.count c 11 1
    if p.region.isEmpty then s
    else
      let keep (l : LoadOp) : LoadOp := l.keepOwn p.region
      (mergeRegion p.region).foldl (fun s b => s.handOver c sl false b)
        { s with loads := mapWhere (fun l => l.core == c && l.own == p.own) keep s.loads }

/-- Commits the region of the strand that executes. -/
def State.commit (s : State) : State := s.commitRegion s.cur.1 s.cur.2

/-- Commits before an instruction whose own store or register write opens the next region: the checkpoint
is taken at that instruction (04 R103). -/
def State.commitHere (s : State) : State := s.commit.modMe Strand.checkpoint

/-- Aborts the region of a strand (04 R104): its buffered stores are discarded, its unread loads are made
again, and every item of the checkpoint is restored, each g register with its watchpoints (19 R431; log 42). -/
def State.abortRegion (s : State) (c sl : Nat) : State :=
  match s.strand? c sl with
  | none => s
  | some p =>
    if p.ckptDue then s
    else
      let k := p.ckpt
      let q : Strand :=
        { p with pc := k.pc, g := k.g, flags := k.flags, rmode := k.rmode, amax := k.amax, draw := k.draw,
                 sdig := k.sdig, streams := k.streams, board := k.board, vboard := k.vboard, region := [], retired := 0, firstStore := none,
                 mustCommit := false, ckptDue := true }
      let s := s.putStrand c sl q
      let s := { s with loads := s.loads.filter fun l =>
        !(l.core == c && l.own == p.own && decide (k.seq ≤ l.seq)) }
      let s := (List.range 16).foldl (fun s n => s.watchG c sl n) s
      let s := k.vregs.foldl (fun s e => (s.modCore c fun u => u.setV e.1 e.2).watchV c sl e.1) s
      let s := s.modCore c fun u => { u with masks := k.masks.foldl (fun m e => vset m e.1 e.2) u.masks }
      s.count c 12 1

/-- Undo copies held by the open region. -/
def Strand.undoCount (p : Strand) : Nat := p.ckpt.vregs.length + p.ckpt.masks.length

/-- Before the first write of a physical register in the region, its content is kept; a write to a 17th
register commits the region before it (04 R103). -/
def State.undoV (s : State) (n : Nat) : State :=
  let p := s.me
  if p.ckptDue || (tfind p.ckpt.vregs n).isSome then s
  else
    let s := if 16 ≤ p.undoCount then s.commitHere else s
    let old := s.myCore.vreg n
    s.modMe fun p => { p with ckpt := { p.ckpt with vregs := tput p.ckpt.vregs n old } }

/-- The same for a mask register. -/
def State.undoM (s : State) (n : Nat) : State :=
  let p := s.me
  if p.ckptDue || n == 0 || (tfind p.ckpt.masks n).isSome then s
  else
    let s := if 16 ≤ p.undoCount then s.commitHere else s
    let old := s.myCore.mask n
    s.modMe fun p => { p with ckpt := { p.ckpt with masks := tput p.ckpt.masks n old } }

/-- No load delivers any more to the listed bytes of an allotment register. -/
def Strand.overBytes (p : Strand) (i : Nat) (bytes : List Nat) : Strand :=
  { p with vboard := bytes.foldl (fun t n => tdel t (64 * i + n)) p.vboard }

/-- Writes the listed bytes of allotment register `i` of the strand that executes (07 R184): `v` is the whole register, and a
load that was still to deliver to one of them delivers no more. -/
def State.setV (s : State) (i : Nat) (bytes : List Nat) (v : VReg) : State :=
  let n := s.me.phys i
  ((s.modMyCore fun k => k.setV n v).modMe fun p => p.overBytes i bytes).watchV s.cur.1 s.cur.2 n

/-- Writes a mask register; m0 discards the write (01 R27, 07 R194). -/
def State.setM (s : State) (n : Nat) (v : BitVec 16) : State :=
  if n = 0 then s else s.modMyCore fun k => { k with masks := vset k.masks n v }

/-! ### Retirement -/

/-- Bytes of the instruction a word identity stands for (01 Table 01.1). -/
def WordId.bytes (w : WordId) : Nat :=
  match w.len.toNat with
  | 0 => 8
  | 1 => 12
  | _ => 16

/-- A strand whose instruction has retired, at a given PC. -/
def Strand.retireTo (p : Strand) (pc : Word) : Strand :=
  { p with pc, st := .ready, retired := p.retired + 1, heldSince := none }

/-- A strand whose instruction has retired. -/
def Strand.retire (p : Strand) : Strand := p.retireTo (p.pc + toWord p.word.bytes)

/-- Stream positions after an instruction that named the allotment registers `used` (08 R230). -/
def Strand.consume (p : Strand) (used : List Nat) : Strand :=
  { p with streams := p.streams.map fun b =>
      if used.contains b.reg then { b with pos := b.pos + 1, ahead := b.ahead.drop 1 } else b }

/-- The instruction of the strand that executes retires at a given PC. -/
def State.retireTo (s : State) (pc : Word) : State :=
  ((s.modMe fun p => p.retireTo pc).count s.cur.1 2 1).reportStep s.cur.1 s.cur.2

/-- The instruction of the strand that executes retires. -/
def State.retire (s : State) : State := s.retireTo (s.me.pc + toWord s.me.word.bytes)

/-- An ordered operation of a strand counts (04 R94). -/
def Strand.countOp (p : Strand) : Strand := { p with sord := p.sord + 1 }

/-! ### Waits (04 R99, R100; 08 R234 for the order in which they are served) -/

/-- The strand that executes waits for a reply: its instruction has not retired. -/
def State.await (s : State) (w : Wait) : State :=
  (s.modMe fun p => { p with st := .waiting w, waitNo := s.fresh }).tick

/-- The strand that executes waits in a wait instruction; a step reports it WAITING (19 R428). -/
def State.wait (s : State) (w : Wait) : State := (s.await w).reportStep s.cur.1 s.cur.2

/-- The wait of a strand ends: its instruction retires with a value for its destination. -/
def Strand.endWait (p : Strand) (d : Dst) (v : Word) : Strand :=
  (match d with | .g n => p.setG n.toNat v | _ => p).retire

/-- The waiting strand becomes READY and re-executes its instruction. -/
def Strand.again (p : Strand) : Strand := { p with st := .ready }

/-- A wait of a core ends for a strand: a value for its destination, and retirement. -/
def State.endWait (s : State) (c : Nat) (pl : Place) (d : Dst) (v : Word) : State :=
  let s := s.modPlace c pl fun p => p.endWait d v
  let s := match d with | .g r => s.watchGAt c pl r.toNat | _ => s
  (s.count c 2 1).reportAt c pl

/-- Strands of a core that wait to re-execute for a reason leave the wait (04 R100). -/
def State.retryWhere (s : State) (c : Nat) (p : Wait → Bool) : State :=
  ((s.core c).strandsWhere fun t => (t.wait?.map p).getD false).foldl
    (fun s e => s.modPlace c e.1 Strand.again) s

/-! ### Faults (04 R109 to R112) -/

/-- Code of a fault (04 Table 04.9). -/
def Code.num : Code → Nat
  | .illegalOpcode => 0x01
  | .illegalEncoding => 0x02
  | .fetchStraddle => 0x03
  | .regAllot => 0x04
  | .align => 0x05
  | .addr => 0x06
  | .orderMix => 0x07
  | .xlate => 0x08
  | .prot => 0x09
  | .world => 0x0A
  | .scope => 0x0B
  | .handlerWait => 0x0C
  | .migrateState => 0x0D
  | .gangAbort => 0x0E
  | .engine => 0x0F
  | .memUncorr => 0x10
  | .stacklocal => 0x11
  | .unreachable => 0x12
  | .stale => 0x13
  | .replayDiverge => 0x14
  | .brk => 0x15
  | .trap => 0x16

/-- The cause word (04 Table 04.11). -/
def FaultRec.cause (f : FaultRec) : Word :=
  toWord (f.word.maj.toNat * 2 ^ 56 + f.word.fn.toNat * 2 ^ 50 + f.word.len.toNat * 2 ^ 48 + f.sub.toNat * 2 ^ 32 +
    f.deferred.toNat * 2 ^ 8 + f.code.num)

/-- A strand becomes FAULTED and waits for a holder in the order in which faults were raised (04 R112). -/
def State.faultAt (s : State) (c sl : Nat) (f : FaultRec) : State :=
  ((s.modStrand c sl fun p => { p with st := .faulted f, walk := none }).modCore c fun k =>
    { k with faultQ := k.faultQ ++ [sl] }).reportStep c sl

/-- The fault of a strand wherever it stands: in its slot it queues for a holder; a parked strand becomes
restorable and queues when it is back. -/
def State.faultPlace (s : State) (c : Nat) (pl : Place) (f : FaultRec) : State :=
  match pl with
  | .slot n => s.faultAt c n f
  | .park _ => s.modPlace c pl fun p => { p with st := .faulted f }

/-- Whether a strand has a deferred fault to take. -/
def Core.owesFault (k : Core) (p : Strand) : Bool := k.deferred.any fun d => d.own == p.own

/-- Whether a deferred fault may be raised at a strand now: at its boundary, or in AWAIT or MWAIT (04 Table 04.7). The region of a
stopped strand stays open, so that it takes none (19 R424). -/
def Strand.takesDeferred (p : Strand) : Bool :=
  match p.st with
  | .ready => p.walk.isNone && !p.stopped
  | .waiting (.seq _ _ _) => !p.stopped
  | _ => false

/-- The oldest deferred fault of a strand is raised at it, its region first committed (04 R103, R109); a strand that
cannot take one now keeps it. -/
def State.takeDeferred (s : State) (c : Nat) (pl : Place) (p : Strand) : State :=
  match (s.core c).deferred.find? fun d => d.own == p.own with
  | some d =>
    if p.takesDeferred then
      let s := match pl with | .slot n => s.commitRegion c n | .park _ => s
      (s.modCore c fun k => { k with deferred := k.deferred.erase d }).faultPlace c pl d.f
    else s
  | none => s

/-- Raises a precise fault at the instruction of the strand that executes, at a given word (04 R103, R109). -/
def State.raiseAt (s : State) (w : WordId) (code : Code) (sub : Nat) (addr : Word) : State :=
  let s := s.commit
  s.faultAt s.cur.1 s.cur.2
    { code, sub := BitVec.ofNat 8 sub, deferred := false, word := w, pc := s.me.pc, addr }

/-- Raises a precise fault at the instruction of the strand that executes. -/
def State.raise (s : State) (code : Code) (sub : Nat) (addr : Word) : State := s.raiseAt s.me.word code sub addr

/-- Code of a page request's kind (11 Table 11.5). -/
def ReqKind.num : ReqKind → Nat
  | .fetch => 0
  | .load => 1
  | .store => 2
  | .engine => 3

/-- The record of a page request (11 Table 11.5). -/
def PageReq.record (r : PageReq) : Nat :=
  r.va.toNat + 2 ^ 64 * (r.sid.toNat + 2 ^ 64 *
    ((r.lcore.toNat * 2 ^ 16 + r.slot * 2 ^ 10 + r.kind.num * 2 ^ 8 + r.ticket.toNat) + 2 ^ 32 *
      ((r.asid.toNat * 2 ^ 20 + r.sec.toNat * 2 ^ 19) + 2 ^ 32 * (r.tag % 2 ^ 32))))

/-- The oldest queued page request goes to a strand of the pager core that waits for one (11 R307): of several, which no rule orders,
to that of the lowest slot, then of the lowest park entry (log 25). -/
def State.servePager (s : State) (site : Nat) : State :=
  let h := s.chip site
  match h.pagerQ, (s.partOf site).cores[h.pagerCore.toNat]? with
  | r :: rest, some c =>
    match (s.core c).strandsWhere fun t => match t.wait? with | some (.page _ _) => true | _ => false with
    | (pl, t) :: _ =>
      match t.wait? with
      | some (.page d a) =>
        let cells := cellsOf (locsFrom (locCore c (wfld a 0 24)) 32) r.record
        let s := (s.poke cells).watchRange true (cells.map Prod.fst) (some (c, t.own)) t.sid t.pc 0
        let s := s.modChip site fun h => { h with pagerQ := rest, pagerPend := h.pagerPend ++ [r] }
        s.endWait c pl d (toWord (r.tag % 2 ^ 32))
      | _ => s
    | [] => s
  | _, _ => s

/-- Sends a page request to the pager core of a chiplet (11 R306). -/
def State.pageRequest (s : State) (site : Nat) (r : PageReq) : State :=
  (s.modChip site fun h => { h with pagerQ := h.pagerQ ++ [{ r with tag := h.nextTag }], nextTag := h.nextTag + 1
    }).servePager site

/-- XLATE of a strand (04 R104, R110): its region aborts; it sleeps on a page request, or, with PAGER
privilege, faults. `w` is zero when a fetch took it (01 R40). -/
def State.xlate (s : State) (c sl : Nat) (kind : ReqKind) (va : Word) (w : WordId) : State :=
  let p := s.strandAt c sl
  let s := (s.modStrand c sl fun p => { p with walk := none }).abortRegion c sl
  if p.pager then s.faultAt c sl { code := .xlate, sub := 0, deferred := false, word := w, pc := p.pc, addr := va }
  else
    let site := coreSite c
    let tag := (s.chip site).nextTag
    let s := (s.modStrand c sl fun p => { p with st := .sleeping { tag, va, word := w } }).reportStep c sl
    s.pageRequest site
      { tag := 0, va, sid := p.sid, core := c, lcore := (s.core c).lcore, slot := sl, kind, ticket := 0,
        asid := p.asid, sec := p.sec, op := none }

/-- A miss joins the walk of its page or starts one (10 R278); the number of the walk. -/
def State.joinWalk (s : State) (k : Nat) (asid : BitVec 12) (sec : Bool) (va : Word) (w : Nat × Nat × ReqKind × Word) :
    State × Nat :=
  let s := s.modClu k fun u => { u with misses := u.misses + 1 }
  match (s.clu k).walks.find? fun w => w.asid == asid && w.sec == sec && w.va.toNat / 2 ^ 16 == va.toNat / 2 ^ 16 with
  | some x =>
    let join (x : Walk) : Walk := { x with waiters := x.waiters ++ [w] }
    (s.modClu k fun u => { u with walks := mapWhere (fun y => y.id == x.id) join u.walks }, x.id)
  | none => ((s.modClu k fun u => { u with walks := u.walks ++ [{ id := s.fresh, asid, sec, va, waiters := [w] }] }).tick, s.fresh)

/-- A translation that the TLB does not hold: the strand joins a walk of the page or starts one (10 R278). During the walk of a
fetch no instruction of it has issued, and it is READY and not eligible (07 R179); during that of an access its instruction is
still ISSUING (04 Table 04.7). -/
def State.startWalk (s : State) (c sl : Nat) (kind : ReqKind) (va : Word) : State :=
  let p := s.strandAt c sl
  let r := s.joinWalk (coreClu c) p.asid p.sec va (c, sl, kind, va)
  r.1.modStrand c sl fun p => { p with st := if kind == .fetch then .ready else .issuing, walk := some r.2 }

/-- Records the use of the TLB entries of an access. -/
def State.touch (s : State) (ps : List Piece) : State :=
  ps.foldl (fun s p => match p.entry with | some e => s.modClu (coreClu s.cur.1) (·.touch e) | none => s) s

/-- An access of the strand that executes: its checks, then `go` with its pieces; a fault is raised, and a
translation that is not held is walked (06 R154). -/
def State.withAccess (s : State) (kind : ReqKind) (nd : Need) (ea : Word) (n : Nat)
    (go : List Piece → State → State) : State :=
  let p := s.me
  match s.access s.cur.1 p.asid p.lh.toNat p.sec nd ea n with
  | .fault code sub a => s.raise code sub a
  | .miss va => s.startWalk s.cur.1 s.cur.2 kind va
  | .ok ps => go ps (s.touch ps)

/-- SWORD with the fault count (04 Table 04.2). -/
def Strand.sword (p : Strand) (sl : Nat) : Word :=
  let kind := match p.kind with | .launched => 0 | .spawned => 1 | .message => 2 | .handler => 3
  toWord (p.asid.toNat * 2 ^ 52 + p.fcnt.toNat * 2 ^ 32 + sl % 64 * 2 ^ 24 + (!p.region.isEmpty).toNat * 2 ^ 7 +
    kind * 2 ^ 5 + p.sec.toNat * 2 ^ 4 + p.pager.toNat * 2 + p.sup.toNat)

/-- The hash of strand identities (04 R95). -/
def sidmix (a b : Word) : Nat :=
  (round3 (round3 0 a 0xB7E45A19C3D28F61) b 0xE5A73C914B6D0F2B).toNat % 2 ^ 62

/-- The handler strand of a faulted strand (04 R98, R111): Table 04.10. -/
def State.handlerStrand (s : State) (p : Strand) (sl : Nat) (f : FaultRec) : Strand :=
  let n := p.fcnt + 1
  let mixed := toWord (p.fcnt.toNat * 2 ^ 32) ||| p.sord.setWidth 64
  let h : Strand :=
    { Strand.blank with
      pc := pcOf (s.launchOf p).fault, asid := p.asid, kind := .handler, sec := p.sec, pager := p.pager, sup := p.sup,
      sid := toWord (3 * 2 ^ 62 + sidmix p.sid mixed), lidx := p.lidx, lh := p.lh }
  ((((h.setG 0 p.sid).setG 1 f.cause).setG 2 f.pc).setG 3 f.addr).setG 4 (toWord (n.toNat * 2 ^ 16 + sl))

/-- Taking a fault (04 R111, R112): FCNT counts it, the faulted strand moves into a free holder, and the
handler strand starts in its slot. -/
def State.takeFault (s : State) (c sl h : Nat) (p : Strand) (f : FaultRec) : State :=
  let hand := { s.handlerStrand p sl f with own := s.fresh + 1 }
  s.tick.modCore c fun k =>
    { k with slots := tput k.slots sl hand, holders := tput k.holders h (sl, { p with fcnt := p.fcnt + 1 }),
             faultQ := k.faultQ.filter fun n => n != sl }

/-- Returning from a fault (05 R134): the faulted strand comes back to its slot as READY at `t`, with the g
registers that the mask selects taken from the handler. -/
def State.returnFault (s : State) (c sl : Nat) (t : Word) (mask : BitVec 16) : State :=
  match (s.core c).holderOf sl with
  | none => s
  | some (h, p) =>
    let hand := s.strandAt c sl
    let g := (List.range 16).foldl (fun g i => if mask.getLsbD i then vset g i (hand.getG i) else g) p.g
    let back : Strand := { p with g, pc := t, st := .ready, ckptDue := true, latches := [none, none, none], age := 0 }
    (numsWhere 16 mask.getLsbD).foldl (fun s n => s.watchG c sl n)
      (s.modCore c fun k => { k with slots := tput k.slots sl back, holders := tdel k.holders h })

/-! ### What reaches a core that is not in RUN (07 R202, Table 07.9) -/

/-- The location of byte `o` of the save area at SAVEA, a physical address (07 R200). -/
def State.areaAt (s : State) (savea : Word) (o : Nat) : Option Nat := s.physLoc (savea.toNat + o)

/-- Locations of `n` bytes of the save area at SAVEA from byte `o` on. -/
def State.areaFrom (s : State) (savea : Word) (o n : Nat) : List Nat := (List.range n).filterMap fun i => s.areaAt savea (o + i)

/-- Bytes of the save area whose layout the manual does not give take free values (log 8). -/
def State.putFree (s : State) (savea : Word) (o n : Nat) : State :=
  let cells := ((s.areaFrom savea o n).zip (List.range n)).map fun e => (e.1, (Config.freeWord (s.fresh + e.2)).setWidth 8)
  { s with mem := memWrite s.mem cells, fresh := s.fresh + n }

/-- A reply for a strand of a core that is not in RUN is written to its reply area (07 R202). -/
def State.putReply (s : State) (c : Nat) (r : ReplyItem) : State :=
  (s.putFree (s.core c).savea (0x9000 + 16 * (s.core c).replies.length) 16).modCore c fun k => { k with replies := k.replies ++ [r] }

end Sys2Proof.Machine
end

