-- ==== Sys2Proof/Machine/Operands.lean ====
section
/-! DEFINITION. Operand values (01 R24 to R30), vector lanes (08 R205, R206), stream operands (08 R230),
effective addresses (01 R33, R34), and what every instruction does before its own effect (01 R38, steps 7 to 9). -/

namespace Sys2Proof

/-! ### Numbers that operands name -/

/-- Number of a g register that a source names. -/
def Src.gNum : Src → Nat
  | .g n => n.toNat
  | _ => 0

/-- Number a destination names. -/
def Dst.ix : Dst → Nat
  | .none => 0
  | .g n | .v n | .m n => n.toNat

/-- Whether the numbers of a source exist (01 R25). -/
def Src.inFile (nreg : Nat) : Src → Bool
  | .g n => decide (n.toNat < 16)
  | .v n => decide (n.toNat < nreg)
  | _ => true

/-- Whether the number of a destination exists (01 R24). -/
def Dst.inFile (nreg : Nat) : Dst → Bool
  | .g n => decide (n.toNat < 16)
  | .v n => decide (n.toNat < nreg)
  | .m n => decide (n.toNat < 8)
  | .none => true

/-- Step 8 of 01 R38. -/
def Ops.regsExist (o : Ops) (nreg : Nat) : Bool :=
  o.d.inFile nreg && o.a.inFile nreg && o.b.inFile nreg && o.c.inFile nreg

/-- Allotment registers that the source slots name, each once. -/
def Ops.vsrcs (o : Ops) : List Nat :=
  ([o.a, o.b, o.c].filterMap fun x => match x with | .v n => some n.toNat | _ => none).dedup

end Sys2Proof

namespace Sys2Proof.Machine

/-! ### Scalar operands -/

/-- Entry `n` of the constant bank of the strand's launch (01 R28). -/
def State.konst (s : State) (n : Nat) : Word :=
  toWord (memVal s.mem (locsFrom (locConst s.me.asid.toNat s.me.lh.toNat (8 * n)) 8))

/-- A 64-bit operand; literals are sign-extended (01 R29, R30). -/
def State.val (s : State) : Src → Word
  | .none => 0
  | .g n => s.me.getG n.toNat
  | .v _ => 0
  | .k n => s.konst n.toNat
  | .l6 x => x.signExtend 64
  | .l32 x => x.signExtend 64
  | .l64 x => x

/-- An operand whose literals are zero-extended (05 R119). -/
def State.valZ (s : State) (x : Src) : Word :=
  match x with
  | .l6 y => y.setWidth 64
  | .l32 y => y.setWidth 64
  | _ => s.val x

/-- The pair of g registers from an even one, its low half first (02 R50). -/
def State.pair (s : State) (x : Src) : BitVec 128 :=
  match x with
  | .g n => s.me.getG (n.toNat + 1) ++ s.me.getG n.toNat
  | _ => 0

/-- An FP32 operand from a scalar: a 6-bit literal stands for its integer value (01 R30). -/
def State.valF (s : State) (x : Src) : BitVec 32 :=
  match x with
  | .l6 y => (rne32 (fvInt y.toInt)).1
  | _ => (s.val x).setWidth 32

/-! ### Effective addresses -/

/-- The effective address of a load or a store (01 R33). -/
def State.ea (s : State) (x : MemX) (o : Ops) : Word :=
  s.val o.a + s.val o.c <<< x.shift.toNat + x.off.signExtend 64

/-- The effective address of an atomic, a WAITCHG or a rendezvous (01 R34, 06 R166). -/
def State.syncEa (s : State) (t : SyncX) (o : Ops) : Word := s.val o.a + t.off.signExtend 64

/-- The target of a PC-relative transfer (01 R36). -/
def State.target (s : State) (off : BitVec 32) : Word := s.me.pc + off.signExtend 64 * 4

/-! ### Vector lanes -/

/-- Lane `i` of a register (08 R205). -/
def lane (v : VReg) (i : Nat) : BitVec 32 := v.extractLsb' (32 * i) 32

/-- A register from its lanes. -/
def ofLanes (f : Nat → BitVec 32) : VReg :=
  BitVec.ofNat 512 (((List.range 16).map fun i => (f i).toNat * 2 ^ (32 * i)).sum)

/-- Element `e` of `w` bits of a register (08 R205). -/
def elem (w : Nat) (v : VReg) (e : Nat) : Nat := bitsOf v.toNat (w * e) w

/-- A register with element `e` of `w` bits replaced. -/
def setElem (w : Nat) (v : VReg) (e x : Nat) : VReg :=
  BitVec.ofNat 512 (v.toNat - elem w v e * 2 ^ (w * e) + x % 2 ^ w * 2 ^ (w * e))

/-- A register whose enabled lanes take new content (08 R206). -/
def mergeLanes (mk : BitVec 16) (old : VReg) (f : Nat → BitVec 32) : VReg :=
  ofLanes fun i => if mk.getLsbD i then f i else lane old i

/-- The enabled lanes, ascending. -/
def enabled (mk : BitVec 16) : List Nat := numsWhere 16 mk.getLsbD

/-- The bytes of some lanes. -/
def laneBytes (lanes : List Nat) : List Nat := lanes.flatMap fun i => locsFrom (4 * i) 4

/-- The bytes of a register that element `e` of `w` bits lies in. -/
def elemBytes (w e : Nat) : List Nat := locsFrom (w * e / 8) ((w + 7) / 8)

/-! ### Streams -/

/-- The binding of an allotment register. -/
def Strand.stream? (p : Strand) (i : Nat) : Option Stream := p.streams.find? fun b => b.reg == i

/-- The youngest write of a strand to a location, before a program-order number, that is handed over and not performed. -/
def State.pending? (s : State) (own seq loc : Nat) : Option WriteUnit :=
  (s.writes.filter fun u => u.own == own && decide (u.seq < seq) && u.cells.any fun c => c.1 == loc).getLast?

/-- The byte of its own that a strand's load with a program-order number reads: the youngest buffered one (04 R102), else
that of an ST.rel not yet performed (06 R152). -/
def State.ownByte (s : State) (p : Strand) (seq loc : Nat) : Option Byte :=
  match regionByte p.region seq loc with
  | some b => some b
  | none =>
    match s.pending? p.own seq loc with
    | some u => if u.rel then (u.cells.find? fun c => c.1 == loc).map (·.2) else none
    | none => none

/-- The checks of element number `j` of a stream of a strand on core `c`; a read at the end of the stream fails
(08 R230), and reports the address that the element would have, where the spec names none (DESIGN CHOICE, log 22). -/
def State.elementAcc (s : State) (c : Nat) (p : Strand) (b : Stream) (j : Nat) : Acc :=
  let ea := b.base + b.stride * toWord j
  if b.count ≤ j then .fault .addr 0x05 ea else s.access c p.asid p.lh.toNat p.sec Need.load ea 64

/-- Whether an element may be read ahead now: no write of the strand to it is on its way, and no LD.acq of the strand is
unread (06 R152). -/
def State.mayReadAhead (s : State) (p : Strand) (x : Piece) : Bool :=
  let stuck (l : Nat) : Bool :=
    match s.pending? p.own p.nextSeq l with
    | some u => !u.rel
    | none => false
  !x.mapped.any stuck && !(s.loads.any fun l => l.own == p.own && l.acq && l.parts.any fun u => u.cells.any fun c => c.2.isNone)

/-- The next element of a stream that is read ahead of its position, up to eight (08 R231): a plain 64-byte load of the strand
(08 R230), with the locations read. -/
def State.readElement (s : State) (c : Nat) (p : Strand) (b : Stream) : Option (VReg × List Nat) :=
  if 8 ≤ b.ahead.length then none
  else
    match s.elementAcc c p b (b.pos + b.ahead.length) with
    | .ok (x :: _) =>
      if s.mayReadAhead p x then
        let byte (l : Nat × Nat) : Byte := (s.ownByte p p.nextSeq l.2).getD (memGet s.mem l.1)
        some (BitVec.ofNat 512 (leNat ((x.locs.zip x.mapped).map byte)), x.locs)
      else none
    | _ => none

/-- The element of a bound register that the next instruction reads. -/
def Stream.next (b : Stream) : VReg := b.ahead.headD 0

/-- The content of allotment register `i` as an operand (08 R230, 07 R184). -/
def State.readV (s : State) (i : Nat) : VReg :=
  match s.me.stream? i with
  | some b => b.next
  | none => s.myCore.vreg (s.me.phys i)

/-- An integer vector operand: a register, or a scalar broadcast to every lane (01 R30). -/
def State.vec (s : State) : Src → VReg
  | .v n => s.readV n.toNat
  | x => ofLanes fun _ => (s.val x).setWidth 32

/-- An FP32 vector operand. -/
def State.vecF (s : State) : Src → VReg
  | .v n => s.readV n.toNat
  | x => ofLanes fun _ => s.valF x

/-- The mask that the instruction selects (01 R27). -/
def State.maskOf (s : State) (o : Ops) : BitVec 16 := s.myCore.mask o.m.toNat

/-- The physical register each hold latch keeps after an instruction (07 R186). -/
def Strand.latched (p : Strand) (o : Ops) : List (Option Nat) :=
  [o.a, o.b, o.c].map fun x =>
    match x with
    | .v n => if (p.stream? n.toNat).isSome then none else some (p.phys n.toNat)
    | _ => none

/-! ### The start of an instruction -/

/-- LEN of a length (01 Table 01.1). -/
def lenCode (l : Len) : BitVec 2 :=
  match l with
  | .w64 => 0
  | .w96 => 1
  | .w128 => 2

/-- Enters an instruction: its MAJ, FN and LEN are kept for cause words (01 R40), and a checkpoint that is
due is taken (04 R103). -/
def State.startInstr (s : State) (maj fn : Nat) (len : Len) : State :=
  s.modMe fun p =>
    let p := { p with word := { maj := BitVec.ofNat 8 maj, fn := BitVec.ofNat 6 fn, len := lenCode len } }
    if p.ckptDue then p.checkpoint else p

/-- What the stream operands of an instruction do to it: nothing, a fault, or a wait for an element. -/
inductive StreamUse where
  | ready
  | absent
  | fault (code : Code) (sub : Nat) (addr : Word)
  deriving DecidableEq, Repr

/-- Checks the stream operands named in the source slots (08 R230, R232). -/
def State.streamUse (s : State) (c : Nat) (p : Strand) : List Nat → StreamUse
  | [] => .ready
  | i :: l =>
    match p.stream? i with
    | none => s.streamUse c p l
    | some b =>
      if b.ahead.isEmpty then
        match s.elementAcc c p b b.pos with
        | .fault code x a => .fault code x a
        | _ => .absent
      else s.streamUse c p l

/-- Whether the destination is a v register bound to a stream (08 R230). -/
def Strand.writesBound (p : Strand) : Dst → Bool
  | .v n => (p.stream? n.toNat).isSome
  | _ => false

/-- The instruction of the strand that executes goes on later: the strand stays ISSUING (04 Table 04.7). -/
def State.again (s : State) : State := s.modMe fun p => { p with st := .issuing }

/-- An instruction: step 8 of 01 R38, then its own effect. -/
def State.instr (s : State) (maj fn : Nat) (o : Ops) (body : State → State) : State :=
  let s := s.startInstr maj fn o.len
  if o.regsExist s.me.nreg then body (s.modMe fun p => { p with latches := p.latched o })
  else s.raise .regAllot 0 0

/-- An instruction that may read streams; `wr` when it writes its destination register. REG_ALLOT of a write to a bound register is
raised ahead of ADDR of an exhausted stream, in the order of steps 8 and 9 of 01 Table 01.8 (DEDUCED, log 22). -/
def State.vinstr (s : State) (maj fn : Nat) (o : Ops) (wr : Bool) (body : State → State) : State :=
  s.instr maj fn o fun s =>
    if wr && s.me.writesBound o.d then s.raise .regAllot 0x02 0
    else
      match s.streamUse s.cur.1 s.me o.vsrcs with
      | .fault c x a => s.raise c x a
      | .absent => s.again
      | .ready => body s

/-- An instruction that needs supervisor privilege: step 7 of 01 R38 comes before step 8. -/
def State.supInstr (s : State) (need : Bool) (maj fn : Nat) (o : Ops) (body : State → State) : State :=
  if need && !s.me.sup then (s.startInstr maj fn o.len).raise .prot 0 0 else s.instr maj fn o body

/-- An instruction that needs pager privilege. -/
def State.pagerInstr (s : State) (maj fn : Nat) (o : Ops) (body : State → State) : State :=
  if !s.me.pager then (s.startInstr maj fn o.len).raise .prot 0 0 else s.instr maj fn o body

/-- An instruction that a handler strand may not issue (04 R101). -/
def State.noHandler (s : State) (body : State → State) : State :=
  if s.me.handler then s.raise .handlerWait 0 0 else body s

/-- Undo copy of a destination before its first write in the region (04 R103). -/
def State.undoD (s : State) (d : Dst) : State :=
  match d with
  | .v n => s.undoV (s.me.phys n.toNat)
  | .m n => s.undoM n.toNat
  | _ => s

/-- Retirement of an instruction with vector operands: its stream elements are consumed (08 R230) and counted. -/
def State.retireV (s : State) (o : Ops) : State :=
  let n := (o.vsrcs.filter fun i => (s.me.stream? i).isSome).length
  ((s.modMe fun p => p.consume o.vsrcs).count s.cur.1 15 n).retire

/-- An instruction that writes one g register with a value of its operands and retires. -/
def State.putD (s : State) (o : Ops) (v : Word) : State := (s.setD o.d v).retire

/-- An instruction with lanes that writes `f i` to each enabled lane of its v destination (08 R206). -/
def State.putLanes (s : State) (o : Ops) (f : Nat → BitVec 32) : State :=
  let mk := s.maskOf o
  let s := s.undoD o.d
  let i := o.d.ix
  (s.setV i (laneBytes (enabled mk)) (mergeLanes mk (s.myCore.vreg (s.me.phys i)) f)).retireV o

end Sys2Proof.Machine
end

