-- ==== Sys2Proof/Machine/Flags.lean ====
section
/-! DEFINITION. Integer results (05 R119 to R124), conditions (02 Table 02.2, 08 Table 08.4), and what
floating-point instructions do to FLAGS, AMAX and DRAW (03 R70 to R84; 08 R215 to R224). -/

namespace Sys2Proof.Machine

/-! ### Integer results -/

/-- An operation on 64 bits, or on 32 bits with the result sign-extended (05 R119). -/
def alu (w : Bool) (f : (n : Nat) → BitVec n → BitVec n → BitVec n) (a b : Word) : Word :=
  if w then (f 32 (a.setWidth 32) (b.setWidth 32)).signExtend 64 else f 64 a b

/-- Signed minimum. -/
def minS (n : Nat) (a b : BitVec n) : BitVec n := if a.slt b then a else b
/-- Signed maximum. -/
def maxS (n : Nat) (a b : BitVec n) : BitVec n := if a.slt b then b else a
/-- Unsigned minimum. -/
def minU (n : Nat) (a b : BitVec n) : BitVec n := if a.ult b then a else b
/-- Unsigned maximum. -/
def maxU (n : Nat) (a b : BitVec n) : BitVec n := if a.ult b then b else a

/-- A shift amount: the low bits of `b`, 6 of them for 64 bits and 5 for 32 (05 Table 05.2). -/
def amount (n : Nat) (b : BitVec n) : Nat := b.toNat % n

/-- A w-bit result, sign-extended (05 R121). -/
def narrow (w : Bool) (r : Int) : Word := if w then (BitVec.ofInt 32 r).signExtend 64 else wordInt r

/-- Width of an IMUL form. -/
def wBits (w : Bool) : Nat := if w then 32 else 64

/-- An IMUL result from the signed values of the operands (05 R121). -/
def mulS (w : Bool) (f : Int → Int → Int) (a b : Word) : Word :=
  narrow w (f (signedOf (wBits w) a.toNat) (signedOf (wBits w) b.toNat))

/-- An IMUL result from the unsigned values of the operands (05 R121). -/
def mulU (w : Bool) (f : Nat → Nat → Nat) (a b : Word) : Word :=
  narrow w (f (a.toNat % 2 ^ wBits w) (b.toNat % 2 ^ wBits w) : Nat)

/-- Signed quotient; by zero, all ones (05 R121). -/
def quot (a b : Int) : Int := if b = 0 then -1 else a.tdiv b
/-- Signed remainder; by zero, the dividend (05 R121). -/
def remn (a b : Int) : Int := if b = 0 then a else a.tmod b
/-- Unsigned quotient; by zero, all ones of any width (05 R121). -/
def quotU (a b : Nat) : Nat := if b = 0 then 2 ^ 64 - 1 else a / b
/-- Unsigned remainder; by zero, the dividend (05 R121). -/
def remU (a b : Nat) : Nat := if b = 0 then a else a % b

/-- Leading zeros, 64 for zero (05 Table 05.4). -/
def clz (a : Word) : Nat := ((List.range 64).find? fun i => a.getLsbD (63 - i)).getD 64
/-- Trailing zeros, 64 for zero. -/
def ctz (a : Word) : Nat := ((List.range 64).find? fun i => a.getLsbD i).getD 64
/-- One bits. -/
def popc (a : Word) : Nat := bitCount 64 a.toNat
/-- Bit i moved to bit 63 − i. -/
def brev (a : Word) : Word := toWord (((List.range 64).map fun i => if a.getLsbD i then 2 ^ (63 - i) else 0).sum)
/-- Byte i moved to byte 7 − i. -/
def bswap (a : Word) : Word := toWord (leNat (leBytes 8 a.toNat).reverse)
/-- Sign extension from bit p (05 Table 05.4). -/
def sextFrom (a : Word) (p : Nat) : Word := wordInt (signedOf (p + 1) a.toNat)
/-- A field length: the low six bits, 0 standing for 64 (05 R122). -/
def fieldLen (c : Word) : Nat := if wfld c 0 6 = 0 then 64 else wfld c 0 6
/-- Field extraction (05 Table 05.4). -/
def extb (a : Word) (p n : Nat) : Word := toWord (bitsOf a.toNat p n)
/-- Field insertion (05 Table 05.4). -/
def insb (d a : Word) (p n : Nat) : Word :=
  let k := toWord ((2 ^ n - 1) * 2 ^ p)
  d &&& ~~~k ||| a <<< p &&& k

/-- A truth value as a register content (05 R124). -/
def boolWord (b : Bool) : Word := if b then 1 else 0

/-! ### FP32 comparisons -/

/-- FP32 equality, −0 and +0 equal, false for a NaN (08 Table 08.4). -/
def feq (a b : BitVec 32) : Bool := (fv32 a).eq (fv32 b)
/-- FP32 less-than. -/
def flt (a b : BitVec 32) : Bool := (fv32 a).lt (fv32 b)
/-- Whether either is a NaN. -/
def funord (a b : BitVec 32) : Bool := (fv32 a).isNan || (fv32 b).isNan

/-- VCMP conditions (08 Table 08.4, 02 Table 02.2). -/
def condHolds (c : VCond) (a b : BitVec 32) : Bool :=
  match c with
  | .eq => a == b
  | .ne => a != b
  | .lt => a.slt b
  | .ge => !a.slt b
  | .ltu => a.ult b
  | .geu => !a.ult b
  | .feq => feq a b
  | .fne => !feq a b
  | .flt => flt a b
  | .fge => !funord a b && !flt a b
  | .fun => funord a b

/-- Whether a condition compares FP32 values, whose scalar operands convert as an FP32 slot does. -/
def condFloat (c : VCond) : Bool :=
  match c with
  | .eq | .ne | .lt | .ge | .ltu | .geu => false
  | _ => true

/-- The canonical FP32 NaN (03 Table 03.2). -/
def nan32 : BitVec 32 := 0x7FC00000

/-- FMIN and FMAX (08 R218). -/
def fminmax (max : Bool) (a b : BitVec 32) : BitVec 32 :=
  if funord a b then nan32
  else
    let less := flt a b || (feq a b && a.getLsbD 31)
    if less != max then a else b

/-! ### Roundings of a strand -/

/-- One draw of the strand's stream (03 R77). -/
def draw32 (draw seed sid : Word) : Nat :=
  wfld (round3 (round3 (round3 0 draw 0xA3B195C47E2D6F1B) seed 0xC8E51D7A9B3624F5) sid 0x8F4C2A9DE613B7C1) 32 32

/-- What the roundings of an instruction change: DRAW, FLAGS, AMAX. -/
structure FpAcc where
  draw : Word
  flags : BitVec 16
  amax : BitVec 32
  deriving DecidableEq, Repr

/-- What they depend on: SEED, SID, and the mode (03 R70). -/
structure FpEnv where
  seed : Word
  sid : Word
  mode : RMode
  deriving DecidableEq, Repr

/-- The mode of a code of RMODE (03 R71); a code above 100 is never held. -/
def modeOf (r : BitVec 3) : RMode :=
  match r.toNat with
  | 0 => .rne
  | 1 => .rtz
  | 2 => .rdn
  | 3 => .rup
  | 4 => .sr
  | _ => .rne

/-- The mode that a selector chooses (03 Table 03.3). -/
def roundMode (r : RSel) (rmode : BitVec 3) : RMode :=
  match r with
  | .rne => .rne
  | .rtz => .rtz
  | .rdn => .rdn
  | .rup => .rup
  | .sr => .sr
  | .dyn => modeOf rmode

/-- The rounding state of the strand that executes. -/
def State.fpAcc (s : State) : FpAcc := { draw := s.me.draw, flags := s.me.flags, amax := s.me.amax }

/-- What the roundings of the strand that executes depend on, under a mode. -/
def State.fpEnv (s : State) (m : RMode) : FpEnv := { seed := s.seed s.me, sid := s.me.sid, mode := m }

/-- Stores the rounding state of the strand that executes. -/
def State.setFp (s : State) (a : FpAcc) : State :=
  s.modMe fun p => { p with draw := a.draw, flags := a.flags, amax := a.amax }

/-- Sets bits of FLAGS; every bit is sticky (03 R72). -/
def FpAcc.raise (a : FpAcc) (fl : BitVec 16) : FpAcc := { a with flags := a.flags ||| fl }

/-- round_to for a strand: under SR every rounding draws once (03 R75, R78). -/
def FpEnv.round (e : FpEnv) (f : Fmt) (sat : Bool) (v : FV) (a : FpAcc) : Nat × FpAcc :=
  let sr := e.mode == .sr
  let rnd := if sr then draw32 a.draw e.seed e.sid else 0
  let (x, fl) := f.round v e.mode sat rnd
  (x, { a.raise fl with draw := if sr then a.draw + 1 else a.draw })

/-- round_to FP32 of a value that may be invalid, which sets NV (08 R217). -/
def FpEnv.result (e : FpEnv) (v : FV × Bool) (a : FpAcc) : BitVec 32 × FpAcc :=
  let (x, a) := e.round Fmt.f32 false v.1 (if v.2 then a.raise flNV else a)
  (BitVec.ofNat 32 x, a)

/-- Integer rounding for a strand (03 R76). -/
def FpEnv.toInt (e : FpEnv) (lo hi : Int) (v : FV) (a : FpAcc) : Int × FpAcc :=
  let sr := e.mode == .sr
  let rnd := if sr then draw32 a.draw e.seed e.sid else 0
  let (x, fl) := toInteger lo hi v e.mode rnd
  (x, { a.raise fl with draw := if sr then a.draw + 1 else a.draw })

/-- Whether the mode rounds towards −∞, which gives an exact zero sum its sign (03 R67). -/
def FpEnv.down (e : FpEnv) : Bool := e.mode == .rdn

/-- a × b + c, exact; whether it is invalid (08 R217). -/
def fmaV (down : Bool) (a b c : FV) : FV × Bool :=
  if c.isNan then (.nan, false)
  else
    let (p, bad) := a.mul b
    if bad then (.nan, true) else p.add down c

/-- NEG and ABS on FP32 bits: ABS clears the sign and NEG then inverts it (08 R217). -/
def modify (neg abs : Bool) (x : BitVec 32) : BitVec 32 :=
  let x := if abs then x &&& 0x7FFFFFFF else x
  if neg then x ^^^ 0x80000000 else x

/-- A lane-by-lane operation with roundings, lane 0 first (03 R78, 08 R206). -/
def fpLanes (mk : BitVec 16) (old : VReg) (f : Nat → FpAcc → BitVec 32 × FpAcc) (a : FpAcc) : VReg × FpAcc :=
  (enabled mk).foldl (fun r i => let (x, a) := f i r.2; (setElem 32 r.1 i x.toNat, a)) (old, a)

/-- An instruction with lanes that round: its results, FLAGS, AMAX and DRAW, and retirement. -/
def State.putFpLanes (s : State) (o : Ops) (f : Nat → FpAcc → BitVec 32 × FpAcc) : State :=
  let mk := s.maskOf o
  let s := s.undoD o.d
  let i := o.d.ix
  let (v, a) := fpLanes mk (s.myCore.vreg (s.me.phys i)) f s.fpAcc
  ((s.setFp a).setV i (laneBytes (enabled mk)) v).retireV o

/-! ### Reciprocals (03 R83, R84) -/

/-- FRCP of FP32 bits: bits and FLAGS. -/
def frcp (x : BitVec 32) : BitVec 32 × BitVec 16 :=
  match fv32 x with
  | .nan => (nan32, 0)
  | .inf n => (BitVec.ofNat 32 (Fmt.f32.sign n), 0)
  | .fin n m e _ =>
    if m = 0 then (BitVec.ofNat 32 (Fmt.f32.inf n), flDZ)
    else
      let r := Fmt.f32.roundSig 22 (recip n m e) .rne false 0
      (BitVec.ofNat 32 r.1, r.2)

/-- FRSQ of FP32 bits. -/
def frsq (x : BitVec 32) : BitVec 32 × BitVec 16 :=
  match fv32 x with
  | .nan => (nan32, 0)
  | .inf n => if n then (nan32, flNV) else (0, 0)
  | .fin n m e _ =>
    if m = 0 then (BitVec.ofNat 32 (Fmt.f32.inf n), flDZ)
    else if n then (nan32, flNV)
    else
      let r := Fmt.f32.roundSig 22 (recipSqrt m e) .rne false 0
      (BitVec.ofNat 32 r.1, r.2)

/-- FP32 1.0. -/
def one32 : BitVec 32 := 0x3F800000

/-- One FFMA step rounded by RNE, with the FLAGS an FFMA would set. -/
def ffmaStep (a b c : BitVec 32) : BitVec 32 × BitVec 16 :=
  let (v, bad) := fmaV false (fv32 a) (fv32 b) (fv32 c)
  let (x, fl) := rne32 v
  (x, if bad then fl ||| flNV else fl)

/-- One FMUL step rounded by RNE. -/
def fmulStep (a b : BitVec 32) : BitVec 32 × BitVec 16 :=
  let (v, bad) := (fv32 a).mul (fv32 b)
  let (x, fl) := rne32 v
  (x, if bad then fl ||| flNV else fl)

/-- Whether an approximation is returned as it stands: ±0, ±∞ or NaN (03 R84). -/
def passes (y : BitVec 32) : Bool := (fv32 y).isNan || (fv32 y).isInf || (fv32 y).isZero

/-- The value returned then; a NaN returns the canonical NaN. -/
def passed (y : BitVec 32) : BitVec 32 := if (fv32 y).isNan then nan32 else y

/-- FRCPN (03 R84). -/
def frcpn (x y : BitVec 32) : BitVec 32 × BitVec 16 :=
  if passes y then (passed y, 0)
  else
    let (e, f1) := ffmaStep (modify true false x) y one32
    let (r, f2) := ffmaStep y e y
    (r, f1 ||| f2)

/-- FRSQN (03 R84). -/
def frsqn (x y : BitVec 32) : BitVec 32 × BitVec 16 :=
  if passes y then (passed y, 0)
  else
    let (h, f1) := fmulStep y y
    let (e, f2) := ffmaStep (modify true false x) h one32
    let (t, f3) := fmulStep y 0x3F000000
    let (r, f4) := ffmaStep t e y
    (r, f1 ||| f2 ||| f3 ||| f4)

/-! ### Transcendental functions (08 R220) -/

/-- 2^a as an exact value. -/
def exp2V (a : FV) : FV × BitVec 16 :=
  match a with
  | .nan => (.nan, 0)
  | .inf n => (if n then .fin false 0 0 false else .inf false, 0)
  | .fin n m e _ => (exp2 n m e, 0)

/-- log2 a as an exact value, with its flag. -/
def log2V (a : FV) : FV × BitVec 16 :=
  match a with
  | .nan => (.nan, 0)
  | .inf n => if n then (.nan, flNV) else (.inf false, 0)
  | .fin n m e _ => if m = 0 then (.inf true, flDZ) else if n then (.nan, flNV) else (log2v m e, 0)

/-- tanh a as an exact value. -/
def tanhV (a : FV) : FV × BitVec 16 :=
  match a with
  | .nan => (.nan, 0)
  | .inf n => (.fin n 1 0 false, 0)
  | .fin n m e _ => if m = 0 then (.fin n 0 0 false, 0) else (tanhv n m e, 0)

/-! ### Reductions (08 R215) -/

/-- Identity of a reduction (08 Table 08.5a). -/
def redIdentity (op : RedOp) : BitVec 32 :=
  match op with
  | .add | .maxu | .or | .xor => 0
  | .min => 0x7FFFFFFF
  | .max => 0x80000000
  | .minu | .and => 0xFFFFFFFF
  | .fadd => 0x80000000
  | .fmin => 0x7F800000
  | .fmax => 0xFF800000

/-- A node of the tree: its value and the FLAGS it sets. -/
def redNode (op : RedOp) (a b : BitVec 32) : BitVec 32 × BitVec 16 :=
  match op with
  | .add => (a + b, 0)
  | .min => (minS 32 a b, 0)
  | .max => (maxS 32 a b, 0)
  | .minu => (minU 32 a b, 0)
  | .maxu => (maxU 32 a b, 0)
  | .and => (a &&& b, 0)
  | .or => (a ||| b, 0)
  | .xor => (a ^^^ b, 0)
  | .fadd =>
    let (v, bad) := (fv32 a).add false (fv32 b)
    let (x, fl) := rne32 v
    (x, if bad then fl ||| flNV else fl)
  | .fmin => (fminmax false a b, 0)
  | .fmax => (fminmax true a b, 0)

/-- One level of the tree of 03 Table 03.6: neighbours combined, the lower lane first. -/
def redLevel (op : RedOp) : List (BitVec 32) → List (BitVec 32) × BitVec 16
  | a :: b :: l =>
    let (x, f) := redNode op a b
    let (r, g) := redLevel op l
    (x :: r, f ||| g)
  | l => (l, 0)

/-- The tree over the lanes of a register (03 R87). -/
def redTree (op : RedOp) : Nat → List (BitVec 32) → BitVec 32 × BitVec 16
  | 0, l => (l.headD 0, 0)
  | n + 1, l =>
    let (r, f) := redLevel op l
    let (x, g) := redTree op n r
    (x, f ||| g)

/-- One step of a scan: every lane from `d` combines with the lane `d` below (03 R88). A lane carries the FLAGS of the nodes
that its value comes from. -/
def redStep (op : RedOp) (d : Nat) (l : List (BitVec 32 × BitVec 16)) : List (BitVec 32 × BitVec 16) :=
  (List.range l.length).map fun i =>
    let b := nth (0, 0) l i
    if i < d then b
    else
      let a := nth (0, 0) l (i - d)
      let r := redNode op a.1 b.1
      (r.1, r.2 ||| a.2 ||| b.2)

/-- A floating-point result is never a NaN with a payload (03 R66). -/
def redCanon (op : RedOp) (x : BitVec 32) : BitVec 32 :=
  match op with
  | .fadd | .fmin | .fmax => if (fv32 x).isNan then nan32 else x
  | _ => x

/-- The scan of 03 R88: each lane's value and the FLAGS of its nodes. -/
def redScan (op : RedOp) (l : List (BitVec 32)) : List (BitVec 32 × BitVec 16) :=
  ([1, 2, 4, 8].foldl (fun r d => redStep op d r) (l.map fun x => (x, 0))).map fun r => (redCanon op r.1, r.2)

/-- FLAGS of a scan: those of the nodes that the enabled lanes come from (03 R73, 08 R206; log 22). -/
def redFlags (mk : BitVec 16) (l : List (BitVec 32 × BitVec 16)) : BitVec 16 :=
  (enabled mk).foldl (fun f i => f ||| (nth (0, 0) l i).2) 0

/-! ### Conversions (08 R222 to R224) -/

/-- The floating-point format of a code. -/
def fmtOf (f : EFmt) : Fmt :=
  match f with
  | .f16 => Fmt.f16
  | .bf16 => Fmt.bf16
  | .e5m2 => Fmt.e5m2
  | .e4m3 => Fmt.e4m3
  | _ => Fmt.f32

/-- Exact value of an element (08 R222). -/
def elemValue (f : EFmt) (x : Nat) : FV :=
  match f with
  | .i8 => fvInt (signedOf 8 x)
  | .u8 => fvInt x
  | .i32 => fvInt (signedOf 32 x)
  | _ => (fmtOf f).value x

/-- Smallest and largest value of an integer format (03 R68). -/
def intRange (f : EFmt) : Int × Int :=
  match f with
  | .i8 => (-128, 127)
  | .u8 => (0, 255)
  | _ => (-2147483648, 2147483647)

/-- The element that a conversion delivers (08 R222). -/
def FpEnv.convert (e : FpEnv) (df : EFmt) (sat : Bool) (v : FV) (a : FpAcc) : Nat × FpAcc :=
  match df with
  | .i8 | .u8 | .i32 =>
    let (i, a) := e.toInt (intRange df).1 (intRange df).2 v a
    ((BitVec.ofInt 32 i).toNat, a)
  | _ => e.round (fmtOf df) sat v a

/-- AMAX after an input (03 R82). -/
def FpAcc.amaxOf (a : FpAcc) (v : FV) : FpAcc :=
  match v with
  | .nan => a.raise flNAN
  | _ =>
    let m := (rne32 (match v with | .fin _ m e t => .fin false m e t | _ => .inf false)).1
    if a.amax.ult m then { a with amax := m } else a

/-- Largest power of two of BSCALE DERIVE (08 R223). -/
def scaleMax (f : EFmt) : Int :=
  match f with
  | .f16 => 15
  | .bf16 => 127
  | .e5m2 => 15
  | .e4m3 => 8
  | _ => 0

/-- The E8M0 code of BSCALE DERIVE (08 R223). -/
def scaleCode (tf : EFmt) (a : BitVec 32) : BitVec 32 :=
  match fv32 a with
  | .nan => 0xFF
  | .inf _ => 0xFE
  | .fin _ m e _ =>
    if m = 0 then 0x7F
    else
      let c : Int := e + Nat.log2 m - scaleMax tf + 127
      BitVec.ofInt 32 (if c < 0 then 0 else if 254 < c then 254 else c)

/-- The distance of a finite value to a finite codebook entry, on the scale 2^−300 on which both are
integers; none where 08 R224 gives no finite distance. -/
def codeDist (a c : FV) : Option Nat :=
  let z (v : FV) : Int :=
    match v with
    | .fin n m e _ => (if n then -1 else 1) * (m * 2 ^ (e + 300).toNat : Nat)
    | _ => 0
  match a, c with
  | .fin .., .fin .. => some (z a - z c).natAbs
  | .inf n, .inf n' => if n = n' then some 0 else none
  | _, _ => none

/-- C4ENC of one value against 16 BF16 entries (08 R224): the code and FLAGS. A finite entry is at infinite
distance from an infinite value, and an infinite entry from every other value. -/
def c4code (book : List Nat) (a : BitVec 32) : Nat × BitVec 16 :=
  let v := fv32 a
  let cs := book.map Fmt.bf16.value
  if v.isNan then
    match indexWhere FV.isNan cs 0 with
    | some j => (j, 0)
    | none => (0, flNV)
  else
    let near := (List.range 16).foldl (fun (r : Option (Nat × Nat)) j =>
      match codeDist v (nth .nan cs j), r with
      | some d, none => some (j, d)
      | some d, some (k, e) => if d < e then some (j, d) else some (k, e)
      | none, r => r) none
    match near with
    | some (j, _) => (j, 0)
    | none =>
      match indexWhere (fun c => !c.isNan) cs 0 with
      | some j => (j, 0)
      | none => (0, flNV)

end Sys2Proof.Machine
end

