-- ==== Sys2Proof/Machine/Fetch.lean ====
section
/-! DEFINITION. Fetching an instruction's bytes and the checks that the PC and the fetched bytes decide
(01 R19, R20, R38 steps 1 to 6). -/

namespace Sys2Proof.Machine

/-- What the fetch of a strand's next instruction finds. -/
inductive Fetched where
  /-- a check of 01 Table 01.8 fails, with the word as far as it was read (01 R40) -/
  | fault (code : Code) (sub : Nat) (addr : Word) (word : WordId)
  /-- the translation of the PC is not in the cluster TLB -/
  | miss
  /-- the line is not in the instruction cache (07 R179) -/
  | absent
  | ok (i : Instr)
  deriving DecidableEq, Repr

/-- A word of which nothing was fetched (01 R40, step 1). -/
def WordId.none : WordId := { maj := 0, fn := 0, len := 0 }

/-- ADDR of a PC outside global memory: SUB 0x02 in another window, SUB 0x01 in none (01 R19). -/
def pcWindow (pc : Word) : Option Nat :=
  match wfld pc 56 8 with
  | 0x00 => if pc.getLsbD 55 then some 0x01 else Option.none
  | 0xF0 | 0xF1 | 0xF2 | 0xF3 => if wfld pc 24 32 = 0 then some 0x02 else some 0x01
  | 0xF4 | 0xF5 => if wfld pc 24 16 = 0 then some 0x02 else some 0x01
  | _ => some 0x01

/-- Locations of the 32 bytes of the fetch block of a PC (01 R20). -/
def State.blockLocs (s : State) (c : Nat) (e : TlbEntry) (pc : Word) : List Nat :=
  s.entryLocs (coreSite c) true e (toWord (pc.toNat / 32 * 32)) 32

/-- Bytes of a cached line from a PC to the end of its fetch block. -/
def lineBytes (line : BitVec 512) (pc : Word) : List Byte :=
  ((leBytes 64 line.toNat).drop (pc.toNat % 64)).take (32 - pc.toNat % 32)

/-- MAJ, FN and LEN as they stand in the first two bytes of a word (01 R40). -/
def wordIdOf (bs : List Byte) : WordId :=
  let w := leNat (bs.take 2)
  { maj := BitVec.ofNat 8 (w / 4), fn := BitVec.ofNat 6 (w / 1024), len := BitVec.ofNat 2 w }

/-- Steps 2 to 6 of 01 R38 on the bytes of a fetch block from the PC (g3 as 01 R38 gives it: log 16). -/
def checkBytes (pc : Word) (bs : List Byte) : Fetched :=
  let w := wordIdOf bs
  if w.len = 3 then .fault .illegalEncoding 0 0 w
  else if 32 < pc.toNat % 32 + w.bytes then .fault .fetchStraddle 0 0 w
  else
    match decode bs with
    | .ok (i, _) => .ok i
    | .error .opcode => .fault .illegalOpcode 0 0 w
    | .error .encoding => .fault .illegalEncoding 0 0 w
    | .error .truncated => .fault .fetchStraddle 0 0 w

/-- The bytes of the word that a strand would issue, as far as its fetch block holds them; none where step 1 fails. -/
def State.wordAt (s : State) (c : Nat) (p : Strand) : List Byte :=
  match s.tlbFind (coreClu c) p.asid p.sec p.pc, tfind (s.clu (coreClu c)).icache (p.pc.toNat / 64) with
  | some _, some line =>
    let bs := lineBytes line p.pc
    bs.take (wordIdOf bs).bytes
  | _, _ => []

/-- The fetch of the strand that stands in a slot of a core. 01 Table 01.8 does not list UNREACHABLE; the model's choice is to check
the route between WORLD and MEM_UNCORR, at every fetch, also of a line that the instruction cache holds (DESIGN CHOICE, log 16). -/
def State.fetch (s : State) (c : Nat) (p : Strand) : Fetched :=
  match pcWindow p.pc with
  | some sub => .fault .addr sub p.pc WordId.none
  | none =>
    match s.tlbFind (coreClu c) p.asid p.sec p.pc with
    | none => .miss
    | some e =>
      let g := ptePage e.pte
      let locs := s.blockLocs c e p.pc
      if !g.x then .fault .prot 0 p.pc WordId.none
      else if s.foreign p.sec e locs then .fault .world 0 p.pc WordId.none
      else
        if !s.routable (coreSite c) (locSite (locs.headD 0)) then .fault .unreachable 0 p.pc WordId.none
        else if locs.any s.bad then .fault .memUncorr 0 p.pc WordId.none
        else
          match tfind (s.clu (coreClu c)).icache (p.pc.toNat / 64) with
          | none => .absent
          | some line => checkBytes p.pc (lineBytes line p.pc)

/-- What the core does with a member of the issue group whose fetch gives no instruction: the fault, a walk
of the translation, or a wait for the instruction cache. -/
def State.unfetched (s : State) (f : Fetched) : State :=
  match f with
  | .fault code sub a w => s.raiseAt w code sub a
  | .miss => (s.modMe fun p => { p with word := WordId.none }).startWalk s.cur.1 s.cur.2 .fetch s.me.pc
  | .absent => s.again
  | .ok _ => s

/-! ### Placing an instruction -/

/-- The core that `withFetchWord` uses when no issue group is open: core 0 of the chiplet of stack 0. -/
def demoCore : Nat := 16

/-- A page table entry that maps a 64 KiB page at physical address 0 for reading, writing and execution, in
a world, with ORD RC. -/
def demoPte (sec : Bool) : Word := toWord (0x9D + if sec then 64 else 0)

/-- The member that executes next. -/
def State.nextMember (s : State) : Nat × Nat := s.issuing.headD (demoCore, 0)

/-- The world of the first granule becomes that of a strand. -/
def State.ownGranule (s : State) (sec : Bool) : State :=
  if s.worldOk sec 0 then s
  else
    s.modSpine fun z =>
      let w := tget 0 z.worlds 0
      { z with worlds := tput z.worlds 0 (if sec then w ||| 1 else w &&& ~~~1) }

/-- The instruction whose first 128 bits are `w` stands at PC 0 of the member that executes next: its bytes
lie in memory, in the member's world, its page in the cluster TLB and its line in the instruction cache. -/
def State.placeWord (s : State) (w : Nat) : State :=
  let (c, sl) := s.nextMember
  let p : Strand := { s.strandAt c sl with pc := 0, st := .issuing }
  let e : TlbEntry :=
    { asid := p.asid, glob := true, sec := p.sec, big := false, vp := 0, pte := demoPte p.sec, set := 0, way := 0 }
  let s := (s.putStrand c sl p).ownGranule p.sec
  let s := s.modClu (coreClu c) fun u =>
    { u with tlb := e :: u.tlb.filter fun f => !f.hits p.asid p.sec 0,
             icache := tput u.icache 0 (BitVec.ofNat 512 (w % 2 ^ 128)) }
  { s with mem := memWrite s.mem (cellsOf (locsFrom 0 16) (w % 2 ^ 128)),
           issuing := (c, sl) :: s.issuing.drop 1 }

end Sys2Proof.Machine
end

