-- ==== Sys2Proof/Machine/MemOps.lean ====
section
/-! DEFINITION. Loads and stores of a strand between issue and performance: the issue of a load, the open
region's entries (04 R102, R103; 06 R151, R152), and when a read or a write unit may be performed (15 R348,
R349; 06 R152). -/

namespace Sys2Proof.Machine

/-! ### Issue of loads -/

/-- A part of a load: it is performed at issue when the strand's own stores give all of its bytes (04 R102), else its
bytes are taken at one later instant (15 R344). -/
def State.runit (s : State) (p : Piece) : RUnit :=
  let own := p.mapped.map fun l => s.ownByte s.me s.me.nextSeq l
  { cells := p.locs.zip (if own.all Option.isSome then own else own.map fun _ => none), mapped := p.mapped, ord := p.ord,
    repl := p.repl, route := s.route (coreSite s.cur.1) (locSite (p.locs.headD 0)), sent := s.fresh, rsp := (0, 0) }

/-- The g registers, and the bytes of allotment registers, to which a load delivers. -/
def LoadDest.targets : LoadDest → List Nat × List Nat
  | .g n _ _ => ([n], [])
  | .pair n => ([n, n + 1], [])
  | .lanes reg ls => ([], (laneBytes ls).map fun b => 64 * reg + b)
  | .table _ => ([], [])

/-- A strand to which a load is to deliver: it is the latest that does. -/
def Strand.expect (p : Strand) (d : LoadDest) (id : Nat) : Strand :=
  { p with board := d.targets.1.foldl (fun t n => tput t n id) p.board,
           vboard := d.targets.2.foldl (fun t n => tput t n id) p.vboard }

/-- A load of the strand that executes leaves for memory; its parts in the order of their bytes. -/
def State.issueLoad (s : State) (acq : Bool) (dest : LoadDest) (parts : List RUnit) : State :=
  let p := s.me
  let l : LoadOp :=
    { id := s.fresh, core := s.cur.1, slot := s.cur.2, own := p.own, sid := p.sid, seq := p.nextSeq, acq, dest, parts,
      pc := p.pc, word := p.word, acqSeq := p.acqSeq }
  (State.tick { s with loads := s.loads ++ [l] }).modMe fun p =>
    { p.expect dest l.id with nextSeq := p.nextSeq + 1, acqSeq := if acq then p.nextSeq + 1 else p.acqSeq }

/-- An acquire of the strand that executes (15 Table 15.3): its reads before and after it keep their order (15 R349). -/
def State.acquire (s : State) : State := s.modMe fun p => { p with acqSeq := p.nextSeq }

/-- Bytes of a load in order, none until every part has been read. -/
def LoadOp.bytes (l : LoadOp) : Option (List Byte) :=
  (l.parts.flatMap fun u => u.cells).foldr (fun c r =>
    match c.2, r with
    | some b, some bs => some (b :: bs)
    | _, _ => none) (some [])

/-- Whether a part has been read. -/
def RUnit.done (u : RUnit) : Bool := u.cells.all fun c => c.2.isSome

/-- Whether a load has been read: every part of it performed (15 R344). -/
def LoadOp.done (l : LoadOp) : Bool := l.parts.all RUnit.done

/-! ### Stores -/

/-- Pages that an access touches: the entries a store of it takes (06 R151). -/
def pagesOf (ps : List Piece) : Nat := Nat.max 1 (ps.filterMap (·.entry)).dedup.length

/-- The region entries of a store: one buffered write for each part; the first carries the value that the
store digest folds, and the entries taken. -/
def bufStores (ps : List Piece) (n v : Nat) (pc : Word) : List BufStore :=
  let go := ps.foldl (fun (r : List BufStore × Nat) p =>
    let first := r.1.isEmpty
    let b : BufStore :=
      { ea := p.ea, n := if first then n else 0, val := BitVec.ofNat 128 v,
        cells := cellsOf p.locs (bitsOf v (8 * r.2) (8 * p.locs.length)), ord := p.ord, repl := p.repl,
        entries := if first then pagesOf ps else 0, pc, seq := 0 }
    (r.1 ++ [b], r.2 + p.locs.length)) ([], 0)
  go.1

/-- Folds stores into SDIG in order (17 R390). -/
def foldStores (d : Word) (bs : List BufStore) : Word :=
  bs.foldl (fun d b => if b.n = 0 then d else foldStore d b.ea b.n b.val) d

/-- Stores take program-order numbers from the first one given. -/
def numberStores (n : Nat) (bs : List BufStore) : List BufStore :=
  (bs.zip (List.range bs.length)).map fun b => { b.1 with seq := n + b.2 }

/-- Stores that are performed without the region: folded and handed over at issue (06 R156). -/
def State.storeNow (s : State) (rel : Bool) (bs : List BufStore) : State :=
  let bs := numberStores s.me.nextSeq bs
  let s := s.modMe fun p => { p with sdig := foldStores p.sdig bs, nextSeq := p.nextSeq + bs.length }
  bs.foldl (fun s b => s.handOver s.cur.1 s.cur.2 rel b) s

/-- Entries taken by the stores of a region. -/
def regionEntries (l : List BufStore) : Nat := (l.map (·.entries)).sum

/-- Buffers stores in the open region; one that would need a 65th entry commits the region before it (04
R103). -/
def State.buffer (s : State) (bs : List BufStore) : State :=
  let s := if 64 < regionEntries s.me.region + regionEntries bs then s.commitHere else s
  let cc := s.myCore.cc
  s.modMe fun p =>
    { p with region := p.region ++ numberStores p.nextSeq bs, nextSeq := p.nextSeq + bs.length,
             firstStore := some (p.firstStore.getD cc) }

/-- A store of the strand: to an SO page it commits the region and is handed over, elsewhere it is buffered
(06 R151). -/
def State.store (s : State) (bs : List BufStore) : State :=
  if bs.any fun b => b.ord == .so then s.commit.storeNow false bs else s.buffer bs

/-! ### When a unit may be performed -/

/-- Whether a location's line is locked by a replicated write (15 R360). -/
def State.replLocked (s : State) (l : Nat) : Bool :=
  s.writes.any fun w => w.locked && w.cells.any fun c =>
    c.1 / 64 == l / 64 || (replicas w.reps c.1).any fun r => r / 64 == l / 64

/-- Whether an earlier access of a strand holds back one with order number `seq`: an LD.acq not yet read
(06 R152), or, for SO, any earlier SO access not performed (15 R348). -/
def State.heldBack (s : State) (own : Nat) (seq : Nat) (ord : Ord) : Bool :=
  (s.loads.any fun l => l.own == own && decide (l.seq < seq) && !l.done &&
    (l.acq || (ord == .so && l.parts.any fun u => u.ord == .so && !u.done))) ||
  (ord == .so && s.writes.any fun w => w.own == own && decide (w.seq < seq) && w.ord == .so)

/-- Whether an earlier write of the strand to one of some locations is not yet performed (15 R349). -/
def State.ownWrite (s : State) (own : Nat) (seq : Nat) (locs : List Nat) : Bool :=
  s.writes.any fun w => w.own == own && decide (w.seq < seq) && w.cells.any fun c => locs.contains c.1

/-- Whether an earlier load of the strand has yet to read one of some locations. -/
def State.ownRead (s : State) (own : Nat) (seq : Nat) (locs : List Nat) : Bool :=
  s.loads.any fun l => l.own == own && decide (l.seq < seq) &&
    l.parts.any fun u => !u.done && u.mapped.any locs.contains

/-- Whether a read of an order must come after an earlier load of its strand that has yet to read one of its bytes: on UO
pages only one before the strand's latest acquire (15 R349). -/
def State.readOrder (s : State) (own seq acqSeq : Nat) (ord : Ord) (locs : List Nat) : Bool :=
  s.ownRead own (if ord == .uo then Nat.min acqSeq seq else seq) locs

/-- Whether a write of the strand to a byte of a read must be performed first: one of those before the read that is
handed over and is not an ST.rel, whose bytes the strand reads itself (04 R102, 06 R152). -/
def State.ownBlocks (s : State) (own : Nat) (seq : Nat) (locs : List Nat) : Bool :=
  locs.any fun l => match s.pending? own seq l with | some w => !w.rel | none => false

/-- Whether part `i` of a load may be performed now. -/
def State.mayRead (s : State) (l : LoadOp) (i : Nat) : Bool :=
  match l.parts[i]? with
  | none => false
  | some u =>
    !u.done && !s.heldBack l.own l.seq u.ord && !s.ownBlocks l.own l.seq u.mapped &&
      !s.readOrder l.own l.seq l.acqSeq u.ord u.mapped &&
      (u.ord != .so || (l.parts.take i).all RUnit.done) && !(u.cells.map (·.1)).any s.replLocked

/-- Whether a write unit may be performed now: an ST.rel only after every earlier load has been read and
every earlier store performed, and none while an LD.acq is unread that had issued when the write was handed to memory (06
R152). -/
def State.mayWrite (s : State) (w : WriteUnit) : Bool :=
  let locs := w.cells.map Prod.fst
  !(s.loads.any fun l => l.own == w.own && l.acq && decide (l.seq < w.after) && !l.done) && !s.heldBack w.own w.seq w.ord &&
    !s.ownWrite w.own w.seq locs && !s.ownRead w.own w.seq locs &&
    (!w.rel ||
      (!(s.loads.any fun l => l.own == w.own && decide (l.seq < w.seq) && !l.done) &&
        !(s.writes.any fun v => v.own == w.own && decide (v.seq < w.seq))))

/-- Whether every earlier load of a strand has been read. -/
def State.loadsRead (s : State) (own : Nat) : Bool := !(s.loads.any fun l => l.own == own && !l.done)

/-- Whether every store that a strand has handed over has been performed. -/
def State.storesDone (s : State) (own : Nat) : Bool := !(s.writes.any fun w => w.own == own)

/-- Whether every load of a strand has returned to its registers. -/
def State.loadsBack (s : State) (own : Nat) : Bool := !(s.loads.any fun l => l.own == own)

/-- Whether the strand's accesses on the strand path let a fence of an order retire. -/
def State.fenceDone (s : State) (order : MemOrder) (own : Nat) : Bool :=
  match order with
  | .rlx => true
  | .acq => s.loadsRead own
  | .rel | .ar => s.loadsRead own && s.storesDone own

/-! ### Accesses of other agents to replicated pages (15 R359, R360) -/

/-- Bytes, each with its address, that an agent other than a strand writes to replicated pages leave as write units, one for
each line (15 R359, R360). -/
def State.replUnits (s : State) (agent c : Nat) (owner pc : Word) (reps : BitVec 48) (cells : List (Word × Host.Cell)) : State :=
  (cells.map fun x => x.2.1 / 64).dedup.foldl (fun s n =>
    let mine := cells.filter fun x => x.2.1 / 64 == n
    let u : WriteUnit :=
      { id := s.fresh, core := c, slot := 0, own := 0, sid := owner, seq := 0, rel := false, ord := .rc,
        cells := mine.map (·.2), repl := true, locked := false, reps, pc, route := 0, agent := some agent,
        after := 0, sent := s.fresh, va := (mine.headD (0, 0, 0)).1 }
    State.tick { s with writes := s.writes ++ [u] }) s

/-- Site from which a write leaves: that of the Spine for the agents at no core (log 40). -/
def WriteUnit.site (w : WriteUnit) : Nat := if w.core = 0 then spineSite else coreSite w.core

/-- Sites of the replicas that a write to a replicated page reaches, the lead replica's first (15 R359). -/
def WriteUnit.replSites (w : WriteUnit) : List Nat := (replicas w.reps (w.cells.headD (0, 0)).1).map locSite

/-- What a write leaves at the replicas; a chiplet of another incarnation performs nothing (11 R310). -/
def State.replCells (s : State) (w : WriteUnit) : List Host.Cell :=
  w.cells.flatMap fun c => ((replicas w.reps c.1).filter fun l => !s.staleTo w.site (locSite l)).map fun l => (l, c.2)

/-- Whether some packet of a write to a replicated page can't reach its replica (14 R325, R332, R334). -/
def State.replStuck (s : State) (w : WriteUnit) : Bool :=
  w.replSites.any fun n => match s.wayTo w.site n with | .hole | .lost .unreachable => true | _ => false

/-- Whether replicated writes of an agent are still on their way (15 R360). -/
def State.agentWriting (s : State) (agent : Nat) : Bool := s.writes.any fun w => w.agent == some agent

/-- A byte as a read returns it: the read of a locked replica waits for the update and returns the new value (15 R360). -/
def State.settledByte (s : State) (l : Nat) : Byte :=
  let new (w : WriteUnit) : Option Byte :=
    if w.locked then (w.cells.find? fun c => (replicas w.reps c.1).contains l).map Prod.snd else none
  (s.writes.findSome? new).getD (memGet s.mem l)

end Sys2Proof.Machine
end

