-- ==== Sys2Proof/Machine/Colophon.lean ====
section
/-! DEFINITION. The Colophon: lanes, records, admission, divergence (17 R384 to R398). -/

namespace Sys2Proof.Machine

/-! ### Lanes (17 R384, R385) -/

/-- The core lane of a core. -/
def State.coreLane (s : State) (c : Nat) : Nat := (s.core c).lcore.toNat
/-- The cluster lane of a cluster. -/
def State.cluLane (s : State) (k : Nat) : Nat := 0x2000 + 4 * (s.site (cluSite k)).lchip.toNat + k % 4
/-- The atomic lane of a chiplet. -/
def State.atomLane (s : State) (site : Nat) : Nat := 0x4000 + (s.site site).lchip.toNat
/-- The dispatcher lane of a chiplet. -/
def State.dispLane (s : State) (site : Nat) : Nat := 0x6000 + (s.site site).lchip.toNat
/-- The PAS lane. -/
def pasLane : Nat := 0x8000
/-- The launch lane. -/
def launchLane : Nat := 0xA000

/-- Key of a lane of a context among all lanes. -/
def laneKey (asid lane : Nat) : Nat := asid * 2 ^ 16 + lane

/-- A lane of a context. -/
def State.laneOf (s : State) (asid lane : Nat) : Lane := tget Lane.blank s.lanes (laneKey asid lane)

/-- Changes a lane. -/
def State.modLaneOf (s : State) (asid lane : Nat) (f : Lane → Lane) : State :=
  { s with lanes := tput s.lanes (laneKey asid lane) (f (s.laneOf asid lane)) }

/-- Segment index of a lane in a partition of `n` chiplets (17 R385). -/
def segIx (n lane : Nat) : Nat :=
  let i := lane % 0x2000
  match lane / 0x2000 with
  | 0 => 2 + 6 * n + i
  | 1 => 2 + 6 * (i / 4) + 2 + i % 4
  | 2 => 2 + 6 * i
  | 3 => 2 + 6 * i + 1
  | 4 => 1
  | _ => 0

/-- Locations of record number `w` of a lane (17 R385). -/
def State.recordLocs (s : State) (asid lane w : Nat) : List Nat :=
  let x := s.ctx asid
  let pa := x.rb.toNat + 0x10000 +
    32 * (2 ^ x.segLog * segIx (s.partn x.part).chips.length lane + w % 2 ^ x.segLog)
  (List.range 32).filterMap fun i => s.physLoc (pa + i)

/-! ### Records (17 Table 17.4) -/

/-- What AUX of a record is, and how an admission compares it (17 R391, R393). -/
inductive AuxKind where
  | sdig | decision | other
  deriving DecidableEq, Repr

/-- A presentation: an operation that writes a record, or meets one (17 R391); `val` is the SDIG presented, for a divergence report
(17 Table 17.9). -/
structure Present where
  asid : Nat
  lane : Nat
  type : Nat
  sid : Word
  ord : BitVec 32
  opd : BitVec 32
  aux : Word
  kind : AuxKind
  val : Word
  deriving DecidableEq, Repr

/-- A record as the 256 bits of its 32 bytes. -/
def Present.record (p : Present) (flags stamp : Nat) : Nat :=
  p.type + 2 ^ 8 * flags + 2 ^ 16 * p.lane + 2 ^ 32 * (stamp % 2 ^ 32) + 2 ^ 64 * p.sid.toNat + 2 ^ 128 * p.ord.toNat +
    2 ^ 160 * p.opd.toNat + 2 ^ 192 * p.aux.toNat

/-- FLAGS bits of a record. -/
def fLocal : Nat := 1
/-- FAIL. -/
def fFail : Nat := 2
/-- MIS. -/
def fMis : Nat := 4
/-- LATE. -/
def fLate : Nat := 8

/-- The record `k` places after RP of a lane in REPLAY; none at and beyond FP (17 R391). -/
def State.recordAt (s : State) (asid lane k : Nat) : Option Nat :=
  let l := s.laneOf asid lane
  if (l.q - l.p).toNat ≤ k then none else some (memVal s.mem (s.recordLocs asid lane (l.p.toNat + k)))

/-- The record at RP. -/
def State.headRec (s : State) (asid lane : Nat) : Option Nat := s.recordAt asid lane 0

/-- FLAGS of the record at RP; 0 outside REPLAY and on an empty lane. -/
def State.headFlags (s : State) (asid lane : Nat) : Nat :=
  if (s.ctx asid).mode = .replay then (match s.headRec asid lane with | some e => bitsOf e 8 8 | none => 0) else 0

/-- Whether a lane is full, or its unit's buffer of 64 records is, `k` presentations of an open gang counted as written (17
R383, R396). -/
def State.laneFull (s : State) (asid lane k : Nat) : Bool :=
  let l := s.laneOf asid lane
  decide (2 ^ (s.ctx asid).segLog ≤ (l.p - l.q).toNat + k) || decide (64 ≤ l.buf.length + k)

/-- Verdict on a presentation. -/
inductive Admit where
  | go
  | hold
  | diverge (sub : Nat)
  deriving DecidableEq, Repr

/-- Admission of a presentation (17 R391 in REPLAY, R396 in RECORD) against the record `k` places after RP:
the arrivals of an open gang match successive records (10 R273). -/
def State.admitAt (s : State) (p : Present) (k : Nat) : Admit :=
  let x := s.ctx p.asid
  match x.mode with
  | .off => .go
  | .record => if s.laneFull p.asid p.lane k then .hold else .go
  | .replay =>
    if x.stop then .hold
    else
      match s.recordAt p.asid p.lane k with
      | none => if x.endSet then .diverge 0x84 else .hold
      | some e =>
        if bitsOf e 64 64 ≠ p.sid.toNat || bitsOf e 128 32 ≠ p.ord.toNat then .hold
        else if bitsOf e 0 8 ≠ p.type then .diverge 0x80
        else if bitsOf e 160 32 ≠ p.opd.toNat then .diverge 0x81
        else if bitsOf e 192 64 = p.aux.toNat then .go
        else
          match p.kind with
          | .sdig => .diverge 0x82
          | .decision => .diverge 0x83
          | .other => .go

/-- Admission of a presentation against the record at RP. -/
def State.verdict (s : State) (p : Present) : Admit := s.admitAt p 0

/-- The oldest record in a unit's buffer reaches the ring (17 R383). -/
def State.flushLane (s : State) (asid lane : Nat) : State :=
  let l := s.laneOf asid lane
  match l.buf with
  | [] => s
  | r :: rest =>
    { s.modLaneOf asid lane (fun l => { l with buf := rest }) with
      mem := memWrite s.mem (cellsOf (s.recordLocs asid lane (l.p.toNat - l.buf.length)) r.toNat) }

/-- A performed presentation: in RECORD its record takes the number WP and enters the unit's buffer, in REPLAY RP passes it
(17 R383, R388, R391; log 36). The strand's SDIG is the caller's to reset. -/
def State.loggedAs (s : State) (p : Present) (flags : Nat) (stamp : Option Nat) : State :=
  let x := s.ctx p.asid
  let l := s.laneOf p.asid p.lane
  match x.mode with
  | .off => s
  | .record =>
    let bits := BitVec.ofNat 256 (p.record flags (stamp.getD l.p.toNat))
    let s := s.modLaneOf p.asid p.lane fun l => { l with p := l.p + 1, buf := l.buf ++ [bits] }
    if (l.p + 1 - l.q).toNat = 3 * 2 ^ x.segLog / 4 then { s with events := s.events ++ [.highWater p.asid p.lane] } else s
  | .replay =>
    let s := s.modLaneOf p.asid p.lane fun l => { l with p := l.p + 1, waited := 0 }
    if 4 * (l.q - l.p).toNat = 2 ^ x.segLog then { s with events := s.events ++ [.lowWater p.asid p.lane] } else s

/-- A performed presentation of a lane whose STAMP is the record number. -/
def State.logged (s : State) (p : Present) (flags : Nat) : State := s.loggedAs p flags none

/-! ### The op digest (17 R389) -/

/-- The op digest. -/
def opDigest (code : Nat) (place : Word) (operands : List Word) : BitVec 32 :=
  let h := round3 0 (toWord code) 0xC4F13A6B9D27E583
  let h := round3 h place 0xB39D60E51A7C4F29
  (operands.foldl (fun h x => round3 h x 0xE7A25C1983D4B6F1) h).extractLsb' 32 32

/-- The code of an instruction: its MAJ, FN and X fields. -/
def opCode (i : Instr) : Nat :=
  let r := encode i
  r.maj.toNat * 2 ^ 19 + r.fn.toNat * 2 ^ 13 + r.x.toNat

/-! ### Divergence (17 R395) -/

/-- The cores that serve a context. -/
def State.coresOf (s : State) (asid : Nat) : List Nat :=
  (s.cores.filter fun e => e.2.ctxv && e.2.asid == asid).map (·.1)

/-- What bytes 104 to 111 of a divergence report show: the decision computed, of a DECISION; else the SDIG presented (17 Table
17.9). -/
def Present.shown (p : Present) (sub : Nat) : Word := if sub = 0x83 && p.kind == .decision then p.aux else p.val

/-- A divergence at the record `k` places after RP: STOP, the report of 17 Table 17.9, the report to system software, and a
pre-emption request to every core of the context. One raised after STOP is dropped. -/
def State.divergeAt (s : State) (p : Present) (k sub : Nat) (lcore : BitVec 16) (pc : Word) (w : WordId) : State :=
  let x := s.ctx p.asid
  if x.stop then s
  else
    let f : FaultRec :=
      { code := .replayDiverge, sub := BitVec.ofNat 8 sub, deferred := false, word := w, pc, addr := 0 }
    let stamp := match s.recordAt p.asid p.lane k with
      | some e => bitsOf e 32 32
      | none => ((s.laneOf p.asid p.lane).p + BitVec.ofNat 32 k).toNat
    let bits := f.cause.toNat + 2 ^ 64 * p.sid.toNat + 2 ^ 128 * p.ord.toNat + 2 ^ 160 * p.lane +
      2 ^ 176 * lcore.toNat + 2 ^ 192 * stamp + 2 ^ 224 * p.opd.toNat + 2 ^ 256 * pc.toNat + 2 ^ 320 * (p.shown sub).toNat
    let locs := (List.range 64).filterMap fun i => s.physLoc (x.rb.toNat + 64 + i)
    { (s.poke (cellsOf locs bits)).modCtx p.asid (fun x => { x with stop := true }) with
      events := s.events ++ [.divergence p.asid (BitVec.ofNat 512 bits)]
      agenda := (s.coresOf p.asid).map .preemptionRequest ++ s.agenda }

/-- A divergence at the record at RP. -/
def State.diverge (s : State) (p : Present) (sub : Nat) (lcore : BitVec 16) (pc : Word) (w : WordId) : State :=
  s.divergeAt p 0 sub lcore pc w

/-- The fault that a divergence leaves in the strand: the strand is saved FAULTED and takes no handler. -/
def divergeFault (sub : Nat) (pc : Word) (w : WordId) : SState :=
  .faulted { code := .replayDiverge, sub := BitVec.ofNat 8 sub, deferred := false, word := w, pc, addr := 0 }

/-- A divergence of the strand that stands at a place of a core, at the record `k` places after RP. -/
def State.divergeStrandAt (s : State) (c : Nat) (pl : Place) (t : Strand) (p : Present) (k sub : Nat) : State :=
  (s.modPlace c pl fun q => { q with st := divergeFault sub t.pc t.word }).divergeAt p k sub (s.core c).lcore t.pc t.word

/-- A divergence of the strand that stands at a place of a core. -/
def State.divergeStrand (s : State) (c : Nat) (pl : Place) (t : Strand) (p : Present) (sub : Nat) : State :=
  s.divergeStrandAt c pl t p 0 sub

/-- The presentation of the strand that executes for one of its own operations. -/
def State.presentMe (s : State) (lane type : Nat) (opd : BitVec 32) : Present :=
  let p := s.me
  { asid := p.asid.toNat, lane, type, sid := p.sid, ord := p.sord, opd, aux := p.sdig, kind := .sdig, val := p.sdig }

/-- Whether another strand's presentation with the same SID and ORD came to a lane before that of a strand: the first of
those that match a record takes it (17 R391; 04 R97). -/
def State.heldBefore (s : State) (p : Present) (t : Strand) : Bool :=
  (s.ctx p.asid).mode == .replay && (s.coresOf p.asid).any fun c => ((s.core c).strandsWhere fun q => q.own != t.own && q.sid == p.sid && q.sord == p.ord).any fun e =>
      match e.2.heldSince, t.heldSince with
      | some (l, n), some (_, m) => l == p.lane && decide (n < m)
      | some (l, _), none => l == p.lane
      | none, _ => false

/-- A strand at a place comes to wait on its presentation at a lane; one that returns there keeps its turn (17 R391, R392). -/
def Strand.holdAt (p : Strand) (lane no : Nat) : Strand :=
  { p with st := .waiting (.held lane), waitNo := no,
           heldSince := some (match p.heldSince with | some (l, n) => if l = lane then (l, n) else (lane, no) | none => (lane, no)) }

/-- The strand that executes waits on its presentation at a lane (17 R392). -/
def State.holdMe (s : State) (lane : Nat) : State :=
  ((s.modMe fun p => p.holdAt lane s.fresh).tick).reportStep s.cur.1 s.cur.2

/-- A synchronous operation of the strand that executes meets its lane: it goes on, waits on its
presentation, or diverges (17 R391, R392). -/
def State.presented (s : State) (p : Present) (go : State → State) : State :=
  match s.verdict p with
  | .go => if s.heldBefore p s.me then s.holdMe p.lane else go s
  | .hold => s.holdMe p.lane
  | .diverge sub => s.divergeStrand s.cur.1 (.slot s.cur.2) s.me p sub

/-- A performed operation of the strand that executes: recorded, its SDIG reset and counted. -/
def State.loggedMe (s : State) (p : Present) (flags : Nat) : State :=
  let s := s.logged p flags
  let reset := (s.ctx p.asid).mode != .off && p.kind == .sdig
  s.modMe fun t => { t.countOp with sdig := if reset then 0 else t.sdig }

/-- The strand of a core whose wait satisfies a predicate. -/
def State.waiter (s : State) (c : Nat) (p : Wait → Bool) : Option (Place × Strand) :=
  ((s.core c).strandsWhere fun t => (t.wait?.map p).getD false).head?

/-- SDIG of a strand after a record that carries it (17 R388). -/
def State.resetSdig (s : State) (asid : Nat) (t : Strand) : Strand :=
  if (s.ctx asid).mode = .off then t else { t with sdig := 0 }

end Sys2Proof.Machine
end

