-- ==== Sys2Proof/Machine/GangUnit.lean ====
section
/-! DEFINITION. The gang unit: arrivals, joins, aborts and joint mode (10 R269 to R273). -/

namespace Sys2Proof.Machine

/-- Gang `g` of a cluster. -/
def State.gang (s : State) (k g : Nat) : Gang := vget Gang.blank (s.clu k).gangs g

/-- Changes a gang. -/
def State.modGang (s : State) (k g : Nat) (f : Gang → Gang) : State :=
  s.modClu k fun u => { u with gangs := vset u.gangs g (f (vget Gang.blank u.gangs g)) }

/-- Bit of a core in the masks of its cluster. -/
def cixBit (c : Nat) : BitVec 4 := 1 <<< coreCIX c

/-- The presentation of an arrival (17 Table 17.5, GANG). -/
def State.gangPresent (s : State) (k : Nat) (a : GangArr) (t : Strand) : Present :=
  { asid := t.asid.toNat, lane := s.cluLane k, type := 0x06, sid := t.sid, ord := t.sord, opd := a.opd, aux := t.sdig,
    kind := .sdig, val := t.sdig }

/-- The arrived strand of an arrival. -/
def State.arrived? (s : State) (g : Nat) (a : GangArr) : Option (Place × Strand) :=
  ((s.core a.core).strandsWhere fun t =>
    t.own == a.own && (match t.wait? with | some (.gang n) => n.toNat == g | _ => false)).head?

/-- JM falls: the entries of the members' queues run unpaired (10 R271, R272). -/
def State.clearJoint (s : State) (k g : Nat) : State :=
  let ms := (s.gang k g).members
  let s := s.modGang k g fun x => { x with jm := false, members := [] }
  ms.foldl (fun s m => s.modCore m.1 fun u =>
    { u with mtx := { u.mtx with joint := none, queue := u.mtx.queue.map fun e => { e with pair := none } } }) s

/-- The join of a gang: every arrived strand retires with MASK, its rank and GEN, in arrival order (10 R270);
JOINT is that of the completing arrival. -/
def State.joinGang (s : State) (k g : Nat) (joint : Bool) : State :=
  let x := s.gang k g
  let s := s.clearJoint k g
  let s := x.arrived.foldl (fun s a =>
    match s.arrived? g a with
    | none => s
    | some (pl, t) =>
      let rank := bitCount 4 (x.mask.toNat % 2 ^ coreCIX a.core)
      let v := toWord (x.mask.toNat * 2 ^ 16 + rank * 2 ^ 8 + x.gen.toNat)
      let p := s.gangPresent k a t
      let s := s.logged p (if a.mask = x.mask then 0 else fMis)
      let s := s.modPlace a.core pl fun q => s.resetSdig p.asid q.countOp
      s.endWait a.core pl a.d v) s
  let id := s.fresh
  let s := s.modGang k g fun x =>
    { x with gen := x.gen + 1, opn := false, arr := 0, arrived := [], jm := joint,
             members := if joint then x.arrived.map fun a => (a.core, a.own) else [] }
  if joint then
    (x.arrived.foldl (fun s a => s.modCore a.core fun u => { u with mtx := { u.mtx with joint := some id, streams := 0 } })
      s).tick
  else s

/-- Whether an arrival must wait for the next generation: its core has arrived in the open one. -/
def Gang.taken (x : Gang) (a : GangArr) : Bool := x.opn && x.arr &&& cixBit a.core != 0

/-- Whether REPLAY holds an arrival before the gang unit acts on it (10 R273; 17 R391, R392): the next record of the lane that no
arrival of the open generation has matched is not its, or another strand of its SID came first. -/
def State.gangTurn (s : State) (k g : Nat) (a : GangArr) (t : Strand) : Bool :=
  let p := s.gangPresent k a t
  (s.ctx p.asid).mode != .replay || (s.admitAt p (s.gang k g).arrived.length != .hold && !s.heldBefore p t)

/-- An arrival at a gang (10 R270), of a strand that waits in its GANG at a place. -/
def State.arriveGang (s : State) (k g : Nat) (a : GangArr) (pl : Place) (t : Strand) : State :=
  if !s.gangTurn k g a t then (s.modPlace a.core pl fun q => q.holdAt (s.cluLane k) s.fresh).tick
  else
  let x := s.gang k g
  let x := if x.opn then { x with mis := x.mis || a.mask != x.mask } else { x with opn := true, mask := a.mask, arr := 0 }
  if x.mask &&& cixBit a.core = 0 then
    (s.modGang k g fun _ => x).faultPlace a.core pl
      { code := .prot, sub := 0x52, deferred := false, word := t.word, pc := t.pc, addr := 0 }
  else if (s.gang k g).taken a then s.modGang k g fun _ => { x with held := x.held ++ [a] }
  else
    let p := s.gangPresent k a t
    let open_ := if (s.ctx p.asid).mode = .replay then x.arrived.length
      else (((List.range 4).map fun n => (s.gang k n).arrived.length).sum)
    match s.admitAt p open_ with
    | .hold => (s.modPlace a.core pl fun q => q.holdAt p.lane s.fresh).tick
    | .diverge sub => s.divergeStrandAt a.core pl t p open_ sub
    | .go =>
      let x := { x with arr := x.arr ||| cixBit a.core, arrived := x.arrived ++ [a] }
      let s := s.modGang k g fun _ => x
      if x.arr = x.mask then s.joinGang k g a.joint else s

/-- Arrivals held for the end of a generation arrive again, in their order, while their cores have not arrived
in the open one. The count bounds the arrivals. -/
def State.readmit (k g : Nat) : Nat → State → State
  | 0, s => s
  | n + 1, s =>
    let x := s.gang k g
    match x.held.find? fun a => !x.taken a with
    | none => s
    | some a =>
      let s := s.modGang k g fun x => { x with held := x.held.erase a }
      State.readmit k g n (match s.arrived? g a with | some (pl, t) => s.arriveGang k g a pl t | none => s)

/-- Held arrivals are considered after the end of a generation. -/
def State.settleGang (s : State) (k g : Nat) : State :=
  let x := s.gang k g
  if x.opn then s else State.readmit k g x.held.length s

/-- GANG_ABORT of an arrival: at once in a core in RUN, else in the reply area (10 R272, 07 R202). -/
def State.abortArrival (s : State) (g : Nat) (a : GangArr) : State :=
  match s.arrived? g a with
  | none => s
  | some (pl, t) =>
    match (s.core a.core).phase, pl with
    | .run, _ | _, .park _ => s.faultPlace a.core pl
        { code := .gangAbort, sub := 0, deferred := false, word := t.word, pc := t.pc, addr := 0 }
    | _, .slot n => s.putReply a.core (.gangAbort n)

/-- The abort of a gang (10 R272); a core that is not in RUN has its held arrivals dropped, for they arrive
again when it resumes. -/
def State.abortGang (s : State) (k g : Nat) : State :=
  let x := s.gang k g
  let s := x.arrived.foldl (fun s a => s.abortArrival g a) s
  let s := s.clearJoint k g
  let s := s.modGang k g fun x =>
    { x with gen := x.gen + 1, opn := false, arr := 0, jm := false, arrived := [],
             held := x.held.filter fun a => (s.core a.core).phase == .run }
  s.settleGang k g

/-- The gangs of a cluster that satisfy a predicate abort. -/
def State.abortGangs (s : State) (k : Nat) (p : Gang → Bool) : State :=
  (List.range 4).foldl (fun s g => if p (s.gang k g) then s.abortGang k g else s) s

/-- The EXIT of a joint member sets JM to 0 and aborts nothing (10 R272). -/
def State.leaveGangs (s : State) (c own : Nat) : State :=
  let k := coreClu c
  (List.range 4).foldl (fun s g =>
    if (s.gang k g).members.any fun m => m.1 == c && m.2 == own then s.clearJoint k g else s) s

/-- The delivery of a fault to a joint member aborts its gangs (10 R272). -/
def State.faultGangs (s : State) (c own : Nat) : State :=
  s.abortGangs (coreClu c) fun x => x.members.any fun m => m.1 == c && m.2 == own

end Sys2Proof.Machine
end

