-- ==== Sys2Proof/Machine/Life.lean ====
section
/-! DEFINITION. Creation and end of strands, launches, packets and contexts (04 R98, 06 R172, 07 R193,
18 R404, R411, R412, 19 R421). -/

namespace Sys2Proof.Machine

/-! ### Delay accumulators and activations (19 R421, R422, R434) -/

/-- Accumulator that receives a message from a sender; none when no key matches. -/
def Core.accOf (k : Core) (sender : Nat) : Option Nat :=
  if k.dlyCfg.getLsbD 0 then
    (List.range 64).find? fun i => (tget 0 k.dlyKey i).getLsbD 16 && wfld (tget 0 k.dlyKey i) 0 16 == sender
  else some (if sender = 0xFFFF then 63 else sender % 64)

/-- A sum that saturates at 2^64 − 1. -/
def satAdd (x : Word) (n : Nat) : Word := toWord (Nat.min (x.toNat + n) (2 ^ 64 - 1))

/-- Adds one to a 32-bit count held in the high or the low half of a word. -/
def bump (x : Word) (hi : Bool) : Word :=
  if hi then toWord ((wfld x 32 32 + 1) % 2 ^ 32 * 2 ^ 32 + wfld x 0 32)
  else toWord (wfld x 32 32 * 2 ^ 32 + (wfld x 0 32 + 1) % 2 ^ 32)

/-- Adds a message's figures to the accumulator of its sender. -/
def Core.account (k : Core) (sender : Nat) (f : Tbl Word → Nat → Tbl Word) : Core :=
  match k.accOf sender with
  | some i => { k with dlyAcc := f k.dlyAcc (4 * i) }
  | none => { k with dlyCfg := bump k.dlyCfg true }

/-- A refused message (19 R421). -/
def Core.accRefused (k : Core) (sender : Nat) : Core :=
  k.account sender fun t i => tput t i (bump (tget 0 t i) true)

/-- A handler strand that ends: transit, wait and run (19 R421). -/
def Core.accHandled (k : Core) (sender transit wait run : Nat) : Core :=
  k.account sender fun t i =>
    let t := tput t i (bump (tget 0 t i) false)
    let t := tput t (i + 1) (satAdd (tget 0 t (i + 1)) transit)
    let t := tput t (i + 2) (satAdd (tget 0 t (i + 2)) wait)
    tput t (i + 3) (satAdd (tget 0 t (i + 3)) run)

/-- Activation name of a handler strand in a slot of a core (19 R434). -/
def State.activationName (s : State) (c sl : Nat) (m : MsgFacts) : Word :=
  let site := coreSite c
  let md :=
    match s.coreOfL site m.sender.toNat with
    | some k => if coreSite k = site then 0 else wfld (s.route site (coreSite k)) 62 2
    | none => wfld (s.route site spineSite) 62 2
  toWord (m.sender.toNat * 2 ^ 48 + md * 2 ^ 46 + sl * 2 ^ 40 + wfld m.payload0 0 32)

/-! ### Creation (04 R98) -/

/-- A strand of a ranged or timed launch (04 Table 04.5). Only a pager core's strands carry privilege, and
no launch places on it (04 R92, 11 R304). -/
def State.launchedStrand (s : State) (asid : Nat) (lh : BitVec 32) (lidx : Nat) : Strand :=
  let x := s.ctx asid
  let l := s.launch asid lh.toNat
  { Strand.blank with
    pc := pcOf l.entry, asid := BitVec.ofNat 12 asid, kind := .launched, sec := x.sec,
    g := vset (Vector.replicate 16 0) 0 (toWord lidx),
    sid := toWord (l.ln.toNat * 2 ^ 32 + lidx % 2 ^ 32), lidx := toWord lidx, lh }

/-- SID of the handler strand of a message (04 Table 04.4). -/
def ActMsg.handlerSid (m : ActMsg) : Word := toWord (2 * 2 ^ 62 + sidmix m.sid (m.ord.setWidth 64))

/-- The handler strand of a message that takes its slot at a TIME (04 Table 04.5, 16 R370). -/
def ActMsg.strand (m : ActMsg) (now : Word) : Strand :=
  let g := (List.range 6).foldl (fun g i => vset g i (vget 0 m.payload i)) (Vector.replicate 16 0)
  { Strand.blank with
    pc := pcOf m.handler, asid := m.asid, kind := .message, sec := m.sec, sup := m.sup, pager := m.pager,
    g := vset (vset g 6 m.sid) 7 m.sent,
    sid := m.handlerSid, lidx := 0xFFFFFFFFFFFFFFFF, lh := m.lh,
    msg := some { sender := m.lcore, sent := m.sent, arrived := m.arrived, activated := now,
                  payload0 := vget 0 m.payload 0 } }

/-- A strand takes a free slot of a core: its age starts again (07 R180), and one that is new gets its number. On a core
that is stopping or stopped it is stopped, unless it is a message handler (19 R425). One that comes FAULTED waits for a holder
(04 R112). -/
def State.occupy (s : State) (c sl : Nat) (p : Strand) : State :=
  let stop := wfld (s.core c).dbg 4 2 != 0 && p.kind != .message
  let own := if p.own = 0 then s.fresh + 1 else p.own
  let q : Strand := { p with own, age := 0, stopped := p.stopped || stop }
  let s := s.tick.putStrand c sl q
  let s := if stop && !p.stopped then s.trace c q.stopRec else s
  match p.st with
  | .faulted _ => s.modCore c fun k => { k with faultQ := k.faultQ ++ [sl] }
  | _ => s

/-- A message takes a slot of its core, with its trace record (19 Table 19.4). -/
def State.activate (s : State) (c sl : Nat) (m : ActMsg) : State :=
  let p := m.strand s.spine.time
  let s := s.occupy c sl p
  match p.msg with
  | some f => s.trace c { type := 2, handler := true, fused := false, ret := false, sid := p.sid, pc := p.pc,
                          aux := s.activationName c sl f }
  | none => s

/-! ### Rows (07 R190 to R193) -/

/-- Rows of the register file that no strand of a core holds. -/
def Core.freeRows (k : Core) : List Nat :=
  let held := k.slots.flatMap (·.2.rows) ++ k.holders.flatMap (·.2.2.rows)
  (List.range 64).filter fun r => !held.contains r

/-- The parked strands that are restorable, in the order in which they became so. -/
def Core.restorables (k : Core) : List (Nat × ParkEntry) :=
  sortBy (fun a b => decide (a.2.restorable.getD 0 ≤ b.2.restorable.getD 0))
    (k.park.filter fun e => e.2.restorable.isSome)

/-- Rows that some restorable strands need. -/
def rowsNeeded (l : List (Nat × ParkEntry)) : Nat := (l.map fun e => e.2.blocks.length).sum

/-- Rows that a VGROW may take: those that restorable strands need are theirs first (07 R193). -/
def Core.rowsLeft (k : Core) : List Nat := k.freeRows.drop (rowsNeeded k.restorables)

/-- A strand's list grows by rows, whose registers become zero (08 R209). -/
def State.giveRows (s : State) (c sl : Nat) (rows : List Nat) : State :=
  let s := s.modStrand c sl fun p => { p with rows := p.rows ++ rows }
  (rows.flatMap fun r => locsFrom (6 * r) 6).foldl (fun s n => (s.modCore c fun k => k.setV n 0).watchV c sl n) s

/-- The waiting VGROWs of a core in age order: place, blocks wanted, age, blocks held. A parked one keeps its blocks in the
spill map. -/
def Core.growers (k : Core) : List (Place × Nat × Nat × Nat) :=
  let slots := k.slots.filterMap fun e =>
    match e.2.wait? with
    | some (.rows n) => some (Place.slot e.1, n, e.2.age, e.2.rows.length)
    | _ => none
  let parked := k.park.filterMap fun e =>
    match e.2.strand.wait?, e.2.restorable with
    | some (.rows n), none => some (Place.park e.1, n, e.2.strand.age, e.2.blocks.length)
    | _, _ => none
  sortBy (fun a b => decide (b.2.2.1 ≤ a.2.2.1)) (slots ++ parked)

/-- Waiting VGROWs whose rows have fallen free retire, the greatest age first; one that fits is served though an older one
does not (07 R193; log 34). A parked one, whose whole allotment fits, becomes restorable and executes its VGROW again. -/
def State.settleRows (s : State) (c : Nat) : State :=
  (s.core c).growers.foldl (fun s w =>
    let free := (s.core c).rowsLeft
    match w.1 with
    | .slot n =>
      if w.2.1 - w.2.2.2 ≤ free.length then (s.giveRows c n (free.take (w.2.1 - w.2.2.2))).endWait c (.slot n) .none 0 else s
    | .park n => if w.2.1 ≤ free.length then s.modPlace c (.park n) Strand.again else s) s

/-- Locations of the 384 bytes of block `j` of the parked-block area of a core (07 Table 07.9). -/
def State.areaLocs (s : State) (c j : Nat) : List Nat := s.areaFrom (s.core c).savea (0x18000 + 384 * j) 384

/-- Whether a core has a parked-block area: SAVEA has been written, and the area lies in HBM4E (07 R200; log 34). -/
def State.areaThere (s : State) (c : Nat) : Bool :=
  let a := (s.core c).savea
  a != 0 && (s.physLoc (a.toNat + 0x18000)).isSome && (s.physLoc (a.toNat + 0x1DFFF)).isSome

/-- The places of spilled blocks in the order in which they are taken (07 R191): the 128 spill slots of each set that is
free for spill, then the 64 blocks of the parked-block area. -/
def State.spillPlaces (s : State) (c : Nat) : List SpillLoc :=
  let sets := (List.range 4).filter fun a => (vget AccSet.blank (s.core c).mtx.acc a).free
  (sets.flatMap fun a => (List.range 128).map (SpillLoc.acc a)) ++
    if s.areaThere c then (List.range 64).map SpillLoc.area else []

/-- The places that no block takes. -/
def State.freePlaces (s : State) (c : Nat) : List SpillLoc :=
  let used := (s.core c).park.flatMap fun e => e.2.blocks
  (s.spillPlaces c).filter fun x => !used.contains x

/-- The six registers of a spilled block: spill slot `j` of a set is cells 96j to 96j + 95. -/
def State.blockAt (s : State) (c : Nat) (x : SpillLoc) : List VReg :=
  match x with
  | .acc a j =>
    let t := vget AccSet.blank (s.core c).mtx.acc a
    (List.range 6).map fun q =>
      BitVec.ofNat 512 (((List.range 16).map fun i => (tget 0 t.cells (96 * j + 16 * q + i)).toNat * 2 ^ (32 * i)).sum)
  | .area j =>
    let v := memVal s.mem (s.areaLocs c j)
    (List.range 6).map fun q => BitVec.ofNat 512 (v / 2 ^ (512 * q))

/-- A block is copied out to a place. -/
def State.putBlock (s : State) (c : Nat) (x : SpillLoc) (regs : List VReg) : State :=
  match x with
  | .acc a j =>
    let cells := (regs.zip (List.range 6)).flatMap fun r =>
      (List.range 16).map fun i => (96 * j + 16 * r.2 + i, r.1.extractLsb' (32 * i) 32)
    let put (t : AccSet) : AccSet :=
      { t with cells := cells.foldl (fun t e => if e.2 = 0 then tdel t e.1 else tput t e.1 e.2) t.cells }
    s.modCore c fun k => { k with mtx := { k.mtx with acc := vset k.mtx.acc a (put (vget AccSet.blank k.mtx.acc a)) } }
  | .area j =>
    s.poke (cellsOf (s.areaLocs c j) ((regs.zip (List.range 6)).map fun r => r.1.toNat * 2 ^ (512 * r.2)).sum)

/-- The cells of a place that a block leaves are +0, as the MCLR left them (09 R254; log 34). -/
def State.clearBlock (s : State) (c : Nat) (x : SpillLoc) : State :=
  match x with
  | .acc a j =>
    let clear (t : AccSet) : AccSet := { t with cells := t.cells.filter fun e => e.1 / 96 != j }
    s.modCore c fun k => { k with mtx := { k.mtx with acc := vset k.mtx.acc a (clear (vget AccSet.blank k.mtx.acc a)) } }
  | .area _ => s

/-- Parks the strand in a slot (07 R190): its state and its blocks move to a park entry and to spill places, and its rows
and slot are free. The elements that its streams had read ahead are discarded (17 R394). -/
def State.parkStrand (s : State) (c sl : Nat) : State :=
  let k := s.core c
  match tfind k.slots sl, (List.range 64).find? fun n => (tfind k.park n).isNone with
  | some p, some n =>
    let blocks := (s.freePlaces c).take p.rows.length
    let e : ParkEntry :=
      { strand := { p with rows := [], latches := [none, none, none], streams := p.streams.map fun b => { b with ahead := [] } },
        blocks, restorable := none, slot := none }
    let s := (p.rows.zip blocks).foldl (fun s r => s.putBlock c r.2 ((locsFrom (6 * r.1) 6).map k.vreg)) s
    s.modCore c fun k => { k with slots := tdel k.slots sl, park := tput k.park n e }
  | _, _ => s

/-- Whether a core serves a context now: it may have been given other work since one was saved (07 R177). -/
def Core.serves (k : Core) (asid : BitVec 12) : Bool := k.ctxv && k.asid == asid.toNat

/-- The strands that a STALE migration returns to a core (11 R310). -/
def State.returning (s : State) (c : Nat) : List MigOp :=
  s.migs.filter fun m => m.src == c && m.stage == .stale && (s.core c).serves m.strand.asid

/-- The claims of the first class on a slot of a core, each by the number that orders it: restorable parked strands without a
slot, and strands that a STALE migration returns (07 Table 07.1, R193; 11 R310). -/
def State.firstClaims (s : State) (c : Nat) : List Nat :=
  (((s.core c).restorables.filter fun e => e.2.slot.isNone).map fun e => e.2.restorable.getD 0) ++ (s.returning c).map (·.since)

/-- Whether a claim of the first class is the next in arrival order (07 R178). -/
def State.firstOf (s : State) (c no : Nat) : Bool := (s.firstClaims c).all fun n => decide (no ≤ n)

/-- Claims of a core's free slots that are not served yet: those of the first class, the spill queue, the migration queue and the
input buffer (07 R178, R203). -/
def State.pendingClaims (s : State) (c : Nat) : Nat :=
  (s.firstClaims c).length + (s.core c).spillQ.length + (s.core c).migQ.length + (s.core c).inbuf.length

/-- The free slot that a SPAWN child takes: the lowest that no claim of Table 07.1 takes first (07 R178; log 34). -/
def State.spareSlot (s : State) (c : Nat) : Option Nat := ((s.core c).freeSlots.drop (s.pendingClaims c)).head?

/-- The slot whose strand parks first: the greatest age, then the lowest slot (07 R190). -/
def Core.oldest (k : Core) (p : Strand → Bool) : Option Nat :=
  ((k.slots.filter fun e => p e.2).foldl (fun (r : Option (Nat × Nat)) e =>
    match r with
    | some (n, a) => if a < e.2.age then some (e.1, e.2.age) else some (n, a)
    | none => some (e.1, e.2.age)) none).map (·.1)

/-- Whether a strand is WAITING on a presentation (04 Table 04.6; 17 R392, R396): one that it makes again itself, or that of an
operation which was returned or is held where it stands. -/
def State.presHeld (s : State) (p : Strand) : Bool :=
  match p.wait? with
  | some (.held _) => true
  | some (.reply id) => (s.atoms.any fun a => a.id == id && a.heldUp) || s.sends.any fun m => m.id == id && m.stage == .returned
  | _ => false

/-- Whether a strand is replay-held (17 R392). -/
def State.replayHeld (s : State) (p : Strand) : Bool := (s.ctx p.asid.toNat).mode == .replay && s.presHeld p

/-- A candidate for parking (07 R190). -/
def State.parkable (s : State) (p : Strand) : Bool :=
  !p.rows.isEmpty && p.streams.isEmpty &&
    match p.st with
    | .waiting (.gang _) => false
    | .waiting w => w.listed || s.presHeld p
    | .sleeping _ => true
    | _ => false

/-- Parks candidates until `n` rows may be taken or none is left (07 R190); the count bounds the parkings. None is parked
while the park table is full, or where the blocks of the next one have no place left: the VGROW then waits (log 34). -/
def State.parkFor (c n : Nat) : Nat → State → State
  | 0, s => s
  | m + 1, s =>
    if n ≤ (s.core c).rowsLeft.length || 64 ≤ (s.core c).park.length then s
    else
      match (s.core c).oldest s.parkable with
      | some sl =>
        if (s.freePlaces c).length < (s.strandAt c sl).rows.length then s else State.parkFor c n m (s.parkStrand c sl)
      | none => s

/-- A free slot for a claim that is next on its lane: in REPLAY the core parks a replay-held strand when every slot is occupied
(17 R394), the oldest whose blocks have places; the rows that fall free are granted (07 R193; log 34). -/
def State.claimSlot (s : State) (c : Nat) : State × Option Nat :=
  match (s.core c).freeSlot with
  | some n => (s, some n)
  | none =>
    match (s.core c).oldest fun p => s.replayHeld p && decide (p.rows.length ≤ (s.freePlaces c).length) with
    | some sl =>
      let s := (s.parkStrand c sl).settleRows c
      (s, (s.core c).freeSlot)
    | none => (s, none)

/-- The free slot of a core for an arrival of a context that has been admitted. -/
def State.slotFor (s : State) (c : Nat) (asid : BitVec 12) : State × Option Nat :=
  if (s.ctx asid.toNat).mode == .replay then s.claimSlot c else (s, (s.core c).freeSlot)

/-! ### The spill queue and the replies of saved images (07 R202; 16 R368) -/

/-- Word `i` of an active message (16 Table 16.3). -/
def ActMsg.word (m : ActMsg) (i : Nat) : Word :=
  match i with
  | 0 => m.handler
  | 7 => m.sid
  | 8 => m.sent
  | 9 => toWord (m.lh.toNat * 2 ^ 32 + m.ord.toNat)
  | 10 => toWord ((m.urg.toNat * 2 ^ 7 + m.pcnt.toNat) * 2 ^ 16 + m.lcore.toNat)
  | 11 => m.arrived
  | n => if n ≤ 6 then vget 0 m.payload (n - 1) else 0

/-- A message with word `i` replaced. -/
def ActMsg.setWord (m : ActMsg) (i : Nat) (v : Word) : ActMsg :=
  match i with
  | 0 => { m with handler := v }
  | 7 => { m with sid := v }
  | 8 => { m with sent := v }
  | 9 => { m with ord := v.setWidth 32, lh := v.extractLsb' 32 32 }
  | 10 => { m with lcore := v.setWidth 16, pcnt := v.extractLsb' 16 3, urg := v.getLsbD 23 }
  | 11 => { m with arrived := v }
  | n => if n ≤ 6 then { m with payload := vset m.payload (n - 1) v } else m

/-- The 128 bytes of a message (16 R368). -/
def ActMsg.bits (m : ActMsg) : Nat := ((List.range 16).map fun i => (m.word i).toNat * 2 ^ (64 * i)).sum

/-- Entries of the spill queue at a core's SAVEA that a saved image holds ahead of those of the core itself. -/
def State.spillBase (s : State) (c : Nat) : Nat :=
  ((s.saved.find? fun v => v.stashed && v.image.savea == (s.core c).savea).map fun v => v.image.spillQ.length).getD 0

/-- An arrival goes to the end of the spill queue of a core, a message in the layout of Table 16.3 (07 R202; 16 R368). -/
def State.spill (s : State) (c : Nat) (x : SpillItem) : State :=
  let a := (s.core c).savea
  let o := 0x200000 + 128 * (s.spillBase c + (s.core c).spillQ.length)
  let s : State :=
    match x with
    | .msg m => s.poke (cellsOf (s.areaFrom a o 128) m.bits)
    | .mig _ => s.putFree a o 128
  s.modCore c fun k => { k with spillQ := k.spillQ ++ [x] }

/-- A reply for a strand of saved images is written to the reply area of each that satisfies a predicate (04 R113). -/
def State.imageReply (s : State) (mine : Saved → Bool) (r : Saved → ReplyItem) : State :=
  let s := (s.saved.filter mine).foldl (fun (s : State) v => s.putFree v.image.savea (0x9000 + 16 * v.image.replies.length) 16) s
  let put (v : Saved) : Saved := { v with image := { v.image with replies := v.image.replies ++ [r v] } }
  { s with saved := mapWhere mine put s.saved }

/-! ### Writes to memory -/

/-- The writes that satisfy a predicate and are still on their way are performed, a replicated one at every replica. -/
def State.landWrites (s : State) (p : WriteUnit → Bool) : State :=
  (s.writes.filter p).foldl (fun s w =>
    s.poke (if w.repl then s.replCells w else w.cells))
    { s with writes := s.writes.filter fun w => !p w }

/-! ### The Spine's accesses to a context's global memory (18 R405, R411, R417) -/

/-- A cluster number that no cluster has: the Spine walks without a walk cache. -/
def noCluster : Nat := 2 ^ 20

/-- The page and physical address that a context's tables give a virtual address. -/
def State.spineXlate (s : State) (asid : Nat) (va : Word) : Option (Page × Nat) :=
  if va.toNat < 2 ^ 55 then
    match (s.walkTables noCluster (BitVec.ofNat 12 asid) va).leaf with
    | some (big, e) =>
      let t : TlbEntry :=
        { asid := 0, glob := false, sec := false, big, vp := 0, pte := e, set := 0, way := 0 }
      some (ptePage e, t.phys va)
    | none => none
  else none

/-- Whether a context's page at an address, and the granule or block that it reaches, are of the context's world (18 R417). -/
def State.spineWorldOk (s : State) (asid : Nat) (va : Word) : Bool :=
  match s.spineXlate asid va with
  | some (p, pa) => p.sec == (s.ctx asid).sec && ((s.physLoc pa).map (s.worldOk p.sec)).getD true
  | none => true

/-- Addresses of the lines that a range touches: its first byte, and the start of every later line. -/
def lineStarts (a : Word) (n : Nat) : List Word :=
  if n = 0 then []
  else a :: (locsFrom 1 ((a.toNat % 64 + n + 63) / 64 - 1)).map fun i => toWord ((a.toNat / 64 + i) * 64)

/-- Whether a range is of a context's world: worlds change at no place within a line. -/
def State.spineRangeOk (s : State) (asid : Nat) (a : Word) (n : Nat) : Bool := (lineStarts a n).all (s.spineWorldOk asid)

/-- What translates the addresses of an agent at no core. -/
abbrev Xlate := Word → Option (Page × Nat)

/-- Locations of `n` bytes of global memory; a byte that is not mapped has none. -/
def State.locsBy (s : State) (x : Xlate) (va : Word) (n : Nat) : List (Option Nat) :=
  (List.range n).map fun i =>
    match x (va + toWord i) with
    | some (_, pa) => s.physLoc pa
    | none => none

/-- Whether the page at an address is replicated. -/
def Xlate.repl (x : Xlate) (va : Word) : Bool := ((x va).map fun e => e.1.repl).getD false

/-- Locations of `n` bytes of a context's global memory, as its tables map them. -/
def State.spineLocs (s : State) (asid : Nat) (va : Word) (n : Nat) : List (Option Nat) := s.locsBy (s.spineXlate asid) va n

/-- Whether a context's page at an address is replicated. -/
def State.spineRepl (s : State) (asid : Nat) (va : Word) : Bool := Xlate.repl (s.spineXlate asid) va

/-- REPSET of the partition of a context. -/
def State.ctxReps (s : State) (asid : Nat) : BitVec 48 := (s.partn (s.ctx asid).part).repset

/-- Locations from which an agent at a site reads `n` bytes of a context's global memory: of a replicated page those of the
nearest replica (14 R342). -/
def State.readBy (s : State) (x : Xlate) (site asid : Nat) (va : Word) (n : Nat) : List (Option Nat) :=
  ((s.locsBy x va n).zip (List.range n)).map fun y => y.1.map fun l =>
    if x.repl (va + toWord y.2) then locHbm (s.nearest site (s.ctxReps asid) (l / 2 ^ 36)) (l % 2 ^ 36) else l

/-- Those of an agent that walks the context's tables. -/
def State.readLocs (s : State) (site asid : Nat) (va : Word) (n : Nat) : List (Option Nat) :=
  s.readBy (s.spineXlate asid) site asid va n

/-- The value of `n` bytes; a byte that is not mapped reads 0. -/
def State.spineRead (s : State) (asid : Nat) (va : Word) (n : Nat) : Nat :=
  leNat ((s.readLocs spineSite asid va n).map fun l => match l with | some l => s.settledByte l | none => 0)

/-! ### Runnable queues (18 R407, R414) -/

/-- Header of the packet at a position of a queue's ring. -/
def State.ringHeader (s : State) (x : Queue) (pos : Nat) : Nat :=
  s.spineRead x.asid (x.qcb.ring + toWord (128 * (pos % 2 ^ x.qcb.n))) 8

/-- Whether the packet at a position is valid (18 R407). -/
def State.packetValid (s : State) (x : Queue) (pos : Nat) : Bool :=
  bitsOf (s.ringHeader x pos) 8 1 == (pos / 2 ^ x.qcb.n + 1) % 2

/-- Whether a queue is runnable (18 R414). -/
def State.queueRunnable (s : State) (x : Queue) : Bool := x.pending || s.packetValid x x.qcb.readPos

/-- The runnable mark of every queue; one that has become runnable since TIME last advanced waits from now. -/
def State.markRunnable (s : State) : State :=
  let now := s.spine.time
  s.modSpine fun z => { z with queues := z.queues.map fun e =>
    let r := s.queueRunnable e.2
    (e.1, { e.2 with runnable := r, since := if r && !e.2.runnable then now else e.2.since }) }

/-- TIME advances by some ns: what became runnable before it did so waits from then on (18 R414). -/
def State.advanceTime (s : State) (ns : Nat) : State := s.markRunnable.modSpine fun z => z.advance ns

/-- An answer of the RV64GC core to a command (23 R453). -/
def State.respond (s : State) (ok : Bool) (v : Word) : State := { s with events := s.events ++ [.response ok v] }

/-- Bytes of a context's global memory that an agent at no core writes, on the remote path: they are performed, but those of
replicated pages leave by the two steps of 15 R359, under the agent's number. -/
def State.writeBy (s : State) (x : Xlate) (agent asid : Nat) (va : Word) (bs : List Byte) : State :=
  let cells (repl : Bool) : List (Word × Host.Cell) :=
    ((s.locsBy x va bs.length).zip (bs.zip (List.range bs.length))).filterMap fun y =>
      let a := va + toWord y.2.2
      if x.repl a == repl then y.1.map fun l => (a, l, y.2.1) else none
  let near := (cells false).map (·.2)
  ((s.poke near).watchRange true (near.map Prod.fst) none 0 0 5).replUnits agent 0 0 0 (s.ctxReps asid) (cells true)

/-- Those of an agent that walks the context's tables. -/
def State.ctxWrite (s : State) (agent asid : Nat) (va : Word) (bs : List Byte) : State :=
  s.writeBy (s.spineXlate asid) agent asid va bs

/-- Bytes of a context's global memory that an agent at no core reads, on the remote path, with their watchpoints (19 R431). -/
def State.watchRead (s : State) (asid : Nat) (va : Word) (n : Nat) : State :=
  s.watchRange false ((s.spineLocs asid va n).filterMap id) none 0 0 5

/-- Writes `n` bytes of a value for the Spine; a byte that is not mapped is not written. -/
def State.spineWrite (s : State) (asid : Nat) (va : Word) (n v : Nat) : State :=
  s.ctxWrite s.fresh asid va (leBytes n v)

/-! ### Packets and launches (18 R411, R412) -/

/-- What a completion record says of a packet. -/
structure Completion where
  asid : Nat
  queue : Nat
  pos : Word
  tag : BitVec 32
  type : BitVec 8
  status : Nat
  code : Nat
  late : Bool
  notify : Bool
  deriving DecidableEq, Repr

/-- A queue's record. -/
def State.queue? (s : State) (q : Nat) : Option Queue := tfind s.spine.queues q

/-- Changes a queue's record. -/
def State.modQueue (s : State) (q : Nat) (f : Queue → Queue) : State :=
  match s.queue? q with
  | some x => s.modSpine fun p => { p with queues := tput p.queues q (f x) }
  | none => s

/-- A packet completes: a 16-byte record in the queue's completion ring when NOTIFY is set or its status is not
zero (18 R411). -/
def State.completePacket (s : State) (x : Completion) : State :=
  match s.queue? x.queue with
  | none => s
  | some q =>
    let s := s.modQueue x.queue fun q => { q with open_ := q.open_.filter fun p => p.pos != x.pos.toNat }
    if x.notify || x.status != 0 then
      let v := x.tag.toNat + 2 ^ 32 * (x.type.toNat + 2 ^ 8 * (x.status + 2 ^ 8 * (x.code + 2 ^ 8 *
        (x.late.toNat + 2 ^ 8 * x.pos.toNat))))
      let i := if q.qcb.compSize = 0 then 0 else q.comps % q.qcb.compSize
      (s.spineWrite x.asid (q.qcb.compRing + toWord (16 * i)) 16 v).modQueue x.queue fun q => { q with comps := q.comps + 1 }
    else s

/-- Every active message that a core holds. -/
def Core.allMsgs (k : Core) : List ActMsg :=
  k.inbuf ++ k.spillQ.filterMap fun i => match i with | .msg m => some m | .mig _ => none

/-- Whether a launch is live (18 R412): a strand of it lives or is still to be placed, or a message that
carries its handle has not started its handler. -/
def State.launchLive (s : State) (asid : Nat) (lh : BitVec 32) : Bool :=
  let own (p : Strand) : Bool := p.asid.toNat == asid && p.lh == lh
  let msg (m : ActMsg) : Bool := m.asid.toNat == asid && m.lh == lh
  (s.cores.any fun e => e.2.allStrands.any own || e.2.allMsgs.any msg) ||
  (s.saved.any fun v => v.image.allStrands.any own || v.image.allMsgs.any msg) ||
  (s.chiplets.any fun e => e.2.children.any own ||
    e.2.ranges.any fun r => r.asid == asid && r.lh == lh && r.n != 0) ||
  (s.steals.any fun t => t.asid == asid && t.lh == lh && t.ans.any fun a => a.2 != 0) ||
  (s.migs.any fun m => own m.strand) || (s.sends.any fun m => msg m.msg)

/-- A launch that is no longer live completes; a ranged or timed launch then writes its completion record (18
R412). -/
def State.settleLaunch (s : State) (asid : Nat) (lh : BitVec 32) : State :=
  match tfind (s.ctx asid).launches lh.toNat with
  | none => s
  | some l =>
    if s.launchLive asid lh then s
    else
      let s := s.modCtx asid fun x => { x with launches := tdel x.launches lh.toNat }
      let s := { s with chiplets := s.chiplets.map fun e =>
        (e.1, { e.2 with ranges := e.2.ranges.filter fun r => !(r.asid == asid && r.lh == lh) }) }
      if l.ptype = 2 then s
      else
        s.completePacket
          { asid, queue := l.queue, pos := l.pos, tag := l.tag, type := l.ptype, status := 0, code := 0,
            late := l.late, notify := l.notify }

/-! ### The end of a context (18 R404) -/

/-- A core whose context has ended: nothing of it stays; its donation does (07 Table 07.7). -/
def Core.unassign (k : Core) : Core :=
  { k with
    cfg := toWord (wfld k.cfg 0 2), phase := .run, resumeAsked := false, preemptAsked := false, slots := [],
    holders := [], faultQ := [], park := [], migQ := [], inbuf := [], spillQ := [], replies := [], deferred := [], stopAsks := [],
    dbg := 0
    mtx := { k.mtx with queue := [], joint := none } }

/-- Completes with status 5 the packets of a queue that are valid and not yet issued, from its read position. -/
def abandonRing (q : Nat) (code : Nat) : Nat → State → State
  | 0, t => t
  | n + 1, t =>
    match t.queue? q with
    | none => t
    | some x =>
      let pos := x.qcb.readPos
      let size := 2 ^ x.qcb.n
      let h := t.spineRead x.asid (x.qcb.ring + toWord (128 * (pos % size))) 8
      if bitsOf h 8 1 = (pos / size + 1) % 2 then
        let t := t.modQueue q fun x => { x with qcb := { x.qcb with readPos := pos + 1 } }
        abandonRing q code n (t.completePacket
          { asid := x.asid, queue := q, pos := toWord pos, tag := BitVec.ofNat 32 (bitsOf h 32 32),
            type := BitVec.ofNat 8 h, status := 5, code, late := false, notify := true })
      else t

/-- Everything that a context had in flight or assigned goes, but for stores already handed to memory. -/
def State.dropContext (s : State) (asid : Nat) : State :=
  let mine (a : BitVec 12) : Bool := a.toNat == asid
  let there (c : Nat) : Bool := (s.core c).ctxv && (s.core c).asid == asid
  let gone := (s.shoots.filter fun t => there t.core).map (·.id)
  { s with
    cores := s.cores.map fun e => if e.2.ctxv && e.2.asid == asid then (e.1, e.2.unassign) else e
    clusters := s.clusters.map fun e =>
      (e.1, { e.2 with cfg := if e.2.cfg.getLsbD 29 && wfld e.2.cfg 16 12 == asid then 0 else e.2.cfg,
                       mailbox := e.2.mailbox.filter fun n => !gone.contains n })
    chiplets := s.chiplets.map fun e =>
      (e.1, { e.2 with children := e.2.children.filter fun p => !mine p.asid,
                       ranges := e.2.ranges.filter fun r => r.asid != asid })
    saved := s.saved.filter fun v => !mine v.asid
    loads := s.loads.filter fun l => !there l.core
    atoms := s.atoms.filter fun a => a.asid != asid
    sends := s.sends.filter fun m => !mine m.msg.asid
    migs := s.migs.filter fun m => !mine m.strand.asid
    ops := s.ops.filter fun o => o.asid != asid
    steals := s.steals.filter fun t => t.asid != asid
    shoots := s.shoots.filter fun t => !there t.core }

/-- Every unfinished packet of a queue completes with status 5. -/
def State.abandonQueue (s : State) (asid code q : Nat) (x : Queue) : State :=
  let s := x.open_.foldl (fun s p =>
    s.completePacket
      { asid, queue := q, pos := toWord p.pos, tag := p.tag, type := p.type, status := 5, code, late := false,
        notify := true }) s
  abandonRing q code (2 ^ x.qcb.n) s

/-- The end of a context (18 R404): the assignments go first, then the event, then every unfinished packet
completes with status 5. -/
def State.endContext (s : State) (asid code : Nat) (sid : Word) : State :=
  let s := s.dropContext asid
  let s : State := { s with events := s.events ++ [.contextEnd asid (BitVec.ofNat 8 code) sid] }
  let qs := s.spine.queues.filter fun e => e.2.asid == asid
  let s := qs.foldl (fun (s : State) e => s.abandonQueue asid code e.1 e.2) s
  let off (z : Spine) : Spine :=
    { z with attached := z.attached.filter fun a => a.1 != asid }
  { (s.modSpine off).modSpine fun p =>
      { p with queues := p.queues.filter fun e => e.2.asid != asid, hw := p.hw.filter fun e => e.2.asid != asid } with
    ctxs := tdel s.ctxs asid
    lanes := s.lanes.filter fun e => e.1 / 2 ^ 16 != asid }

/-! ### The end of a strand (06 R172) -/

/-- What a strand that becomes GONE leaves behind, after its slot or holder is free: its loads, its figures and
trace record (19 R421), its gangs, rows, launch, and a deferred fault that nobody will take (06 R172). -/
def State.gone (s : State) (c sl : Nat) (p : Strand) : State :=
  let s := { s with loads := s.loads.filter fun l => !(l.core == c && l.own == p.own) }
  let now := s.spine.time.toNat
  let s :=
    match p.msg with
    | some m =>
      let run := now - m.activated.toNat
      let wait := m.activated.toNat - m.arrived.toNat
      let s := s.modCore c fun k => k.accHandled m.sender.toNat (m.arrived.toNat - m.sent.toNat) wait run
      s.trace c { type := 3, handler := true, fused := false, ret := false, sid := p.sid, pc := p.pc,
                  aux := toWord (Nat.min run (2 ^ 32 - 1) * 2 ^ 32 + Nat.min wait (2 ^ 32 - 1)) }
    | none => s
  let s := s.reportGone c sl p
  let s := s.leaveGangs c p.own
  let s := s.settleRows c
  let s := s.settleStop c
  let s := s.settleLaunch p.asid.toNat p.lh
  match (s.core c).deferred.find? fun d => d.own == p.own with
  | some d => s.endContext p.asid.toNat d.f.code.num p.sid
  | none => s

/-- The strand in a slot becomes GONE. -/
def State.endStrand (s : State) (c sl : Nat) : State :=
  match s.strand? c sl with
  | none => s
  | some p => (s.modCore c fun k => { k with slots := tdel k.slots sl, faultQ := k.faultQ.filter fun n => n != sl }).gone c sl p

/-- The strand that a fault handler stands for becomes GONE, out of its holder (05 R135). -/
def State.endHeld (s : State) (c sl : Nat) : State :=
  match (s.core c).holderOf sl with
  | none => s
  | some (h, p) => (s.modCore c fun k => { k with holders := tdel k.holders h }).gone c sl p

end Sys2Proof.Machine
end

