-- ==== Sys2Proof/Machine/Sync.lean ====
section
/-! DEFINITION. Atomics and rendezvous steps between issue and retirement: their presentations, what a home
atomic unit does to a location or a cell, and the way of a reply (06 R158, R159, R165 to R170; 16 R373 to R375). -/

namespace Sys2Proof.Machine

/-! ### Presentations -/

/-- Lane of a home atomic unit (17 Table 17.2). -/
def State.homeLane (s : State) (h : Home) : Nat :=
  match h with
  | .port c => s.coreLane c
  | .unit site => s.atomLane site

/-- Record type of an operation at the lane that sequences it (17 Table 17.5). -/
def AtomKind.type : AtomKind → Nat
  | .rvJoin | .rvArrive => 0x02
  | .rvWait => 0x03
  | _ => 0x01

/-- Whether the PAS sequences an operation (16 R373). -/
def AtomOp.pas (a : AtomOp) : Bool := a.scope == .pkg || a.scope == .sys

/-- The strand that waits for an operation. -/
def State.atomStrand (s : State) (a : AtomOp) : Option (Place × Strand) :=
  s.waiter a.core fun w => match w with | .reply n | .join n _ => n == a.id | _ => false

/-- The presentation of an operation at its home's lane, or at the PAS lane. -/
def State.atomPresent (_s : State) (a : AtomOp) (lane type : Nat) (t : Strand) : Present :=
  { asid := a.asid, lane, type, sid := a.sid, ord := a.ord, opd := a.opd, aux := t.sdig, kind := .sdig, val := t.sdig }

/-! ### Issue -/

/-- The number of the next operation of a strand's program order is taken. -/
def State.takeSeq (s : State) : State := s.modMe fun p => { p with nextSeq := p.nextSeq + 1 }

/-- Issue of an atomic or a rendezvous step: its checks, the commit, and the operation on its way to its home
or to the PAS (06 R158, R167). -/
def State.startAtom (s : State) (code : Nat) (kind : AtomKind) (t : SyncX) (bytes : Nat) (o : Ops) (b c : BitVec 128)
    (operands : List Word) : State :=
  let ea := s.syncEa t o
  s.withAccess .store (Need.atom bytes t.scope) ea bytes fun ps s =>
    let s := s.commit
    let p := s.me
    let loc := (ps.headD Piece.blank)
    let l := loc.locs.headD 0
    let pas := t.scope == .pkg || t.scope == .sys
    if pas && !s.routable (coreSite s.cur.1) spineSite then s.raise .unreachable 0 ea
    else
    let op : AtomOp :=
      { id := s.fresh, core := s.cur.1, slot := s.cur.2, own := p.own, sid := p.sid, ord := p.sord, asid := p.asid.toNat, kind,
        scope := t.scope, order := t.order, loc := l, ea, page := loc.ord, home := s.homeOf l, bytes, b, c,
        owing := kind == .rvArrive && o.d != .none, d := o.d, opd := opDigest code ea operands, seq := p.nextSeq,
        stage := if pas then .toPas else .toHome, pc := p.pc, gen := 0, word := p.word,
        route := s.route (coreSite s.cur.1) (if pas then spineSite else locSite l), arrived := 0, heldUp := false,
        sent := s.fresh, rsp := (0, 0) }
    let s := if t.order == .acq || t.order == .ar then s.acquire else s
    (State.tick { s with atoms := s.atoms ++ [op] }).takeSeq.await (.reply op.id)

/-! ### The operations at a home -/

/-- round_to(a + b) of AFADD (06 R159). -/
def afadd (a b : BitVec 32) : BitVec 32 := (rne32 ((fv32 a).add false (fv32 b)).1).1

/-- An AOP on `n` bits (06 Table 06.7). -/
def aopN (n : Nat) (f : AopFn) (a b : BitVec n) : BitVec n :=
  match f with
  | .add => a + b
  | .and => a &&& b
  | .or => a ||| b
  | .xor => a ^^^ b
  | .min => minS n a b
  | .max => maxS n a b
  | .minu => minU n a b
  | .maxu => maxU n a b
  | .swap => b
  | .fadd => (afadd (a.setWidth 32) (b.setWidth 32)).setWidth n

/-- What an atomic stores for an old value, and whether its compare failed (06 R158). -/
def AtomOp.apply (a : AtomOp) (old : Nat) : Nat × Bool :=
  let w := 8 * a.bytes
  let b := a.b.toNat % 2 ^ w
  match a.kind with
  | .aop f => ((aopN w f (BitVec.ofNat w old) (BitVec.ofNat w b)).toNat, false)
  | .cas | .cas2 => if old = b then (a.c.toNat % 2 ^ w, false) else (old, true)
  | _ => (old, false)

/-- A rendezvous cell (06 Table 06.8a). -/
structure RvCell where
  val : Word
  gen : BitVec 8
  parties : BitVec 16
  cnt : BitVec 16
  owe : BitVec 16
  rel : Bool
  mis : Bool
  low : BitVec 6
  deriving DecidableEq, Repr

/-- A cell from its 16 bytes. -/
def RvCell.ofBits (v : Nat) : RvCell where
  val := toWord v
  gen := BitVec.ofNat 8 (bitsOf v 120 8)
  parties := BitVec.ofNat 16 (bitsOf v 104 16)
  cnt := BitVec.ofNat 16 (bitsOf v 88 16)
  owe := BitVec.ofNat 16 (bitsOf v 72 16)
  rel := bitsOf v 71 1 == 1
  mis := bitsOf v 70 1 == 1
  low := BitVec.ofNat 6 (bitsOf v 64 6)

/-- The 16 bytes of a cell. -/
def RvCell.bits (x : RvCell) : Nat :=
  x.val.toNat + 2 ^ 64 * (x.low.toNat + 2 ^ 6 * x.mis.toNat + 2 ^ 7 * x.rel.toNat + 2 ^ 8 * x.owe.toNat +
    2 ^ 24 * x.cnt.toNat + 2 ^ 40 * x.parties.toNat + 2 ^ 56 * x.gen.toNat)

/-- VAL after the first arrival of a generation (06 R165, R167). -/
def RvCell.first (x : RvCell) (v : Word) : Word := if x.low.extractLsb' 0 3 = 7 then (v.setWidth 32).setWidth 64 else v

/-- VAL after a later arrival (06 R167). -/
def RvCell.combine (x : RvCell) (v : Word) : Word :=
  match (x.low.extractLsb' 0 3).toNat with
  | 0 => x.val + v
  | 1 => minS 64 x.val v
  | 2 => maxS 64 x.val v
  | 3 => minU 64 x.val v
  | 4 => maxU 64 x.val v
  | 5 => x.val ||| v
  | 6 => x.val
  | _ => (afadd (x.val.setWidth 32) (v.setWidth 32)).setWidth 64

/-- A cell after an arrival whose generation is open; whether the count differed (06 R167). -/
def RvCell.arrive (x : RvCell) (v c : Word) (owing : Bool) : RvCell × Bool :=
  let c16 := c.setWidth 16
  let mis := x.parties != 0 && c16 != x.parties
  let y : RvCell :=
    if x.parties = 0 then { x with parties := if c16 = 0 then 1 else c16, cnt := 0, val := x.first v }
    else { x with val := x.combine v, mis := x.mis || mis }
  ({ y with cnt := y.cnt + 1, owe := if owing then y.owe + 1 else y.owe }, mis)

/-- A cell whose generation closes (06 R167). -/
def RvCell.close (x : RvCell) : RvCell := { x with gen := x.gen + 1, parties := 0, cnt := 0, rel := false }

/-- The cell at a location. -/
def State.cell (s : State) (loc : Nat) : RvCell := RvCell.ofBits (memVal s.mem (locsFrom loc 16))

/-- Stores a cell. -/
def State.putCell (s : State) (loc : Nat) (x : RvCell) : State := s.poke (cellsOf (locsFrom loc 16) x.bits)

/-! ### Operations in flight -/

/-- The operation with a number. -/
def State.atom? (s : State) (id : Nat) : Option AtomOp := s.atoms.find? fun a => a.id == id

/-- Changes an operation. -/
def State.modAtom (s : State) (id : Nat) (f : AtomOp → AtomOp) : State :=
  { s with atoms := mapWhere (fun a => a.id == id) f s.atoms }

/-- Moves an operation to a stage. -/
def State.stageAtom (s : State) (id : Nat) (g : AtomStage) : State :=
  s.modAtom id fun a => { a with stage := g, heldUp := false }

/-- An operation waits at its home, behind those that came before it (06 R167, R169). -/
def State.waitHome (s : State) (id : Nat) (g : AtomStage) : State :=
  (s.modAtom id fun a => { a with stage := g, heldUp := false, arrived := s.fresh }).tick

/-- Whether the strand's earlier accesses let the operation be performed (06 R153, 15 R349). -/
def State.atomReady (s : State) (a : AtomOp) : Bool :=
  let locs := locsFrom a.loc a.bytes
  (!(a.order == .rel || a.order == .ar) || (s.loadsRead a.own && s.storesDone a.own)) &&
    !s.heldBack a.own a.seq a.page && !s.ownWrite a.own a.seq locs && !s.ownRead a.own a.seq locs

/-- Waiting rendezvous operations of a home, held arrivals among them (06 R169). -/
def State.waitingAt (s : State) (h : Home) : Nat :=
  (s.atoms.filter fun a => a.home == h && (a.stage == .waiting || a.stage == .heldArrival)).length

/-- Whether a home has room for one more. -/
def State.hasRoom (s : State) (h : Home) : Bool :=
  match h with
  | .port _ => decide (s.waitingAt h < 256)
  | .unit _ => decide (s.waitingAt h < 4096)

/-- The order and the route entry of a response that an operation's home sends now (16 R378). -/
def State.respNow (s : State) (a : AtomOp) : Nat × Word := (s.fresh, s.route (locSite a.loc) (coreSite a.core))

/-- A performed operation answers its core with a result; under the PAS the result goes through it (16 R373). -/
def AtomOp.answered (a : AtomOp) (rsp : Nat × Word) (res : BitVec 128) : AtomOp :=
  { a with heldUp := false, rsp, stage := match a.stage with | .locking num _ => .pasResult num res | _ => .reply res }

/-- Whether a strand waits for an operation. -/
def Strand.waitsOp (p : Strand) (id : Nat) : Bool := match p.wait? with | some (.join n _) | some (.reply n) => n == id | _ => false

/-- Whether a strand of a core waits for an operation. -/
def Core.waitsFor (k : Core) (id : Nat) : Bool := !(k.strandsWhere fun t => t.waitsOp id).isEmpty

/-- Whether a saved image, whose core does other work, holds the strand of an operation. -/
def Saved.holds (v : Saved) (a : AtomOp) : Bool := v.stashed && v.asid.toNat == a.asid && v.image.waitsFor a.id

/-- Records a performed operation on a lane and resets the strand's SDIG (17 R388), also where the strand lies in a saved image. -/
def State.logAtom (s : State) (a : AtomOp) (lane type flags : Nat) : State :=
  match s.atomStrand a with
  | some (pl, t) => (s.logged (s.atomPresent a lane type t) flags).modPlace a.core pl fun q => s.resetSdig a.asid q
  | none =>
    match s.saved.findSome? fun v => if v.holds a then (v.image.strandsWhere fun t => t.waitsOp a.id).head? else none with
    | none => s
    | some (_, t) =>
      let reset (t : Strand) : Strand := if t.waitsOp a.id then s.resetSdig a.asid t else t
      let s := s.logged (s.atomPresent a lane type t) flags
      { s with saved := mapWhere (fun v => v.holds a) (fun v => { v with image := v.image.mapStrands fun _ t => reset t }) s.saved }

/-- Releases every RVJOIN that waits at a cell for a generation, with VAL (06 R167): the reply goes directly to
the waiting core (16 R374). -/
def State.releaseJoins (s : State) (loc : Nat) (gen : BitVec 8) (val : Word) : State :=
  let hit (a : AtomOp) : Bool := a.loc == loc && a.kind == .rvJoin && a.stage == .waiting && a.gen == gen
  { s with atoms := mapWhere hit (fun a => { a with stage := .reply (val.setWidth 128), rsp := s.respNow a }) s.atoms }

/-- Operations in the order in which they came to their home. -/
def inArrival (l : List AtomOp) : List AtomOp := sortBy (fun a b => decide (a.arrived ≤ b.arrived)) l

/-- The numbers of the RVWAITs that wait at a cell, in arrival order. -/
def State.takesAt (s : State) (loc : Nat) : List Nat :=
  (inArrival (s.atoms.filter fun a => a.loc == loc && a.kind == .rvWait && a.stage == .waiting)).map (·.id)

/-- Whether the lane on which a home records a step has no room in RECORD; a PAS step has its record already. -/
def State.homeFull (s : State) (a : AtomOp) : Bool :=
  !a.pas && (s.ctx a.asid).mode == .record && s.laneFull a.asid (s.homeLane a.home) 0

/-- The record of a step at its home; a PAS step was recorded at its lock (16 R375). -/
def State.logHome (s : State) (a : AtomOp) (flags : Nat) : State :=
  if a.pas then s else s.logAtom a (s.homeLane a.home) a.kind.type flags

/-- A step that waits for its lane only (17 R392, R396); one that has come there for the first time takes its turn (17 R391). -/
def State.holdHome (s : State) (id : Nat) : State :=
  (s.modAtom id fun a => { a with heldUp := true, arrived := if a.arrived = 0 then s.fresh else a.arrived }).tick

/-- The read, and the write, of a cell by a rendezvous step, with their watchpoints (15 Table 15.1, 19 R431). -/
def State.watchCell (s : State) (a : AtomOp) (wr : Bool) : State :=
  let locs := locsFrom a.loc 16
  let s := s.watchRange false locs (some (a.core, a.own)) a.sid a.pc 0
  if wr then s.watchRange true locs (some (a.core, a.own)) a.sid a.pc 0 else s

/-- A take from a cell in REL (06 R167). -/
def State.takeAt (s : State) (a : AtomOp) : State :=
  let x := s.cell a.loc
  let y := { x with owe := x.owe - 1 }
  ((s.putCell a.loc (if y.owe = 0 then y.close else y)).modAtom a.id fun a => a.answered (s.respNow a) (x.val.setWidth 128)).watchCell a true

/-- Serves in arrival order the RVWAITs that wait at a cell whose generation has completed (06 R167), each recorded at its
take (17 R388). One that still waits when its generation has closed returns VAL, as a take of a past generation does
(log 35). The count bounds them. -/
def serveTakes (loc : Nat) : Nat → State → State
  | 0, s => s
  | n + 1, s =>
    match (s.takesAt loc).head?.bind s.atom? with
    | none => s
    | some a =>
      let x := s.cell loc
      if !x.rel && x.gen == a.b.setWidth 8 then s
      else if s.homeFull a then s.holdHome a.id
      else
        let t := if x.rel && x.gen == a.b.setWidth 8 then s.takeAt a
          else s.modAtom a.id fun a => a.answered (s.respNow a) (x.val.setWidth 128)
        serveTakes loc n (t.logHome a 0)

/-- The RVWAITs that wait at a cell are considered. -/
def State.settleTakes (s : State) (loc : Nat) : State := serveTakes loc (s.takesAt loc).length s

/-- An arrival is performed at its cell, whose generation is open (06 R167): the operation leaves or waits. `log` writes
its record, told whether the count differed; then a completion serves the waiting takes. -/
def State.performArrival (s : State) (a : AtomOp) (log : Bool → State → State) : State :=
  let x := s.cell a.loc
  let (y, mis) := x.arrive (a.b.setWidth 64) (a.c.setWidth 64) a.owing
  let gen := x.gen
  let s := s.modAtom a.id fun a =>
    match a.kind with
    | .rvJoin => { a with gen, stage := .waiting, heldUp := false }
    | _ => { a.answered (s.respNow a) (gen.setWidth 128) with gen }
  if y.cnt == y.parties then
    let z := if y.owe = 0 then y.close else { y with rel := true }
    (log mis (((s.putCell a.loc z).watchCell a true).releaseJoins a.loc gen y.val)).settleTakes a.loc
  else log mis ((s.putCell a.loc y).watchCell a true)

/-- The arrivals held at a cell, in the order in which they came. -/
def State.heldAt (s : State) (loc : Nat) : List AtomOp :=
  inArrival (s.atoms.filter fun a => a.loc == loc && a.stage == .heldArrival)

/-- A strand whose rendezvous step waits at its home is WAITING there (04 Table 04.6): an RVJOIN after its arrival on its
take (06 R170), an RVWAIT for its generation, an arrival that is held. -/
def State.joined (s : State) (a : AtomOp) : State :=
  match s.atom? a.id, s.atomStrand a with
  | some b, some (pl, _) =>
    if b.kind == .rvJoin || b.stage == .waiting || b.stage == .heldArrival then
      (s.modPlace a.core pl fun q => { q with st := .waiting (.join a.id b.gen) }).reportAt a.core pl
    else s
  | _, _ => s

/-- The held arrivals that a closed generation admits (06 R167), in their order, each recorded at its admission when its
lane has room (17 R396). The count bounds the admissions. -/
def admitHeld (loc : Nat) : Nat → State → State
  | 0, s => s
  | n + 1, s =>
    if (s.cell loc).rel then s
    else
      match s.heldAt loc with
      | [] => s
      | a :: _ =>
        if s.homeFull a then s.holdHome a.id
        else
          admitHeld loc n ((s.performArrival a fun mis s => s.logHome a (if mis then fMis else 0)).joined a)

/-- What the close of a generation lets go: the takes that wait and the held arrivals. Nothing else admits them (06
R168): `gen` is the generation before the step. -/
def State.settleCell (s : State) (loc : Nat) (gen : BitVec 8) : State :=
  if (s.cell loc).gen = gen then s
  else
    let s := s.settleTakes loc
    admitHeld loc (s.heldAt loc).length s

/-- An atomic is performed at its home. -/
def State.performAtomic (s : State) (a : AtomOp) : State × Bool :=
  let locs := locsFrom a.loc a.bytes
  let old := memVal s.mem locs
  let (new, failed) := a.apply old
  let s := (s.poke (cellsOf locs new)).modAtom a.id fun a => a.answered (s.respNow a) (BitVec.ofNat 128 old)
  ((s.watchRange false locs (some (a.core, a.own)) a.sid a.pc 0).watchRange true locs (some (a.core, a.own)) a.sid a.pc 0, failed)

/-- A take comes to its cell (06 R167): a past generation returns at once; else it takes, or waits. `log` writes its
record when it takes. -/
def State.performTake (s : State) (a : AtomOp) (log : State → State) : State :=
  let x := s.cell a.loc
  if x.gen ≠ a.b.setWidth 8 then log ((s.modAtom a.id fun a => a.answered (s.respNow a) (x.val.setWidth 128)).watchCell a false)
  else if x.rel then log (s.takeAt a)
  else (if a.pas then log (s.waitHome a.id .waiting) else s.waitHome a.id .waiting).joined a

/-- Whether a rendezvous step would wait at its home now: an arrival at a cell in REL, an RVJOIN that does not
complete its generation, an RVWAIT for the open generation. -/
def State.wouldWait (s : State) (a : AtomOp) : Bool :=
  let x := s.cell a.loc
  match a.kind with
  | .rvArrive => x.rel
  | .rvJoin =>
    x.rel || let y := (x.arrive (a.b.setWidth 64) (a.c.setWidth 64) false).1; y.cnt != y.parties
  | .rvWait => x.gen == a.b.setWidth 8 && !x.rel
  | _ => false

/-- The step of an operation at its home, room given (06 R158, R167). `log` writes its record, with FLAGS; a held
arrival is logged when it is admitted, and a take that waits at its take. -/
def State.performAtom (s : State) (a : AtomOp) (log : Nat → State → State) : State :=
  let gen := (s.cell a.loc).gen
  match a.kind with
  | .aop _ | .cas | .cas2 => let (s, failed) := s.performAtomic a; log (if failed then fFail else 0) s
  | .rvJoin | .rvArrive =>
    if (s.cell a.loc).rel then
      let s := s.waitHome a.id .heldArrival
      (if a.pas then log 0 s else s).joined a
    else
      ((s.performArrival a fun mis s => log (if mis then fMis else 0) s).joined a).settleCell a.loc gen
  | .rvWait => (s.performTake a (log 0)).settleCell a.loc gen

/-- The reply of an operation reaches its core: the result is written and the instruction retires (06 R158,
Table 06.9). -/
def State.finishAtom (s : State) (a : AtomOp) (res : BitVec 128) : State :=
  let s := { s with atoms := s.atoms.filter fun b => b.id != a.id }
  match s.atomStrand a with
  | none => s
  | some (pl, _) =>
    let s := s.modPlace a.core pl Strand.countOp
    let v : Word :=
      match a.kind with
      | .aop _ | .cas => if a.bytes = 4 then (res.setWidth 32).signExtend 64 else res.setWidth 64
      | _ => res.setWidth 64
    match a.kind, a.d with
    | .cas2, .g n =>
      let s := s.modPlace a.core pl fun p => p.setG (n.toNat + 1) (res.extractLsb' 64 64)
      (s.watchGAt a.core pl (n.toNat + 1)).endWait a.core pl a.d v
    | _, _ => s.endWait a.core pl a.d v

end Sys2Proof.Machine
end

