-- ==== Sys2Proof/Machine/Memory.lean ====
section
/-! DEFINITION. Loads, stores, atomics, fences, WAITCHG, rendezvous, SPAWN and MIGRATE (06). -/

namespace Sys2Proof.Machine

/-- Bytes of an LD or ST width (01 Table 01.6). -/
def widthBytes : MemW → Nat
  | .b => 1
  | .h => 2
  | .w => 4
  | .d => 8

/-! ### Loads and stores (06 R151, R152) -/

/-- A load of `n` bytes: its checks, its issue, and retirement; the value returns later (06 R146). -/
def State.loadAt (s : State) (acq : Bool) (align n : Nat) (ea : Word) (dest : LoadDest) : State :=
  s.withAccess .load { Need.load with align } ea n fun ps s => (s.issueLoad acq dest (ps.map s.runit)).retire

/-- LD (06 R151). -/
def execLd (w : MemW) (sgn : Bool) (x : MemX) (o : Ops) (s : State) : Host.Outcome State Fault Refusal :=
  .next (s.instr 0x30 0x00 o fun s =>
    s.loadAt false 1 (widthBytes w) (s.ea x o) (.g o.d.ix (widthBytes w) sgn))

/-- LD.acq: naturally aligned; no later access is performed before it has been read (06 R152). -/
def execLdAcq (w : MemW) (sgn : Bool) (x : MemX) (o : Ops) (s : State) : Host.Outcome State Fault Refusal :=
  .next (s.instr 0x30 0x00 o fun s =>
    s.loadAt true (widthBytes w) (widthBytes w) (s.ea x o) (.g o.d.ix (widthBytes w) sgn))

/-- LDQ: two registers (06 R151). -/
def execLdq (x : MemX) (o : Ops) (s : State) : Host.Outcome State Fault Refusal :=
  .next (s.instr 0x31 0x00 o fun s => s.loadAt false 1 16 (s.ea x o) (.pair o.d.ix))

/-- ST (06 R151). -/
def execSt (w : MemW) (x : MemX) (o : Ops) (s : State) : Host.Outcome State Fault Refusal :=
  .next (s.instr 0x32 0x00 o fun s =>
    let v := (s.val o.b).toNat % 2 ^ (8 * widthBytes w)
    s.withAccess .store Need.store (s.ea x o) (widthBytes w) fun ps s =>
      (s.store (bufStores ps (widthBytes w) v s.me.pc)).retire)

/-- ST.rel: commits the region and is handed to memory at once (06 R152, R156). -/
def execStRel (w : MemW) (x : MemX) (o : Ops) (s : State) : Host.Outcome State Fault Refusal :=
  .next (s.instr 0x32 0x00 o fun s =>
    let v := (s.val o.b).toNat % 2 ^ (8 * widthBytes w)
    s.withAccess .store { Need.store with align := widthBytes w } (s.ea x o) (widthBytes w) fun ps s =>
      (s.commit.storeNow true (bufStores ps (widthBytes w) v s.me.pc)).retire)

/-- STQ: a pair of registers (06 R151). -/
def execStq (x : MemX) (o : Ops) (s : State) : Host.Outcome State Fault Refusal :=
  .next (s.instr 0x33 0x00 o fun s =>
    let v := (s.pair o.b).toNat
    s.withAccess .store Need.store (s.ea x o) 16 fun ps s => (s.store (bufStores ps 16 v s.me.pc)).retire)

/-- RCOMMIT (06 R157). -/
def execRcommit (o : Ops) (s : State) : Host.Outcome State Fault Refusal :=
  .next (s.instr 0x34 0x00 o fun s => s.commit.retire)

/-! ### Atomics (06 R158, R159) -/

/-- Bytes of an atomic: .W 4, .D 8. -/
def dblBytes (dbl : Bool) : Nat := if dbl then 8 else 4

/-- An AOP on an operand value. -/
def State.startAop (s : State) (i : Instr) (f : AopFn) (dbl : Bool) (t : SyncX) (o : Ops) (b : Word) : State :=
  s.startAtom (opCode i) (.aop f) t (dblBytes dbl) o (b.setWidth 128) 0 [b]

/-- AADD: old + b at the home (06 R158). -/
def execAadd (dbl : Bool) (t : SyncX) (o : Ops) (s : State) : Host.Outcome State Fault Refusal :=
  .next (s.instr 0x35 0x00 o fun s => s.startAop (.aadd dbl t o) .add dbl t o (s.val o.b))

/-- AAND: bitwise AND at the home (06 R158). -/
def execAand (dbl : Bool) (t : SyncX) (o : Ops) (s : State) : Host.Outcome State Fault Refusal :=
  .next (s.instr 0x35 0x01 o fun s => s.startAop (.aand dbl t o) .and dbl t o (s.val o.b))

/-- AOR: bitwise OR at the home (06 R158). -/
def execAor (dbl : Bool) (t : SyncX) (o : Ops) (s : State) : Host.Outcome State Fault Refusal :=
  .next (s.instr 0x35 0x02 o fun s => s.startAop (.aor dbl t o) .or dbl t o (s.val o.b))

/-- AXOR: bitwise XOR at the home (06 R158). -/
def execAxor (dbl : Bool) (t : SyncX) (o : Ops) (s : State) : Host.Outcome State Fault Refusal :=
  .next (s.instr 0x35 0x03 o fun s => s.startAop (.axor dbl t o) .xor dbl t o (s.val o.b))

/-- AMIN: signed minimum at the home (06 R158). -/
def execAmin (dbl : Bool) (t : SyncX) (o : Ops) (s : State) : Host.Outcome State Fault Refusal :=
  .next (s.instr 0x35 0x04 o fun s => s.startAop (.amin dbl t o) .min dbl t o (s.val o.b))

/-- AMAX: signed maximum at the home (06 R158). -/
def execAmax (dbl : Bool) (t : SyncX) (o : Ops) (s : State) : Host.Outcome State Fault Refusal :=
  .next (s.instr 0x35 0x05 o fun s => s.startAop (.amax dbl t o) .max dbl t o (s.val o.b))

/-- AMINU: unsigned minimum at the home (06 R158). -/
def execAminu (dbl : Bool) (t : SyncX) (o : Ops) (s : State) : Host.Outcome State Fault Refusal :=
  .next (s.instr 0x35 0x06 o fun s => s.startAop (.aminu dbl t o) .minu dbl t o (s.val o.b))

/-- AMAXU: unsigned maximum at the home (06 R158). -/
def execAmaxu (dbl : Bool) (t : SyncX) (o : Ops) (s : State) : Host.Outcome State Fault Refusal :=
  .next (s.instr 0x35 0x07 o fun s => s.startAop (.amaxu dbl t o) .maxu dbl t o (s.val o.b))

/-- ASWAP: b at the home (06 R158). -/
def execAswap (dbl : Bool) (t : SyncX) (o : Ops) (s : State) : Host.Outcome State Fault Refusal :=
  .next (s.instr 0x35 0x08 o fun s => s.startAop (.aswap dbl t o) .swap dbl t o (s.val o.b))

/-- AFADD: FP32 addition; a 6-bit literal stands for its integer value (06 R159). -/
def execAfadd (dbl : Bool) (t : SyncX) (o : Ops) (s : State) : Host.Outcome State Fault Refusal :=
  .next (s.instr 0x35 0x09 o fun s =>
    let b := match o.b with | .l6 _ => (s.valF o.b).setWidth 64 | _ => s.val o.b
    s.startAop (.afadd dbl t o) .fadd dbl t o b)

/-- ACAS (06 R158). -/
def execAcas (dbl : Bool) (t : SyncX) (o : Ops) (s : State) : Host.Outcome State Fault Refusal :=
  .next (s.instr 0x36 0x00 o fun s =>
    let b := s.val o.b
    let c := s.val o.c
    s.startAtom (opCode (.acas dbl t o)) .cas t (dblBytes dbl) o (b.setWidth 128) (c.setWidth 128) [b, c])

/-- ACAS2: 16 bytes against a pair of registers (06 R158). -/
def execAcas2 (t : SyncX) (o : Ops) (s : State) : Host.Outcome State Fault Refusal :=
  .next (s.instr 0x37 0x00 o fun s =>
    let b := s.pair o.b
    let c := s.pair o.c
    s.startAtom (opCode (.acas2 t o)) .cas2 t 16 o b c
      [b.setWidth 64, b.extractLsb' 64 64, c.setWidth 64, c.extractLsb' 64 64])

/-! ### Fences (06 R161, R162) -/

/-- FENCE: commits the region; retires when the earlier accesses of its order are performed, else it issues
again (06 R161). -/
def execFence (scope : Scope) (order : MemOrder) (o : Ops) (s : State) : Host.Outcome State Fault Refusal :=
  .next (s.instr 0x38 0x00 o fun s =>
    let s := s.commit
    if s.fenceDone order s.me.own then s.retire else s.await .retry)

/-- Whether an order of a FENCEP waits for reads (06 R162). -/
def ordReads (o : MemOrder) : Bool := o == .acq || o == .ar

/-- Whether an order of a FENCEP waits for writes (06 R162). -/
def ordWrites (o : MemOrder) : Bool := o == .rel || o == .ar

/-- Whether every read of an operation has been performed before its end: that of a remote write, once it has been sent (23
R462). -/
def EngOp.readsDone (e : EngOp) : Bool := e.arrived.isSome && match e.body with | .rma .write .. => true | _ => false

/-- Operations of an engine class of a strand with accesses left that an order waits for: until its end an operation has
reads and writes left, but for a remote write that has been sent; after it the writes to replicated pages that are on their
way. -/
def State.engineBusy (s : State) (order : MemOrder) (c cls own : Nat) : Bool :=
  s.ops.any fun e => e.core == c && e.cls == cls && e.own == own &&
    ((e.st != .ended && (ordWrites order || !e.readsDone)) || (ordWrites order && s.writes.any fun w => w.agent == some e.id))

/-- Whether an order waits for a matrix entry: a drain writes, a load, a codebook load and a stream read. -/
def MBody.orderedBy (b : MBody) (order : MemOrder) : Bool :=
  match b with
  | .load .. | .book .. | .stream .. => ordReads order
  | .drain .. => ordWrites order
  | .clear .. | .swap => false

/-- Matrix entries of a strand with accesses left that an order waits for. -/
def Core.matrixBusy (k : Core) (order : MemOrder) (own : Nat) : Bool :=
  k.mtx.queue.any fun e => e.own == own && e.body.orderedBy order && (e.st == .queued || e.st == .running)

/-- Whether the operations of a strand on the paths of a mask are performed (06 R162): an order of .acq waits for
their reads, .rel for their writes, .ar for both. -/
def State.pathsDone (s : State) (order : MemOrder) (paths : BitVec 6) (c own : Nat) : Bool :=
  let strand := (!ordReads order || s.loadsRead own) && (!ordWrites order || s.storesDone own)
  (!paths.getLsbD 0 || strand) && (!paths.getLsbD 1 || !s.engineBusy order c 0 own) &&
    (!paths.getLsbD 2 || !(s.core c).matrixBusy order own) && (!paths.getLsbD 3 || !s.engineBusy order c 1 own) &&
    (!paths.getLsbD 5 || !s.engineBusy order c 3 own)

/-- FENCEP: commits the region; retires when the operations on the named paths are performed (06 R162). -/
def execFencep (scope : Scope) (order : MemOrder) (paths : BitVec 6) (o : Ops) (s : State) :
    Host.Outcome State Fault Refusal :=
  .next (s.instr 0x39 0x00 o fun s =>
    let s := s.commit
    if s.pathsDone order paths s.cur.1 s.me.own then s.retire else s.await .retry)

/-! ### WAITCHG (06 R164) -/

/-- Strands that hold a watch at a home. -/
def State.watchesAt (s : State) (h : Home) : Nat :=
  (s.cores.map fun e => ((e.2.strandsWhere fun t =>
    match t.wait? with
    | some (.change loc _ _ _ true _ _) => s.homeOf loc == h
    | _ => false).length)).sum

/-- WAITCHG: retires when the location differs from `b`, else watches it, or polls it when its home has no free
watch (06 R164). HANDLER_WAIT comes before the checks of the address (log 24). -/
def execWaitchg (dbl : Bool) (t : SyncX) (o : Ops) (s : State) : Host.Outcome State Fault Refusal :=
  .next (s.instr 0x3A 0x00 o fun s => s.noHandler fun s =>
    let n := dblBytes dbl
    let ea := s.syncEa t o
    s.withAccess .load (Need.watch n t.scope) ea n fun ps s =>
      let s := s.commit
      let p := s.me
      let s := if t.order == .acq then s.acquire else s
      let u := ps.headD Piece.blank
      let b := toWord ((s.val o.b).toNat % 2 ^ (8 * n))
      if s.heldBack p.own p.nextSeq u.ord || s.ownWrite p.own p.nextSeq u.mapped ||
          s.readOrder p.own p.nextSeq p.acqSeq u.ord u.mapped then s.await .retry
      else
        let v := memVal s.mem u.locs
        let s := s.watchRange false u.locs (some (s.cur.1, p.own)) p.sid p.pc 0
        if toWord v ≠ b then (s.setD o.d (extend true n v)).retire
        else
          let loc := u.locs.headD 0
          s.wait (.change loc n b o.d (decide (s.watchesAt (s.homeOf loc) < 256)) t.order
            (s.route (coreSite s.cur.1) (locSite loc))))

/-! ### Rendezvous (06 R167) -/

/-- RVJOIN: arrives and waits for its generation (06 R167). HANDLER_WAIT comes before the checks of the address (log 24). -/
def execRvjoin (t : SyncX) (o : Ops) (s : State) : Host.Outcome State Fault Refusal :=
  .next (s.instr 0x3E 0x00 o fun s => s.noHandler fun s =>
    let v := s.val o.b
    let c := s.val o.c
    s.startAtom (opCode (.rvjoin t o)) .rvJoin t 16 o (v.setWidth 128) (c.setWidth 128) [v, c])

/-- RVARRIVE: arrives, owing a take when it has a destination (06 R167). -/
def execRvarrive (t : SyncX) (o : Ops) (s : State) : Host.Outcome State Fault Refusal :=
  .next (s.instr 0x3E 0x01 o fun s =>
    let v := s.val o.b
    let c := s.val o.c
    s.startAtom (opCode (.rvarrive t o)) .rvArrive t 16 o (v.setWidth 128) (c.setWidth 128) [v, c])

/-- RVWAIT: takes the result of a generation (06 R167). HANDLER_WAIT comes before the checks of the address (log 24). -/
def execRvwait (t : SyncX) (o : Ops) (s : State) : Host.Outcome State Fault Refusal :=
  .next (s.instr 0x3E 0x02 o fun s => s.noHandler fun s =>
    let v := s.val o.b
    s.startAtom (opCode (.rvwait t o)) .rvWait t 16 o (v.setWidth 128) 0 [v])

/-! ### SPAWN (06 R171) -/

/-- The child of a SPAWN. -/
def Strand.child (p : Strand) (t : Word) (mask : BitVec 16) : Strand :=
  { Strand.blank with
    pc := t, asid := p.asid, kind := .spawned, sec := p.sec, pager := p.pager, sup := p.sup,
    g := Vector.ofFn fun i => if mask.getLsbD i.val then p.getG i.val else 0,
    sid := toWord (2 ^ 62 + sidmix p.sid (p.sord.setWidth 64)), lidx := p.lidx, lh := p.lh }

/-- A SPAWN retires: its record, the ordinal, the child's SID in the destination. -/
def State.retireSpawn (s : State) (o : Ops) (p : Present) (child : Strand) (flags : Nat) : State :=
  ((s.loggedMe p flags).setD o.d child.sid).retire

/-- The child goes to the dispatcher's queue of 512, or the SPAWN waits for room in it. -/
def State.queueChild (s : State) (o : Ops) (p : Present) (child : Strand) : State :=
  let site := coreSite s.cur.1
  if 512 ≤ (s.chip site).children.length then s.wait .spawn
  else (s.retireSpawn o p child 0).modChip site fun h => { h with children := h.children ++ [child] }

/-- The child takes a slot of its parent's core. -/
def State.placeChild (s : State) (o : Ops) (p : Present) (child : Strand) (sl : Nat) : State :=
  (s.retireSpawn o p child fLocal).occupy s.cur.1 sl child

/-- SPAWN (06 R171): in REPLAY the record says where the child goes (17 Table 17.7). Its parent's accesses are
performed before the child's (15 R358). HANDLER_WAIT comes before the check of the entry's alignment (log 24). -/
def execSpawn (o : Ops) (s : State) : Host.Outcome State Fault Refusal :=
  .next (s.instr 0x3B 0x00 o fun s => s.noHandler fun s =>
    let t := s.val o.a
    if t.toNat % 4 ≠ 0 then s.raise .align 0 t
    else
      let s := s.commit
      if !s.fenceDone .rel s.me.own then s.await .retry
      else
        let mask := (s.val o.b).setWidth 16
        let child := s.me.child t mask
        let lane := s.dispLane (coreSite s.cur.1)
        let p := s.presentMe lane 0x0F (opDigest (opCode (.spawn o)) t [mask.setWidth 64])
        s.presented p fun s =>
          if (s.ctx p.asid).mode = .replay then
            if s.headFlags p.asid lane % 2 = 1 then
              let (s, sl) := s.claimSlot s.cur.1
              match sl with
              | some n => s.placeChild o p child n
              | none => s.wait (.held lane)
            else s.queueChild o p child
          else
            match s.spareSlot s.cur.1 with
            | some n => s.placeChild o p child n
            | none => s.queueChild o p child)

/-! ### MIGRATE (06 R173, R174) -/

/-- Whether the strand that executes owns an engine operation that is not complete. -/
def State.ownsOps (s : State) : Bool :=
  let own := s.me.own
  (s.ops.any fun e => e.core == s.cur.1 && e.own == own) || s.myCore.mtx.queue.any fun e => e.own == own

/-- Whether a core belongs to the chiplet set of the strand's launch. -/
def State.inLaunch (s : State) (k : Nat) : Bool :=
  (s.launchOf s.me).chips.contains (s.site (coreSite k)).lchip.toNat

/-- The state of a strand that a migration message carries (04 Table 04.3), at the instruction after. One that has stepped is
stopped there (19 R428). -/
def Strand.migrated (p : Strand) : Strand :=
  { Strand.blank with
    pc := p.pc + toWord p.word.bytes, asid := p.asid, fcnt := p.fcnt, kind := p.kind, sec := p.sec,
    pager := p.pager, sup := p.sup, g := p.g, flags := p.flags, rmode := p.rmode, amax := p.amax, draw := p.draw,
    sid := p.sid, lidx := p.lidx, sord := p.sord + 1, sdig := p.sdig, lh := p.lh, word := p.word,
    nextSeq := p.nextSeq, stopped := p.stepping }

/-- A MIGRATE that has passed its checks: to its own core it retires with an arrival record; else the strand
is PARKED and its message leaves, once its accesses are performed (06 R174, 15 R358). -/
def State.migrate (s : State) (i : Instr) (a : Word) (dest : Nat) : State :=
  let s := s.commit
  let c := s.cur.1
  if !s.fenceDone .rel s.me.own then s.await .retry
  else if !s.routable (coreSite c) (coreSite dest) then s.raise .unreachable 0 a
  else
    let opd := opDigest (opCode i) a []
    let p := s.me
    if dest = c then
      let q := s.presentMe (s.coreLane c) 0x0B opd
      s.presented q fun s => (s.loggedMe q 0).retire
    else
      let m : MigOp :=
        { id := s.fresh, src := c, dest, strand := p.migrated, ord := p.sord, opd, pc := p.pc, word := p.word,
          stage := .toDest, route := s.route (coreSite c) (coreSite dest), heldUp := false, since := 0,
          sent := s.fresh }
      let s := s.count c 2 1
      let s := s.reportGone c s.cur.2 p
      (State.tick { s with migs := s.migs ++ [m] }).modMyCore fun k => { k with slots := tdel k.slots s.cur.2 }

/-- The first four checks of MIGRATE (06 R173). -/
def State.mayMigrate (s : State) (body : State → State) : State :=
  s.noHandler fun s =>
    if !s.me.rows.isEmpty then s.raise .migrateState 0x01 0
    else if !s.me.streams.isEmpty then s.raise .migrateState 0x02 0
    else if s.ownsOps then s.raise .migrateState 0x03 0
    else body s

/-- MIGRATE: to the home core of an address (06 R173). -/
def execMigrate (o : Ops) (s : State) : Host.Outcome State Fault Refusal :=
  .next (s.instr 0x3D 0x00 o fun s => s.mayMigrate fun s =>
    let a := s.val o.a
    s.withAccess .load Need.none a 1 fun ps s =>
      match s.homeCore s.cur.1 ((ps.flatMap (·.locs)).headD 0) with
      | some k => if s.inLaunch k then s.migrate (.migrate o) a k else s.raise .addr 0x04 a
      | none => s.raise .addr 0x04 a)

/-- MIGRATE.C: to a logical core (06 R173). -/
def execMigrateC (o : Ops) (s : State) : Host.Outcome State Fault Refusal :=
  .next (s.instr 0x3D 0x00 o fun s => s.mayMigrate fun s =>
    let a := s.val o.a
    if 2 ^ 16 ≤ a.toNat then s.raise .addr 0x01 a
    else
      match s.coreOfL (coreSite s.cur.1) a.toNat with
      | some k => if s.isPager k || !s.inLaunch k then s.raise .addr 0x04 a else s.migrate (.migrateC o) a k
      | none => s.raise .addr 0x04 a)

end Sys2Proof.Machine
end

