-- ==== Sys2Proof/Machine/Cbuf.lean ====
section
/-! DEFINITION. Circular-buffer descriptors: claims, fills, pops and the waits on them (07 R195; 08 R233 to R236). -/

namespace Sys2Proof.Machine

/-- Descriptor `i` of a core. -/
def Core.cb (k : Core) (i : Nat) : CbDesc := vget CbDesc.blank k.cbd i

/-- Changes a descriptor. -/
def State.modCb (s : State) (c i : Nat) (f : CbDesc → CbDesc) : State :=
  s.modCore c fun k => { k with cbd := vset k.cbd i (f (k.cb i)) }

/-- Full slots. -/
def CbDesc.full (d : CbDesc) : Nat := (d.fills - d.pops).toNat

/-- Whether a claim is possible (08 R234). -/
def CbDesc.claimable (d : CbDesc) : Bool := decide ((d.claims - d.pops).toNat < d.nslot.toNat)

/-- Bytes of a slot. -/
def CbDesc.slotBytes (d : CbDesc) : Nat := 64 * d.slotb.toNat

/-- Slot address of claim or pop number `n` (08 R233). -/
def CbDesc.slotAddr (d : CbDesc) (n : BitVec 32) : Word :=
  toWord ((0xF0 + d.level.toNat) * 2 ^ 56 + d.base.toNat + n.toNat % d.nslot.toNat * d.slotBytes)

/-- Slot that an address is the address of. -/
def CbDesc.slotOf (d : CbDesc) (a : Word) : Option Nat :=
  (List.range d.nslot.toNat).find? fun i => d.slotAddr (BitVec.ofNat 32 i) == a

/-- Whether a slot lies in an outstanding claim. -/
def CbDesc.claimed (d : CbDesc) (slot : Nat) : Bool :=
  (List.range (d.claims - d.fills).toNat).any fun i => (d.fills.toNat + i) % 2 ^ 32 % d.nslot.toNat == slot

/-- Size of a LEVEL window on a core (06 Table 06.1, R144). -/
def State.levelSize (s : State) (c : Nat) (level : BitVec 2) : Nat :=
  match level.toNat with
  | 0 => s.coreWin c
  | 1 => cluBytes
  | _ => chipBytes

/-- A descriptor word (07 Table 07.6). -/
def CbDesc.word (d : CbDesc) (w : Nat) : Word :=
  match w with
  | 0 => toWord (d.valid.toNat * 2 ^ 63 + d.level.toNat * 2 ^ 61 + d.base.toNat * 2 ^ 32 + d.slotb.toNat * 2 ^ 16 +
      d.nslot.toNat)
  | 1 => toWord (d.fills.toNat * 2 ^ 32 + d.pops.toNat)
  | 2 => toWord (d.claims.toNat * 2 ^ 32)
  | _ => toWord (d.waiters.toNat * 2 ^ 48 + d.prod.toNat * 2 ^ 40 + d.cons.toNat * 2 ^ 32 + d.err.toNat)

/-- A descriptor with a word replaced; reserved bits are discarded (00 R14). -/
def CbDesc.setWord (d : CbDesc) (w : Nat) (v : Word) : CbDesc :=
  match w with
  | 0 => { d with valid := v.getLsbD 63, level := v.extractLsb' 61 2, base := v.extractLsb' 32 24,
                  slotb := v.extractLsb' 16 16, nslot := v.extractLsb' 0 16 }
  | 1 => { d with fills := v.extractLsb' 32 32, pops := v.extractLsb' 0 32 }
  | 2 => { d with claims := v.extractLsb' 32 32 }
  | _ => { d with waiters := v.extractLsb' 48 16, prod := v.extractLsb' 40 8, cons := v.extractLsb' 32 8,
                  err := v.getLsbD 0 }

/-- A descriptor from its 32 bytes. -/
def CbDesc.ofBits (v : Nat) : CbDesc :=
  (List.range 4).foldl (fun d w => d.setWord w (toWord (bitsOf v (64 * w) 64))) CbDesc.blank

/-! ### Waits (08 R234) -/

/-- The strand whose wait of a kind began first: its place and wait. -/
def State.firstWait (s : State) (c : Nat) (p : Wait → Bool) : Option (Place × Strand) :=
  ((s.core c).strandsWhere fun t => (t.wait?.map p).getD false).foldl (fun r e =>
    match r with
    | some (q : Place × Strand) => if e.2.waitNo < q.2.waitNo then some e else some q
    | none => some e) none

/-- One strand that waits for a full slot is given the head slot. -/
def State.serveFull (s : State) (c cb : Nat) : State :=
  match s.firstWait c fun w => match w with | .cbFull n _ => n.toNat == cb | _ => false with
  | some (pl, t) =>
    match t.wait? with
    | some (.cbFull _ d) =>
      let a := ((s.core c).cb cb).slotAddr ((s.core c).cb cb).pops
      (s.modCb c cb fun x => { x with waiters := x.waiters - 1 }).endWait c pl d a
    | _ => s
  | none => s

/-- Strands that wait for a claim are served while one is possible; the count bounds them. -/
def serveClaims (c cb : Nat) : Nat → State → State
  | 0, s => s
  | n + 1, s =>
    let d := (s.core c).cb cb
    if d.claimable then
      match s.firstWait c fun w => match w with | .cbClaim n _ => n.toNat == cb | _ => false with
      | some (pl, t) =>
        match t.wait? with
        | some (.cbClaim _ dst) =>
          let s := s.modCb c cb fun x => { x with waiters := x.waiters - 1, claims := x.claims + 1 }
          serveClaims c cb n (s.endWait c pl dst (d.slotAddr d.claims))
        | _ => s
      | none => s
    else s

/-- A fill completes: one waiter for a full slot is served, and a push that waits for its turn follows; the
count bounds the pushes. -/
def fillSlot (c cb : Nat) : Nat → State → State
  | 0, s => s
  | n + 1, s =>
    let s := (s.modCb c cb fun x => { x with fills := x.fills + 1 }).serveFull c cb
    let d := (s.core c).cb cb
    match s.firstWait c fun w =>
      match w with | .cbPush m sl => m.toNat == cb && d.fills.toNat % d.nslot.toNat == sl | _ => false with
    | some (pl, _) =>
      fillSlot c cb n ((s.modCb c cb fun x => { x with waiters := x.waiters - 1 }).endWait c pl .none 0)
    | none => s

/-- A fill of a descriptor. -/
def State.fill (s : State) (c cb : Nat) : State := fillSlot c cb 128 s

/-- Fills whose claims are done complete in claim order; the count bounds them. -/
def fillReady (c cb : Nat) : Nat → State → State
  | 0, s => s
  | n + 1, s =>
    let d := (s.core c).cb cb
    if d.ready.contains d.fills then
      fillReady c cb n ((s.modCb c cb fun x => { x with ready := x.ready.erase x.fills }).fill c cb)
    else s

/-- An engine has filled the slot of a claim. -/
def State.fillClaim (s : State) (c cb : Nat) (n : BitVec 32) : State :=
  let s := s.modCb c cb fun x => { x with ready := n :: x.ready }
  fillReady c cb ((s.core c).cb cb).ready.length s

/-- A pop of a descriptor. -/
def State.pop (s : State) (c cb : Nat) : State :=
  serveClaims c cb 128 (s.modCb c cb fun x => { x with pops := x.pops + 1 })

/-- A wait in a circular-buffer instruction: WAITERS counts it (08 R235). -/
def State.waitCb (s : State) (cb : Nat) (w : Wait) : State :=
  (s.modCb s.cur.1 cb fun x => { x with waiters := x.waiters + 1 }).wait w

/-- The fault of a CBWAITF on a failed buffer (08 R236): deferred, at its own PC. -/
def cbFault (p : Strand) : FaultRec :=
  { code := .engine, sub := 0x30, deferred := true, word := p.word, pc := p.pc, addr := 0 }

/-- An engine's fill fails: ERR is set, and every strand that waits in CBWAITF with no full slot faults (08 R236). -/
def State.failCb (s : State) (c cb : Nat) : State :=
  let s := s.modCb c cb fun x => { x with err := true }
  if 1 ≤ ((s.core c).cb cb).full then s
  else
    ((s.core c).strandsWhere fun t => match t.wait? with | some (.cbFull n _) => n.toNat == cb | _ => false).foldl
      (fun s e => (s.modCb c cb fun x => { x with waiters := x.waiters - 1 }).faultPlace c e.1 (cbFault e.2)) s

end Sys2Proof.Machine
end

