-- ==== Sys2Proof/Machine/Queues.lean ====
section
/-! DEFINITION. Issue queues and tickets: the entry of an operation, its completion, the waits on a sequence, and
deferred faults (04 R109; 09 R245, R257; 11 R287, R288, R296). -/

namespace Sys2Proof.Machine

/-! ### Tickets -/

/-- The next ticket of a class. -/
def Core.nextTicket (k : Core) (cls : Nat) : Word := vget 0 k.issq cls + 1

/-- Takes the next ticket of a class. -/
def Core.issue (k : Core) (cls : Nat) : Core := { k with issq := vset k.issq cls (k.nextTicket cls) }

/-- ESEQ passes the tickets that have completed above it; the count bounds them. -/
def Core.advance (cls : Nat) : Nat → Core → Core
  | 0, k => k
  | n + 1, k =>
    let t := vget 0 k.eseq cls + 1
    if k.done.contains (cls, t) then
      Core.advance cls n { k with eseq := vset k.eseq cls t, done := k.done.erase (cls, t) }
    else k

/-- A ticket of a class completes (11 R287). -/
def Core.complete (k : Core) (cls : Nat) (t : Word) : Core :=
  let k := { k with done := (cls, t) :: k.done }
  Core.advance cls k.done.length k

/-- Strands that wait for a target that ESEQ has reached retire with it (09 R257, 11 R296), but for one that has a deferred
fault to take. -/
def State.wakeSeq (s : State) (c cls : Nat) : State :=
  let k := s.core c
  let v := vget 0 k.eseq cls
  (k.strandsWhere fun t => !k.owesFault t &&
    match t.wait? with | some (.seq n target _) => n == cls && decide (target ≤ v) | _ => false).foldl (fun s e =>
      match e.2.wait? with
      | some (.seq _ _ d) => s.endWait c e.1 d v
      | _ => s) s

/-- An operation of a class completes: ESEQ advances, the strands that wait for it retire, and those that wait for
room in the issue queue issue again. -/
def State.completeTicket (s : State) (c cls : Nat) (t : Word) : State :=
  let s := s.modCore c fun k => k.complete cls t
  (s.wakeSeq c cls).retryWhere c fun w => w == .queue cls

/-- A wait for a sequence: it retires at once when the target is met (09 R257, 11 R296). -/
def State.awaitSeq (s : State) (o : Ops) (cls : Nat) (target : Word) : State :=
  let s := s.commit
  let v := vget 0 s.myCore.eseq cls
  if target ≤ v then s.putD o v else s.wait (.seq cls target o.d)

/-! ### Deferred faults (04 R109, 06 R172) -/

/-- A deferred fault is reported to the owner of an operation, which leaves an AWAIT or MWAIT for it at once (09 R247,
11 R296); an owner that is GONE leaves nobody to take it, and the context ends (06 R172). -/
def State.deferFault (s : State) (c own : Nat) (owner : Word) (f : FaultRec) : State :=
  if (s.core c).allStrands.any fun p => p.own == own then
    let s := s.modCore c fun k => { k with deferred := k.deferred ++ [{ own, f }] }
    let waits (p : Strand) : Bool := p.own == own && match p.wait? with | some (.seq _ _ _) => true | _ => false
    match ((s.core c).strandsWhere waits).head? with
    | some (pl, p) => s.takeDeferred c pl p
    | none => s
  else s.endContext (s.core c).asid f.code.num owner

/-! ### Accesses of the matrix and engine paths -/

/-- Bytes in the order of their locations, read as they stand in memory, with the first location that holds an
uncorrectable error. -/
def State.firstBad (s : State) (locs : List Nat) : Option Nat := indexWhere s.bad locs 0

/-- Bytes that an engine or the array writes are performed, with their watchpoints (19 R431, R432). -/
def State.pokeFor (s : State) (c own : Nat) (owner pc : Word) (path : Nat) (cells : List Host.Cell) : State :=
  (s.poke cells).watchRange true (cells.map Prod.fst) (some (c, own)) owner pc path

/-- Bytes that an engine or the array reads, with their watchpoints. -/
def State.peekFor (s : State) (c own : Nat) (owner pc : Word) (path : Nat) (locs : List Nat) : State :=
  s.watchRange false locs (some (c, own)) owner pc path

/-- Whether an entry may complete now. -/
def MEntry.mayComplete (e : MEntry) : Bool :=
  match e.st, e.body with
  | .ended, _ | .void, _ => true
  | .running, .stream .. | .running, .drain .. => false
  | .running, _ => true
  | .queued, _ => false

/-! ### Operations in flight -/

/-- Changes an operation. -/
def State.modOp (s : State) (id : Nat) (f : EngOp → EngOp) : State := { s with ops := mapWhere (fun o => o.id == id) f s.ops }

/-- An operation meets an entry that is not valid: it is suspended, and a page request is sent (11 R292, R306). -/
def State.suspendOp (s : State) (o : EngOp) (va : Word) : State :=
  let site := coreSite o.core
  (s.modOp o.id fun o => { o with st := .pageWait }).pageRequest site
    { tag := 0, va, sid := o.owner, core := o.core, lcore := (s.core o.core).lcore, slot := o.slot, kind := .engine,
      ticket := o.ticket.setWidth 8, asid := BitVec.ofNat 12 o.asid, sec := o.sec, op := some o.id }

/-- The deferred fault of an operation (11 R292). -/
def EngOp.report (o : EngOp) (code : Code) (sub : Nat) (addr : Word) : FaultRec :=
  { code, sub := BitVec.ofNat 8 sub, deferred := true, word := o.word, pc := o.pc, addr }

/-- An operation fails: it writes nothing further, and still completes. A failed fill sets ERR (11 R292, R294); a remote
operation has status 10 (23 R462). -/
def State.failOp (s : State) (o : EngOp) (code : Code) (sub : Nat) (addr : Word) : State :=
  let s := s.modOp o.id fun o => { o with st := .ended, failed := true, status := if o.cls = 3 then 10 else o.status }
  let s := match o.body with | .fill cb .. => s.failCb o.core cb.toNat | _ => s
  s.deferFault o.core o.own o.owner (o.report code sub addr)

/-- Whether writes of an operation to replicated pages are still on their way (15 R360). -/
def State.opWriting (s : State) (o : EngOp) : Bool := s.agentWriting o.id

/-- Slot address of an ACOPYCB. -/
def State.opSlot (s : State) (o : EngOp) (cb : BitVec 4) : Word :=
  match o.slotNo with
  | some n => ((s.core o.core).cb cb.toNat).slotAddr n
  | none => 0

/-- Bytes of a weight element of HGEMV. -/
def hfmtBytes (f : HFmt) : Nat := match f with | .bf16 => 2 | _ => 1

/-- Bytes that an operation moves. -/
def EngBody.total : EngBody → Nat
  | .copy _ _ planes rows len _ _ _ _ _ _ _ => planes * rows * len
  | .fill _ _ _ _ rows len _ _ | .drain _ _ _ _ rows len _ _ => rows * len
  | .hgemv x .. => x.n.toNat
  | .rma _ _ _ _ _ len _ _ => len

/-- Source and destination address of byte `i` of a copy. -/
def State.copyPair (s : State) (o : EngOp) (i : Nat) : Word × Word :=
  match o.body with
  | .copy src dst _ rows len srs trs sps tps _ _ _ =>
    let p := toWord (i / (rows * len))
    let r := toWord (i / len % rows)
    let c := toWord (i % len)
    (src + p * sps + r * srs + c, dst + p * tps + r * trs + c)
  | .fill cb addr stride _ _ len _ _ => (addr + toWord (i / len) * stride + toWord (i % len), s.opSlot o cb + toWord i)
  | .drain cb addr stride _ _ len _ _ => (s.opSlot o cb + toWord i, addr + toWord (i / len) * stride + toWord (i % len))
  | _ => (0, 0)

/-- The HGEMVs at a base die, in arrival order. -/
def State.atBaseDie (s : State) (stack : Nat) : List EngOp :=
  let here (o : EngOp) : Bool := o.arrived.isSome && match o.body with | .hgemv _ _ _ _ n => n == stack | _ => false
  sortBy (fun a b => decide (a.arrived.getD 0 ≤ b.arrived.getD 0)) (s.ops.filter here)

/-! ### Operations and the cores they use (07 R199) -/

/-- Addresses that the next span of a copy uses, and those of the other operations. -/
def State.opAddrs (s : State) (o : EngOp) : List Word :=
  match o.body with
  | .copy .. | .fill .. | .drain .. =>
    (locsFrom o.pos (Nat.min 4096 (o.body.total - o.pos))).flatMap fun i => [(s.copyPair o i).1, (s.copyPair o i).2]
  | .hgemv _ _ xv y _ => [xv, y]
  | .rma _ addr .. => [addr]

/-- The cores whose state an operation reads or writes. -/
def State.opCores (s : State) (o : EngOp) : List Nat :=
  let at_ (a : Word) : Option Nat :=
    match wfld a 56 8 with
    | 0xF0 => some o.core
    | 0xF4 => s.coreOfL (coreSite o.core) (wfld a 40 16)
    | _ => none
  let mine := match o.body with | .fill .. | .drain .. => [o.core] | _ => []
  (mine ++ (s.opAddrs o).filterMap at_).dedup

/-- Whether a core has a saved image of a context while it does other work. -/
def State.lentOut (s : State) (asid k : Nat) : Bool :=
  s.saved.any fun v => v.stashed && v.asid.toNat == asid && v.image.lcore == (s.core k).lcore

/-- Whether pre-emption lets an operation go on: every core whose state it reads or writes is in RUN (07 R199). -/
def State.opRuns (s : State) (o : EngOp) : Bool :=
  (s.opCores o).all fun k => (s.core k).phase == .run && (k == o.core || !s.lentOut o.asid k)

end Sys2Proof.Machine
end

