-- ==== Sys2Proof/Machine/Matrix.lean ====
section
/-! DEFINITION. The matrix array: the instructions of MAJ 0x90 to 0x96, and the start, the rows and the completion of
their queue entries (09). -/

namespace Sys2Proof

/-! ### Formats (09 R239, R240) -/

/-- Element format of an MFMT; C4 codes stand for BF16 entries. -/
def MFmt.elem : MFmt → EFmt
  | .bf16 | .c4 => .bf16
  | .fp16 => .f16
  | .e4m3 => .e4m3
  | .e5m2 => .e5m2
  | .int8 => .i8
  | .uint8 => .u8

/-- Tile N of a weight format. -/
def MFmt.tileN : MFmt → Nat
  | .bf16 | .fp16 => 64
  | .c4 => 256
  | _ => 128

/-- Bytes of an element of a streamed or loaded row. -/
def MFmt.bytes : MFmt → Nat
  | .bf16 | .fp16 => 2
  | _ => 1

/-- Bytes of a streamed row (09 R255). -/
def MFmt.rowBytes (f : MFmt) : Nat := 96 * f.bytes

/-- Bytes of a drained element. -/
def DFmt.bytes : DFmt → Nat
  | .f32 => 4
  | _ => 2

end Sys2Proof

namespace Sys2Proof.Machine

/-! ### Shapes (09 R244) -/

/-- Whether the array accepts activations of a format with weights of one (09 Table 09.3). -/
def pairAccepted (w a : MFmt) : Bool :=
  match w, a with
  | .bf16, .bf16 | .fp16, .fp16 | .c4, .bf16 => true
  | .e4m3, .e4m3 | .e4m3, .e5m2 | .e5m2, .e4m3 | .e5m2, .e5m2 => true
  | .int8, .int8 | .int8, .uint8 | .uint8, .int8 | .uint8, .uint8 => true
  | _, _ => false

/-- Rows of a shape. -/
def shapeRows (shape : Bool) : Nat := if shape then 64 else 256

/-- Columns of a shape. -/
def shapeCols (shape : Bool) : Nat := if shape then 256 else 64

/-- Accumulator set `n`. -/
def Matrix.set (x : Matrix) (n : Nat) : AccSet := vget AccSet.blank x.acc n

/-- Where row `r` of a window lies: set and row (09 R244). -/
def Matrix.place (x : Matrix) (set row0 r : Nat) : Nat × Nat :=
  let n := shapeRows (x.set set).shape
  (set + (row0 + r) / n, (row0 + r) % n)

/-- The sets that a window of `m` rows of `r` rows a set names (09 R244): those that its rows reach, and the first with no row. -/
def windowSets (r set row0 m : Nat) : List Nat :=
  if m = 0 then [set] else locsFrom (set + row0 / r) ((row0 + m - 1) / r + 1 - row0 / r)

/-- The sets that a window of `m` rows names in the shape that its first set has (09 R244). -/
def Matrix.named (x : Matrix) (set row0 m : Nat) : List Nat := windowSets (shapeRows (x.set set).shape) set row0 m

/-- A cell of a set. -/
def AccSet.cell (a : AccSet) (row col : Nat) : BitVec 32 := tget 0 a.cells (shapeCols a.shape * row + col)

/-- Writes a cell, which then holds no error; a cell that is not listed is +0. -/
def AccSet.putCell (a : AccSet) (row col : Nat) (v : BitVec 32) : AccSet :=
  let p := shapeCols a.shape * row + col
  { a with cells := if v = 0 then tdel a.cells p else tput a.cells p v, bad := a.bad.filter fun n => n != p }

/-- Whether one of `n` cells of a row from a column holds an uncorrectable error. -/
def AccSet.rowBad (a : AccSet) (row col n : Nat) : Bool :=
  a.bad.any fun p => decide (shapeCols a.shape * row + col ≤ p) && decide (p < shapeCols a.shape * row + col + n)

/-- The matrix state of a core, changed. -/
def State.modMtx (s : State) (c : Nat) (f : Matrix → Matrix) : State := s.modCore c fun k => { k with mtx := f k.mtx }

/-- An accumulator set, changed. -/
def State.modAcc (s : State) (c n : Nat) (f : AccSet → AccSet) : State :=
  s.modMtx c fun x => { x with acc := vset x.acc n (f (x.set n)) }

/-- A queue entry, changed. -/
def State.modEntry (s : State) (c : Nat) (t : Word) (f : MEntry → MEntry) : State :=
  s.modMtx c fun x => { x with queue := mapWhere (fun e => e.ticket == t) f x.queue }

/-! ### Issue (09 R245) -/

/-- The sets that an entry names for the waits of 09 Table 09.4: the widest reach that a shape could give it. -/
def MBody.reach : MBody → List Nat
  | .stream x _ _ m => locsFrom x.set.toNat (Nat.min 3 (x.set.toNat + (x.row0.toNat + Nat.max m 1 - 1) / 64) + 1 - x.set.toNat)
  | .drain x _ _ m => locsFrom x.set.toNat (Nat.min 3 (x.set.toNat + (x.row0.toNat + Nat.max m 1 - 1) / 64) + 1 - x.set.toNat)
  | .clear _ set => [set]
  | _ => []

/-- The shape that a set has once some entries before are done (09 R244). -/
def Matrix.shapeAfter (x : Matrix) (l : List MEntry) (set : Nat) : Bool :=
  l.foldl (fun r e => match e.body with | .clear shape n => if n = set then shape else r | _ => r)
    (vget AccSet.blank x.acc set).shape

/-- The sets that an entry names (09 R244): those that its rows reach in the shape that its first set has once the entries
before it are done; none lies beyond acc3. -/
def Matrix.names (x : Matrix) (before : List MEntry) (b : MBody) : List Nat :=
  let rows (set row0 m : Nat) : List Nat :=
    (windowSets (shapeRows (x.shapeAfter before set)) set row0 m).filter fun n => decide (n < 4)
  match b with
  | .stream y _ _ m => rows y.set.toNat y.row0.toNat m
  | .drain y _ _ m => rows y.set.toNat y.row0.toNat m
  | .clear _ set => [set]
  | _ => []

/-- A matrix instruction commits the region and enters the queue, or waits for room in it. The sets it names stop
being free for spill (07 R191). -/
def State.enterMatrix (s : State) (o : Ops) (body : MBody) : State :=
  let s := s.commit
  let k := s.myCore
  if 16 ≤ k.mtx.queue.length then s.wait (.queue 2)
  else
    let t := k.nextTicket 2
    let isStream := match body with | .stream .. => true | _ => false
    let pair := if isStream then k.mtx.joint.map fun id => (id, k.mtx.streams) else none
    let e : MEntry :=
      { ticket := t, own := s.me.own, owner := s.me.sid, slot := s.cur.2, pc := s.me.pc, word := s.me.word, body, st := .queued, row := 0,
        base := 0, claim := none, pair, waitNo := s.fresh }
    let s := (s.modMyCore fun k => k.issue 2).tick
    let s := s.modMtx s.cur.1 fun x =>
      { x with queue := x.queue ++ [e], streams := if pair.isSome then x.streams + 1 else x.streams }
    ((k.mtx.names k.mtx.queue body).foldl (fun s n => s.modAcc s.cur.1 n fun a => { a with free := false }) s).putD o t

/-- A stride operand: zero selects packed rows (09 R250). -/
def packed (st : Word) (bytes : Nat) : Word := if st = 0 then toWord bytes else st

/-- MWLOAD (09 R251). -/
def execMwload (wfmt : MFmt) (wsc : Bool) (o : Ops) (s : State) : Host.Outcome State Fault Refusal :=
  .next (s.instr 0x90 0x00 o fun s =>
    s.enterMatrix o (.load wfmt (s.val o.a) (packed (s.val o.b) 128) (if wsc then some (s.val o.c) else none)))

/-- MCBOOK (09 R252). -/
def execMcbook (o : Ops) (s : State) : Host.Outcome State Fault Refusal :=
  .next (s.instr 0x91 0x00 o fun s => s.enterMatrix o (.book (s.val o.a + s.val o.b)))

/-- MSTREAM (09 R255). -/
def execMstream (x : MStreamX) (o : Ops) (s : State) : Host.Outcome State Fault Refusal :=
  .next (s.instr 0x92 0x00 o fun s =>
    s.enterMatrix o (.stream x (s.val o.a) (packed (if x.src then 0 else s.val o.b) x.afmt.rowBytes) (s.val o.c).toNat))

/-- MDRAIN (09 R256). -/
def execMdrain (x : MDrainX) (o : Ops) (s : State) : Host.Outcome State Fault Refusal :=
  .next (s.instr 0x93 0x00 o fun s =>
    s.enterMatrix o
      (.drain x (s.val o.a) (packed (if x.src then 0 else s.val o.b) (x.nlen.toNat * x.dfmt.bytes)) (s.val o.c).toNat))

/-- MCLR (09 R254). -/
def execMclr (shape : Bool) (set : BitVec 2) (o : Ops) (s : State) : Host.Outcome State Fault Refusal :=
  .next (s.instr 0x94 0x00 o fun s => s.enterMatrix o (.clear shape set.toNat))

/-- MSWAP (09 R253). -/
def execMswap (o : Ops) (s : State) : Host.Outcome State Fault Refusal :=
  .next (s.instr 0x95 0x00 o fun s => s.enterMatrix o .swap)

/-- MWAIT: waits until ESEQ[2] reaches its target (09 R257). -/
def execMwait (all : Bool) (o : Ops) (s : State) : Host.Outcome State Fault Refusal :=
  .next (s.instr 0x96 0x00 o fun s => s.awaitSeq o 2 (if all then vget 0 s.myCore.issq 2 else s.val o.a))

/-! ### Bytes that an entry reads or writes -/

/-- Rows of `n` bytes from a base. -/
def rowSpans (base st : Word) (m n : Nat) : List (Word × Nat) := (List.range m).map fun r => (base + toWord r * st, n)

/-- Address of the activation scale plane (09 R255). -/
def scalePlane (base st : Word) (m : Nat) : Word := base + toWord m * st

/-- What an entry reads or writes, from the base of its rows (09 R261). -/
def MBody.spans (b : MBody) (base : Word) : List (Word × Nat) :=
  match b with
  | .load wfmt src st scales =>
    rowSpans src st 96 128 ++ (match scales with | some a => [(a, 4 * wfmt.tileN)] | none => [])
  | .book a => [(a, 32)]
  | .stream x _ st m =>
    rowSpans base st m (x.klen.toNat * x.afmt.bytes) ++ if x.asc then [(scalePlane base st m, 4 * m)] else []
  | .drain x _ st m => rowSpans base st m (x.nlen.toNat * x.dfmt.bytes)
  | .clear .. | .swap => []

/-- Whether two runs of bytes meet. -/
def spansMeet (a b : Word × Nat) : Bool :=
  decide (a.1.toNat < b.1.toNat + b.2) && decide (b.1.toNat < a.1.toNat + a.2)

/-- The first byte of a run that lies outside windows 0xF0, 0xF1 and 0xF2, or beyond their size (09 Table 09.9,
check 7). -/
def State.spanBad (s : State) (c : Nat) (x : Word × Nat) : Option Word :=
  let size := match wfld x.1 56 8 with
    | 0xF0 => s.coreWin c
    | 0xF1 => cluBytes
    | 0xF2 => chipBytes
    | _ => 0
  let off := wfld x.1 0 24
  if x.2 = 0 then none
  else if wfld x.1 24 32 ≠ 0 || size ≤ off then some x.1
  else if size < off + x.2 then some (x.1 + toWord (size - off))
  else none

/-- The lowest of some addresses. -/
def lowest (l : List Word) : Option Word :=
  l.foldl (fun r a => match r with | some b => if a.ult b then some a else some b | none => some a) none

/-- Location of the first byte of a run that lies in windows 0xF0 to 0xF2 of a core. -/
def winBase (c : Nat) (a : Word) : Nat :=
  match wfld a 56 8 with
  | 0xF0 => locCore c (wfld a 0 24)
  | 0xF1 => locClu (coreClu c) (wfld a 0 24)
  | _ => locChip (coreSite c) (wfld a 0 24)

/-- Locations of a run that has passed its checks. -/
def spanLocs (c : Nat) (x : Word × Nat) : List Nat := locsFrom (winBase c x.1) x.2

/-- Misalignment of an entry: the address reported is the lowest row start that fails, or the second row's where only the
stride of a single row does (09 R261, Table 09.9, check 8; log 23). -/
def MBody.misaligned (b : MBody) (base : Word) : Option Word :=
  let rows (n m : Nat) (a st : Word) : Option Word :=
    if a.toNat % n = 0 && st.toNat % n == 0 then none
    else some ((lowest (((List.range m).map fun r => a + toWord r * st).filter fun x => x.toNat % n != 0)).getD (a + st))
  match b with
  | .load _ src st _ => rows 64 96 src st
  | .book a => if a.toNat % 32 ≠ 0 then some a else none
  | .stream _ _ st m => rows 32 m base st
  | .drain _ _ st m => rows 4 m base st
  | .clear .. | .swap => none

/-- Checks 7 and 8 of 09 Table 09.9: SUB and address. -/
def State.placeChecks (s : State) (c : Nat) (b : MBody) (base : Word) : Option (Nat × Word) :=
  match lowest ((b.spans base).filterMap (s.spanBad c)), b.misaligned base with
  | some a, _ => some (0x40, a)
  | none, some a => some (0x41, a)
  | none, none => none

/-- Checks 1 to 3 of 09 Table 09.9 for a window. -/
def Matrix.windowChecks (x : Matrix) (set row0 m col0 nlen : Nat) : Option Nat :=
  let shape := (x.set set).shape
  if 256 < m || 3 < (x.place set row0 (m - 1)).1 then some 0x42
  else if (x.named set row0 m).any fun n => (x.set n).shape != shape then some 0x45
  else if shapeCols shape < col0 + nlen then some 0x43
  else none

/-- Check 6 of 09 Table 09.9. -/
def CbDesc.slotCheck (d : CbDesc) (code : BitVec 8) (need : Nat) : Option (Nat × Word) :=
  if d.valid && code == 2 && decide (need ≤ d.slotBytes) then none else some (0x48, d.base.setWidth 64)

/-- Checks 1 to 6 of an entry (09 R247): 1 to 3 and 5 of a drain too, the front buffer's tile N among them (09 R261). -/
def Core.earlyChecks (k : Core) (b : MBody) : Option (Nat × Word) :=
  let x := k.mtx
  match b with
  | .stream y _ _ m =>
    match x.windowChecks y.set.toNat y.row0.toNat m y.col0.toNat y.nlen.toNat with
    | some n => some (n, 0)
    | none =>
      if x.front.wfmt.tileN < y.nlen.toNat then some (0x43, 0)
      else if !pairAccepted x.front.wfmt y.afmt then some (0x44, 0)
      else if x.front.poison then some (0x46, 0)
      else if y.src then
        (k.cb y.cb.toNat).slotCheck (k.cb y.cb.toNat).cons (m * y.afmt.rowBytes + if y.asc then 4 * m else 0)
      else none
  | .drain y _ _ m =>
    match x.windowChecks y.set.toNat y.row0.toNat m y.col0.toNat y.nlen.toNat with
    | some n => some (n, 0)
    | none =>
      if x.front.wfmt.tileN < y.nlen.toNat then some (0x43, 0)
      else if (x.named y.set.toNat y.row0.toNat m).any fun n => (x.set n).poison then some (0x47, 0)
      else if y.src then (k.cb y.cb.toNat).slotCheck (k.cb y.cb.toNat).prod (m * (y.nlen.toNat * y.dfmt.bytes))
      else none
  | _ => none

/-- Whether an entry has nothing to do (09 R249). -/
def MBody.empty : MBody → Bool
  | .stream x _ _ m => m == 0 || x.nlen == 0 || x.klen == 0
  | .drain x _ _ m => m == 0 || x.nlen == 0
  | _ => false

/-! ### Waits (09 Table 09.4) -/

/-- Whether two entries name a common set. -/
def MBody.shares (a b : MBody) : Bool := a.reach.any b.reach.contains

/-- Whether an earlier drain's written bytes meet the bytes that an entry reads. A drain into a circular buffer has
no bytes before it has claimed its slot. -/
def MEntry.overlaps (e : MEntry) (b : MBody) (base : Word) : Bool :=
  match e.body with
  | .drain x _ _ _ =>
    !e.body.empty && (!x.src || e.claim.isSome) && e.st != .void &&
      (e.body.spans e.base).any fun p => (b.spans base).any (spansMeet p)
  | _ => false

/-- Whether an earlier entry of the queue lets an entry start. -/
def MEntry.letsStart (e : MEntry) (b : MBody) (base : Word) : Bool :=
  e.st != .queued &&
    match b, e.body with
    | .load .., .load .. | .load .., .book .. | .load .., .swap => false
    | .book .., .load .. | .book .., .book .. | .book .., .swap => false
    | .load .., .drain .. | .book .., .drain .. => !e.overlaps b base
    | .swap, .load .. | .swap, .book .. | .swap, .swap => false
    | .swap, .stream .. => e.st != .running
    | .stream .., .swap => false
    | .stream .., .clear .. => !b.shares e.body
    | .stream .., .drain .. => !b.shares e.body && !e.overlaps b base
    | .drain .., .stream .. | .drain .., .clear .. | .drain .., .drain .. => !b.shares e.body
    | .clear .., _ => !b.shares e.body
    | _, _ => true

/-- Slots of a descriptor that streams have acquired and not yet popped: each full slot serves one (08 R234). -/
def Core.acquired (k : Core) (cb : Nat) : Nat :=
  (k.mtx.queue.filter fun e => e.claim.isSome &&
    match e.body with | .stream x .. => x.cb.toNat == cb | _ => false).length

/-- The slot number that the next stream to acquire a slot of a descriptor gets. -/
def Core.nextFull (k : Core) (cb : Nat) : BitVec 32 := (k.cb cb).pops + BitVec.ofNat 32 (k.acquired cb)

/-- The base of an entry's rows: an address form's operand, or the slot it would take now. -/
def Core.entryBase (k : Core) (b : MBody) : Word :=
  match b with
  | .stream x base _ _ => if x.src then (k.cb x.cb.toNat).slotAddr (k.nextFull x.cb.toNat) else base
  | .drain x base _ _ => if x.src then (k.cb x.cb.toNat).slotAddr (k.cb x.cb.toNat).claims else base
  | .load _ src _ _ => src
  | .book a => a
  | _ => 0

/-- Whether the circular buffer gives an entry its slot. An entry that fails its early checks, or has nothing to
do, needs none. -/
def Core.slotReady (k : Core) (b : MBody) : Bool :=
  if b.empty || (k.earlyChecks b).isSome then true
  else
    match b with
    | .stream x .. => !x.src || decide (k.acquired x.cb.toNat < (k.cb x.cb.toNat).full)
    | .drain x .. => !x.src || (k.cb x.cb.toNat).claimable
    | _ => true

/-- Whether every wait of an entry of a core is over. -/
def Core.entryReady (k : Core) (e : MEntry) : Bool :=
  e.st == .queued && k.phase == .run && k.slotReady e.body &&
    (k.mtx.queue.takeWhile fun f => f.ticket != e.ticket).all fun f => f.letsStart e.body (k.entryBase e.body)

/-- The sets that an entry of the queue names. -/
def Core.entryNames (k : Core) (e : MEntry) : List Nat :=
  k.mtx.names (k.mtx.queue.takeWhile fun f => f.ticket != e.ticket) e.body

/-- Whether a spilled block lies in one of some sets. -/
def SpillLoc.inSets (x : SpillLoc) (sets : List Nat) : Bool :=
  match x with
  | .acc a _ => sets.contains a
  | .area _ => false

/-- The spilled blocks of a core that lie in some sets: park entry, number of the block, place. -/
def Core.spillsIn (k : Core) (sets : List Nat) : List (Nat × Nat × SpillLoc) :=
  k.park.flatMap fun e => ((e.2.blocks.zip (List.range e.2.blocks.length)).filter fun b => b.1.inSets sets).map fun b =>
    (e.1, b.2, b.1)

/-- Whether the spilled blocks that an entry's sets hold have a place to move to (07 R192). -/
def State.canMove (s : State) (c : Nat) (e : MEntry) : Bool :=
  decide (((s.core c).spillsIn ((s.core c).entryNames e)).length ≤ (s.freePlaces c).length)

/-- The spilled blocks that some sets hold move, each to the first place available (07 R192). -/
def State.moveSpilled (s : State) (c : Nat) (sets : List Nat) : State :=
  ((s.core c).spillsIn sets).foldl (fun s b =>
    match s.freePlaces c with
    | y :: _ =>
      ((s.putBlock c y (s.blockAt c b.2.2)).clearBlock c b.2.2).modCore c fun k =>
        { k with park := mapWhere (fun e => e.1 == b.1) (fun e => (e.1, { e.2 with blocks := e.2.blocks.set b.2.1 y })) k.park }
    | [] => s) s

/-- The other cores of a joint gang. -/
def State.jointCores (s : State) (c id : Nat) : List Nat :=
  (locsFrom (4 * coreClu c) 4).filter fun n => n != c && (s.core n).mtx.joint == some id

/-- The entry of a core that belongs to a pair, while it has not started. -/
def Core.pairEntry (k : Core) (p : Nat × Nat) : Option MEntry :=
  k.mtx.queue.find? fun e => e.pair == some p && e.st == .queued

/-- Whether a member core lets a pair start: its entry has entered its queue and is ready, or has gone (10 R271). -/
def State.pairReady (s : State) (n : Nat) (p : Nat × Nat) : Bool :=
  let k := s.core n
  match k.pairEntry p with
  | some e => k.entryReady e && s.canMove n e
  | none => decide (p.2 < k.mtx.streams)

/-! ### Start -/

/-- The report of an entry that fails (09 R247). -/
def MEntry.report (e : MEntry) (code : Code) (sub : Nat) (addr : Word) : FaultRec :=
  { code, sub := BitVec.ofNat 8 sub, deferred := true, word := e.word, pc := e.pc, addr }

/-- An entry fails a check: it writes nothing, and only completes. -/
def State.failEntry (s : State) (c : Nat) (e : MEntry) (x : Nat × Word) : State :=
  (s.modEntry c e.ticket fun e => { e with st := .void, pair := none }).deferFault c e.own
    e.owner (e.report .engine x.1 x.2)

/-- What an accumulator watchpoint compares (19 Table 19.2, CMP). -/
def cmpHolds (cmp : Nat) (v w : BitVec 32) : Bool :=
  match cmp with
  | 0 => true
  | 1 => feq v w
  | 2 => !(fv32 v).isNan && !(fv32 w).isNan && !feq v w
  | 3 => flt w v
  | 4 => flt v w
  | 5 => (fv32 v).isNan
  | 6 => (fv32 v).isInf
  | _ => false

/-- Accumulator watchpoints of a core on written cells (19 R431). -/
def State.watchCells (s : State) (c : Nat) (e : MEntry) (hit : Nat → Nat → Nat → Bool) : State :=
  (List.range 4).foldl (fun s i =>
    let w := vget { ctl := 0, val := 0, hit := 0 } (s.core c).wp i
    let set := wfld w.ctl 22 2
    let row := wfld w.ctl 8 8
    let col := wfld w.ctl 0 8
    let a := (s.core c).mtx.set set
    if wfld w.ctl 62 2 = 2 && hit set row col && decide (row < shapeRows a.shape) && decide (col < shapeCols a.shape) &&
        cmpHolds (wfld w.ctl 57 3) (a.cell row col) (w.val.setWidth 32) then
      s.fire c i (some (c, e.own)) e.owner e.pc 2 (toWord (set * 2 ^ 22 + row * 2 ^ 8 + col))
    else s) s

/-- Every cell of a set becomes +0. -/
def State.zeroSet (s : State) (c : Nat) (e : MEntry) (set : Nat) : State :=
  (s.modAcc c set fun a => { a with cells := [], bad := [] }).watchCells c e fun n _ _ => n == set

/-- An entry with nothing to do (09 R249). -/
def State.voidEntry (s : State) (c : Nat) (e : MEntry) : State :=
  let s := s.modEntry c e.ticket fun e => { e with st := .void, pair := none }
  match e.body with
  | .stream x .. => if x.clr then s.zeroSet c e x.set.toNat else s
  | .drain x .. => if x.clr then s.zeroSet c e x.set.toNat else s
  | _ => s

/-- The claim of an SRC 1 drain, or the slot that an SRC 1 stream acquires. -/
def Core.takeSlot (k : Core) (b : MBody) : Option (BitVec 32) :=
  match b with
  | .stream x .. => if x.src then some (k.nextFull x.cb.toNat) else none
  | .drain x .. => if x.src then some (k.cb x.cb.toNat).claims else none
  | _ => none

/-- An SRC 1 drain makes its claim. -/
def State.claimFor (s : State) (c : Nat) (b : MBody) : State :=
  match b with
  | .drain x .. => if x.src then s.modCb c x.cb.toNat fun d => { d with claims := d.claims + 1 } else s
  | _ => s

/-- What a failed check leaves of an entry's slot: a stream keeps it, to pop it when it completes; a drain sets ERR (09 R247,
R256). -/
def State.giveBack (s : State) (c : Nat) (e : MEntry) (claim : Option (BitVec 32)) : State :=
  match e.body with
  | .stream .. => s.modEntry c e.ticket fun e => { e with claim }
  | .drain x .. => if x.src then s.failCb c x.cb.toNat else s
  | _ => s

/-- An entry starts (09 R246, R247): its checks, its slot, and its work. -/
def State.startEntry (s : State) (c : Nat) (e : MEntry) : State :=
  let s := s.moveSpilled c ((s.core c).entryNames e)
  let k := s.core c
  if e.body.empty then s.voidEntry c e
  else
    match k.earlyChecks e.body with
    | some x => s.failEntry c e x
    | none =>
      let base := k.entryBase e.body
      let claim := k.takeSlot e.body
      let s := s.claimFor c e.body
      match s.placeChecks c e.body base with
      | some x => (s.giveBack c e claim).failEntry c e x
      | none => s.modEntry c e.ticket fun e => { e with st := .running, base, claim, pair := none }

/-- MATRIX_ENTRY_START (09 R246): the entry starts when its waits are over; every entry of its pair starts with it
(10 R271). -/
def execMatrixEntryStart (core ticket : Nat) (s : State) : Host.Outcome State Fault Refusal :=
  .next (
    match (s.core core).mtx.queue.find? fun e => e.ticket == toWord ticket with
    | none => s
    | some e =>
      if !(s.core core).entryReady e || !s.canMove core e then s
      else
        match e.pair with
        | none => s.startEntry core e
        | some p =>
          let others := s.jointCores core p.1
          if others.all fun n => s.pairReady n p then
            (others.foldl (fun s n => match (s.core n).pairEntry p with | some f => s.startEntry n f | none => s) s).startEntry
              core e
          else s)

/-! ### Rows (09 R242, R243, R255, R256) -/

/-- The value of weight element `k` of column `n` in a buffer (09 Table 09.2, 03 R81). -/
def WBuf.weight (w : WBuf) (k n : Nat) : FV :=
  let row := (tget 0 w.rows k).toNat
  match w.wfmt with
  | .c4 => elemValue .bf16 (tget 0 w.codebook (bitsOf row (4 * n) 4)).toNat
  | f => elemValue f.elem (bitsOf row (8 * f.bytes * n) (8 * f.bytes))

/-- A scale applied to an exact sum (03 R80). -/
def scaled (v : FV) (ea ew : Byte) : FV :=
  if ea = 0xFF || ew = 0xFF then .nan else v.scale (((ea.toNat + ew.toNat : Nat) : Int) - 254)

/-- An exact zero is +0 (03 R85). -/
def plusZero (v : FV) : FV := if v.isZero then fvInt 0 else v

/-- Block sum `b_j` of a row whose elements are `a` in column `n` (09 R242; 03 R85, R86). -/
def WBuf.block (w : WBuf) (a : List FV) (ea : Byte) (j n : Nat) : FV :=
  let ps := (List.range 24).filterMap fun i =>
    (a[24 * j + i]?).map fun x => (x.mul (w.weight (24 * j + i) n)).1
  if ps.any FV.isNan then .nan
  else
    scaled (plusZero (ps.foldl (fun t p => (t.add false p).1) (fvInt 0))) ea
      (tget 0x7F w.scales (256 * j + n))

/-- A cell after the blocks of a row are added (03 R85). -/
def WBuf.accumulate (w : WBuf) (a : List FV) (ea : List Byte) (n : Nat) (c : BitVec 32) : BitVec 32 :=
  (List.range ((a.length + 23) / 24)).foldl (fun c j => (rne32 ((fv32 c).add false (w.block a (nth 0x7F ea j) j n)).1).1) c

/-- An uncorrectable error in what an entry reads: reported, what is kept is poisoned, and a drain fails its slot (09 R247,
R256). -/
def State.entryUncorr (s : State) (c : Nat) (e : MEntry) (addr : Word) : State :=
  let s :=
    match e.body with
    | .stream x _ _ m => ((s.core c).mtx.named x.set.toNat x.row0.toNat m).foldl
        (fun (s : State) n => s.modAcc c n fun a => { a with poison := true }) s
    | .load .. | .book .. => s.modMtx c fun x => { x with back := { x.back with poison := true } }
    | .drain x .. => if x.src then s.failCb c x.cb.toNat else s
    | _ => s
  let claim := match e.body with | .drain .. => none | _ => e.claim
  (s.modEntry c e.ticket fun e => { e with st := .ended, claim }).deferFault c e.own e.owner (e.report .memUncorr 0 addr)

/-- Address of the first byte of some runs that holds an uncorrectable error. -/
def State.spansUncorr (s : State) (c : Nat) (l : List (Word × Nat)) : Option Word :=
  l.findSome? fun x => (s.firstBad (spanLocs c x)).map fun i => x.1 + toWord i

/-- A row done: the entry has ended after its last one. -/
def MEntry.rowDone (e : MEntry) (m : Nat) : MEntry :=
  { e with row := e.row + 1, st := if e.row + 1 = m then .ended else .running }

/-- A row of a stream is read and added (09 R255); a cell that holds an uncorrectable error has no address (log 23). -/
def State.streamRow (s : State) (c : Nat) (e : MEntry) (x : MStreamX) (st : Word) (m : Nat) : State :=
  let b := x.afmt.bytes
  let row : Word × Nat := (e.base + toWord e.row * st, x.klen.toNat * b)
  let sc : Word × Nat := (scalePlane e.base st m + toWord (4 * e.row), if x.asc then 4 else 0)
  let at_ := (s.core c).mtx.place x.set.toNat x.row0.toNat e.row
  let cellBad := !x.clr && ((s.core c).mtx.set at_.1).rowBad at_.2 x.col0.toNat x.nlen.toNat
  match s.spansUncorr c [row, sc], cellBad with
  | some a, _ => s.entryUncorr c e a
  | none, true => s.entryUncorr c e 0
  | none, false =>
    let bs := (spanLocs c row).map (memGet s.mem)
    let a := (List.range x.klen.toNat).map fun k => elemValue x.afmt.elem (leNat ((bs.drop (b * k)).take b))
    let ea := (spanLocs c sc).map (memGet s.mem)
    let w := (s.core c).mtx.front
    let (set, r) := (s.core c).mtx.place x.set.toNat x.row0.toNat e.row
    let s := s.peekFor c e.own e.owner e.pc 2 (spanLocs c row ++ spanLocs c sc)
    let s := (List.range x.nlen.toNat).foldl (fun (s : State) n =>
      s.modAcc c set fun t =>
        let col := x.col0.toNat + n
        t.putCell r col (w.accumulate a ea n (if x.clr then 0 else t.cell r col))) s
    let s := s.watchCells c e fun n i col => n == set && i == r && decide (x.col0.toNat ≤ col) &&
      decide (col < x.col0.toNat + x.nlen.toNat)
    s.modEntry c e.ticket fun e => e.rowDone m

/-- A drained element (09 R256). -/
def drained (f : DFmt) (sat : Bool) (v : BitVec 32) : Nat :=
  match f with
  | .f32 => (Fmt.f32.round (fv32 v) .rne sat 0).1
  | .f16 => (Fmt.f16.round (fv32 v) .rne sat 0).1
  | .bf16 => (Fmt.bf16.round (fv32 v) .rne sat 0).1

/-- A row of a drain is written (09 R256), before the entry completes: that completion orders no access (09 R248) is a latitude
which the model does not use. A cell that holds an uncorrectable error ends the drain (09 R247); it has no address (log 23). -/
def State.drainRow (s : State) (c : Nat) (e : MEntry) (x : MDrainX) (st : Word) (m : Nat) : State :=
  let (set, r) := (s.core c).mtx.place x.set.toNat x.row0.toNat e.row
  let a := (s.core c).mtx.set set
  let b := x.dfmt.bytes
  let row := e.base + toWord e.row * st
  if a.rowBad r x.col0.toNat x.nlen.toNat then s.entryUncorr c e 0
  else
  let cells := (List.range x.nlen.toNat).flatMap fun n =>
    cellsOf (spanLocs c (row + toWord (b * n), b)) (drained x.dfmt x.sat (a.cell r (x.col0.toNat + n)))
  let s := s.pokeFor c e.own e.owner e.pc 2 cells
  let s :=
    if x.clr then
      ((List.range x.nlen.toNat).foldl (fun (s : State) n => s.modAcc c set fun t => t.putCell r (x.col0.toNat + n) 0) s).watchCells c e
        fun n i col => n == set && i == r && decide (x.col0.toNat ≤ col) && decide (col < x.col0.toNat + x.nlen.toNat)
    else s
  s.modEntry c e.ticket fun e => e.rowDone m

/-- MATRIX_ROW_ADD (09 R246, R256): the next row of a stream is added to its cells, or the next row of a drain is
written. Rows of successive streams are added in queue order, and a core that is pre-empted admits no further row
(09 R259). -/
def execMatrixRowAdd (core ticket : Nat) (s : State) : Host.Outcome State Fault Refusal :=
  .next (
    let k := s.core core
    match k.mtx.queue.find? fun e => e.ticket == toWord ticket with
    | none => s
    | some e =>
      if e.st != .running || k.phase != .run then s
      else
        match e.body with
        | .stream x _ st m =>
          let busy := (k.mtx.queue.takeWhile fun f => f.ticket != e.ticket).any fun f =>
            f.st == .running && match f.body with | .stream .. => true | _ => false
          if busy then s else s.streamRow core e x st m
        | .drain x _ st m => s.drainRow core e x st m
        | _ => s)

/-! ### Completion (09 R258) -/

/-- A weight buffer loaded from its runs (09 R251). -/
def State.loadTile (s : State) (c : Nat) (w : WBuf) (wfmt : MFmt) (src st : Word) (scales : Option Word) : WBuf :=
  let row (k : Nat) : BitVec 1024 := BitVec.ofNat 1024 (memVal s.mem (spanLocs c (src + toWord k * st, 128)))
  let n := wfmt.tileN
  let rows := (List.range 96).filterMap fun k => if row k = 0 then none else some (k, row k)
  let sc := match scales with
    | none => []
    | some a => (List.range 4).flatMap fun j => (List.range n).filterMap fun i =>
        let v := memGet s.mem (winBase c (a + toWord (j * n + i)))
        if v = 0x7F then none else some (256 * j + i, v)
  { w with rows, scales := sc, wfmt, poison := false }

/-- The 16 entries of a codebook (09 R252). -/
def State.loadBook (s : State) (c : Nat) (a : Word) : Tbl (BitVec 16) :=
  (List.range 16).filterMap fun i =>
    let v := BitVec.ofNat 16 (memVal s.mem (spanLocs c (a + toWord (2 * i), 2)))
    if v = 0 then none else some (i, v)

/-- The work of an entry that is done when it completes (09 R251 to R254). -/
def State.entryWork (s : State) (c : Nat) (e : MEntry) : State :=
  match e.body with
  | .load wfmt src st scales =>
    match s.spansUncorr c (e.body.spans src) with
    | some a => s.entryUncorr c e a
    | none =>
      let s := s.peekFor c e.own e.owner e.pc 2 ((e.body.spans src).flatMap (spanLocs c))
      s.modMtx c fun x => { x with back := s.loadTile c x.back wfmt src st scales }
  | .book a =>
    match s.spansUncorr c [(a, 32)] with
    | some b => s.entryUncorr c e b
    | none =>
      let s := s.peekFor c e.own e.owner e.pc 2 (spanLocs c (a, 32))
      s.modMtx c fun x => { x with back := { x.back with codebook := s.loadBook c a } }
  | .swap => s.modMtx c fun x => { x with front := x.back, back := x.front }
  | .clear shape set =>
    let x := (s.core c).mtx
    let later := x.queue.any fun f => f.ticket != e.ticket &&
      (x.names (x.queue.takeWhile fun g => g.ticket != f.ticket) f.body).contains set
    let s := s.modAcc c set fun a => { a with shape, poison := false, free := !later }
    s.zeroSet c e set
  | _ => s

/-- The slot of an SRC 1 entry at its end: a stream pops it, a drain fills it (09 R255, R256). -/
def State.endSlot (s : State) (c : Nat) (e : MEntry) : State :=
  match e.body, e.claim with
  | .stream x .., some _ => s.pop c x.cb.toNat
  | .drain x .., some n => s.fillClaim c x.cb.toNat n
  | _, _ => s

/-- Whether an earlier stream still holds a slot of the same buffer: slots are popped in order (log 39). -/
def Core.popsLater (k : Core) (e : MEntry) : Bool :=
  match e.body, e.claim with
  | .stream x .., some _ => (k.mtx.queue.takeWhile fun f => f.ticket != e.ticket).any fun f =>
      f.claim.isSome && match f.body with | .stream y .. => y.cb == x.cb | _ => false
  | _, _ => false

/-- MATRIX_ENTRY_COMPLETE (09 R258): the entry leaves the queue and ESEQ[2] advances (09 R245), in RUN and in QUIESCE (09 R259). -/
def execMatrixEntryComplete (core ticket : Nat) (s : State) : Host.Outcome State Fault Refusal :=
  .next (
    match (s.core core).mtx.queue.find? fun e => e.ticket == toWord ticket with
    | none => s
    | some e =>
      let phase := (s.core core).phase
      if !e.mayComplete || (s.core core).popsLater e || (phase != .run && phase != .quiesce) then s
      else
        let s := match e.st with
          | .running => s.entryWork core e
          | .ended | .void => s.endSlot core e
          | .queued => s
        let s := s.modMtx core fun x => { x with queue := x.queue.filter fun f => f.ticket != e.ticket }
        s.completeTicket core 2 e.ticket)

end Sys2Proof.Machine
end

