-- ==== Sys2Proof/Machine/Chiplet.lean ====
section
/-! DEFINITION. Copy engines, base-die multiplies, tickets and PAGEREQ: the instructions, and the start, the spans and
the completion of engine operations (11 R287 to R302, R306, R307). -/

namespace Sys2Proof.Machine

/-! ### Issue (11 R287) -/

/-- Entries of a class's issue queue on a core (11 Table 11.2). -/
def queueSize (cls : Nat) : Nat := if cls = 1 then 8 else 16

/-- Operations of a class that a core has in flight. -/
def State.opsOf (s : State) (c cls : Nat) : List EngOp := s.ops.filter fun o => o.core == c && o.cls == cls

/-- The copy engine that a copy of a core goes to (11 Table 11.1): that of its cluster; of the two of a B-class cluster, the
one with fewer copies in flight, the even one when they have as many (log 39). -/
def State.engineFor (s : State) (c : Nat) : Nat :=
  let load (e : Nat) : Nat :=
    (s.ops.filter fun o => o.cls == 0 && coreSite o.core == coreSite c && o.engine == e).length
  if (s.site (coreSite c)).kind == .bClass then
    if load (2 * coreCLU c + 1) < load (2 * coreCLU c) then 2 * coreCLU c + 1 else 2 * coreCLU c
  else coreCLU c

/-- An operation commits the region and enters its class's queue, or waits for room in it. -/
def State.enterEngine (s : State) (o : Ops) (cls : Nat) (body : EngBody) : State :=
  let s := s.commit
  if queueSize cls ≤ (s.opsOf s.cur.1 cls).length then s.wait (.queue cls)
  else
    let p := s.me
    let t := s.myCore.nextTicket cls
    let e : EngOp :=
      { id := s.fresh, core := s.cur.1, slot := s.cur.2, cls, ticket := t, own := p.own, owner := p.sid, pc := p.pc, word := p.word,
        sec := p.sec, asid := p.asid.toNat, body, st := .queued, pos := 0, failed := false, status := 0, slotNo := none,
        before := p.nextSeq, waitNo := s.fresh, data := [], seq := 0, got := [], refused := [], again := none, walk := none, pages := [], arrived := none,
        engine := s.engineFor s.cur.1 }
    let s := State.tick { s with ops := s.ops ++ [e] }
    (s.modMyCore fun k => k.issue cls).putD o t

/-- ACOPY (11 R289, R290). -/
def execAcopy (x : CopyX) (o : Ops) (s : State) : Host.Outcome State Fault Refusal :=
  .next (s.instr 0xB0 0x00 o fun s =>
    let a := s.val o.a
    let b := s.val o.b
    let c := s.val o.c
    let shape := if x.dim = 3 then (s.pair o.c).setWidth 64 else c
    let strides := if x.dim = 3 then (s.pair o.c).extractLsb' 64 64 else 0
    let body : EngBody :=
      match x.dim.toNat with
      | 1 => .copy a b 1 1 c.toNat 0 0 0 0 x.low x.sync false
      | 2 => .copy a b 1 (wfld shape 32 16) (wfld shape 0 32) (x.srs.signExtend 64) (x.trs.signExtend 64) 0 0 x.low x.sync
          (wfld shape 48 16 != 0)
      | _ => .copy a b (wfld shape 48 16) (wfld shape 32 16) (wfld shape 0 32) (x.srs.signExtend 64) (x.trs.signExtend 64)
          ((strides.extractLsb' 32 32).signExtend 64) ((strides.extractLsb' 0 32).signExtend 64) x.low x.sync false
    s.enterEngine o 0 body)

/-- ACOPYCB.fill (11 R294). -/
def execAcopycbFill (cb : BitVec 4) (sync low : Bool) (o : Ops) (s : State) : Host.Outcome State Fault Refusal :=
  .next (s.instr 0xB1 0x00 o fun s =>
    let w := s.val o.c
    s.enterEngine o 0 (.fill cb (s.val o.a) (s.val o.b) (wfld w 48 16) (wfld w 32 16) (wfld w 0 32) low sync))

/-- ACOPYCB.drain (11 R294). -/
def execAcopycbDrain (cb : BitVec 4) (sync low : Bool) (o : Ops) (s : State) : Host.Outcome State Fault Refusal :=
  .next (s.instr 0xB1 0x00 o fun s =>
    let w := s.val o.c
    s.enterEngine o 0 (.drain cb (s.val o.a) (s.val o.b) (wfld w 48 16) (wfld w 32 16) (wfld w 0 32) low sync))

/-- AWAIT (11 R296). -/
def execAwait (cls : BitVec 2) (all : Bool) (o : Ops) (s : State) : Host.Outcome State Fault Refusal :=
  .next (s.instr 0xB2 0x00 o fun s =>
    s.awaitSeq o cls.toNat (if all then vget 0 s.myCore.issq cls.toNat else s.val o.a))

/-- Operations of a class that the strand that executes owns and that have not completed. -/
def State.ownedOps (s : State) (cls : Nat) : Nat :=
  let own := s.me.own
  if cls = 2 then (s.myCore.mtx.queue.filter fun e => e.own == own).length
  else ((s.opsOf s.cur.1 cls).filter fun e => e.own == own).length

/-- ASEQ (11 R297). -/
def execAseq (cls : BitVec 3) (mode : SeqMode) (o : Ops) (s : State) : Host.Outcome State Fault Refusal :=
  .next (s.instr 0xB3 0x00 o fun s =>
    s.putD o
      (match mode with
      | .iss => vget 0 s.myCore.issq cls.toNat
      | .done => vget 0 s.myCore.eseq cls.toNat
      | .own => toWord (s.ownedOps cls.toNat)))

/-- Element format of a weight of HGEMV. -/
def hfmtElem (f : HFmt) : EFmt := match f with | .bf16 => .bf16 | .e4m3 => .e4m3 | .e5m2 => .e5m2

/-- The translation of a byte of the weight range at issue (11 R300): XLATE, WORLD and PROT as for a load; a page that
is not STACKLOCAL raises STACKLOCAL. -/
def State.weightByte (s : State) (va : Word) (go : Nat → State → State) : State :=
  s.withAccess .load Need.none va 1 fun ps s =>
    let p := ps.headD Piece.blank
    let r := match p.entry with | some e => (ptePage e.pte).r | none => true
    if !r then s.raise .prot 0x10 va
    else if !p.stackLocal then s.raise .stacklocal 0 va
    else go (p.locs.headD 0 / 2 ^ 36) s

/-- HGEMV (11 R299, R300). One that has no weights translates nothing at issue, and goes to the base die of stack 0 (log 39). -/
def execHgemv (x : HgemvX) (o : Ops) (s : State) : Host.Outcome State Fault Refusal :=
  .next (s.instr 0xB4 0x00 o fun s =>
    let w := s.val o.a
    let body (stack : Nat) : EngBody := .hgemv x w (s.val o.b) (s.val o.c) stack
    let last := w + toWord ((x.k.toNat - 1) * x.stride.toNat + x.n.toNat * hfmtBytes x.wfmt - 1)
    if x.k = 0 || x.n = 0 then s.enterEngine o 1 (body 0)
    else
      s.commit.weightByte w fun i s => s.weightByte last fun j s =>
        if i ≠ j then s.raise .stacklocal 0 last else s.enterEngine o 1 (body i))

/-! ### Addresses of engines (11 R291) -/

/-- Verdict on a byte of an engine operation: its locations, and whether its page is stack-local and replicated. -/
inductive EngAcc where
  | ok (locs : List Nat) (stackLocal repl : Bool)
  | bad (sub : Nat)
  /-- its translation has still to be walked -/
  | miss
  /-- its page table entry is not valid -/
  | absent
  /-- a table of its walk was not reached -/
  | lost (code : Code)
  deriving DecidableEq, Repr

/-- Whether an address is a global one. -/
def isGlobal (va : Word) : Bool := wfld va 55 9 == 0

/-- What an operation has of the translations of some addresses, by 64 KiB page: what walks have found for its span, and those of
the cluster TLB (10 R277). -/
def State.engPages (s : State) (o : EngOp) (vas : List Word) : Tbl Got :=
  ((vas.filter isGlobal).map fun a => a.toNat / 2 ^ 16).dedup.foldl (fun t p =>
    let held := s.tlbFind (coreClu o.core) (BitVec.ofNat 12 o.asid) o.sec (toWord (p * 2 ^ 16))
    match (tfind o.pages p).or (held.map Got.page) with
    | some g => tput t p g
    | none => t) []

/-- An operation waits for the walk of a page that it lacks (10 R278); it keeps the translations that it has. -/
def State.engWalk (s : State) (o : EngOp) (pages : Tbl Got) (va : Word) : State :=
  let r := s.joinWalk (coreClu o.core) (BitVec.ofNat 12 o.asid) o.sec va (o.core, o.id, .engine, va)
  r.1.modOp o.id fun o => { o with walk := some r.2, pages }

/-- The translations of a span are used; the operation holds none of them afterwards. -/
def State.usePages (s : State) (o : EngOp) (pages : Tbl Got) : State :=
  let s := pages.foldl (fun s e => match e.2 with | .page t => s.modClu (coreClu o.core) (·.touch t) | _ => s) s
  s.modOp o.id fun o => { o with pages := [] }

/-- The checks of a byte (11 Table 11.7, orders 3 to 5): its locations, every replica for a write (15 R359). -/
def State.engByte (s : State) (o : EngOp) (pages : Tbl Got) (rd wr : Bool) (va : Word) : EngAcc :=
  match s.window o.core o.asid 0 o.sec true va 1 with
  | .error _ => .bad 0x60
  | .ok (.direct base _ wsec) => if wsec != o.sec then .bad 0x63 else .ok [base + wfld va 0 24] false false
  | .ok .glob =>
    match tfind pages (va.toNat / 2 ^ 16) with
    | none => .miss
    | some .absent => .absent
    | some (.lost code) => .lost code
    | some (.page e) =>
      let g := ptePage e.pte
      let ls := if wr then s.reachLocs (coreSite o.core) false e va 1 else s.entryLocs (coreSite o.core) rd e va 1
      if s.foreign o.sec e ls then .bad 0x63
      else if rd && !g.r then .bad 0x61
      else if wr && !g.w then .bad 0x62
      else .ok ls g.stackLocal g.repl

/-- Place of a sub-cause in the order of 11 Table 11.7. -/
def subRank (sub : Nat) : Nat :=
  match sub with
  | 0x60 => 3
  | 0x63 => 4
  | 0x61 | 0x62 => 5
  | _ => 6

/-- The failure reported of some bytes: the earliest check, and for it the lowest address. -/
def worstOf (l : List (Word × Nat)) : Option (Word × Nat) :=
  l.foldl (fun r x =>
    match r with
    | none => some x
    | some y =>
      if subRank x.2 < subRank y.2 || (subRank x.2 == subRank y.2 && x.1.ult y.1) then some x else some y) none

/-- The failing bytes among checked ones. -/
def badOf (l : List (Word × EngAcc)) : List (Word × Nat) :=
  l.filterMap fun x => match x.2 with | .bad n => some (x.1, n) | _ => none

/-- Locations of a byte that passed. -/
def EngAcc.locs : EngAcc → List Nat
  | .ok ls _ _ => ls
  | _ => []

/-- Whether a byte that passed lies on a replicated page. -/
def EngAcc.repl : EngAcc → Bool
  | .ok _ _ r => r
  | _ => false

/-- Bytes that an operation writes, each with its address and its verdict: they are performed, and those of replicated pages leave by the two
steps of 15 R359. -/
def State.engWrite (s : State) (o : EngOp) (path : Nat) (l : List ((Word × EngAcc) × Byte)) : State :=
  let cells (repl : Bool) : List (Word × Host.Cell) :=
    (l.filter fun x => x.1.2.repl == repl).map fun x => (x.1.1, x.1.2.locs.headD 0, x.2)
  (s.pokeFor o.core o.own o.owner o.pc path ((cells false).map (·.2))).replUnits o.id o.core o.owner o.pc
    (s.partOf (coreSite o.core)).repset (cells true)

/-- The way of the requests for a byte that passed its checks. -/
def State.engWay (s : State) (o : EngOp) (a : EngAcc) (w : Way) : Bool := a.locs.any fun n => s.wayTo (coreSite o.core) (locSite n) == w

/-- The lowest of some bytes that is not reached with a code, itself or a table of its walk. -/
def State.lostByte (s : State) (o : EngOp) (l : List (Word × EngAcc)) (code : Code) : Option Word :=
  lowest ((l.filter fun x => x.2 == .lost code || s.engWay o x.2 (.lost code)).map (·.1))

/-- Whether some bytes can't be accessed now: their requests meet a hole, or a replica is locked (14 R334; 15 R360). -/
def State.engWaits (s : State) (o : EngOp) (l : List (Word × EngAcc)) : Bool :=
  l.any fun x => s.engWay o x.2 .hole || x.2.locs.any s.replLocked

/-! ### The checks of a span (11 R292, R311) -/

/-- What a span does once each of its bytes has been checked, in the order of 11 Table 11.7: a failure, a walk, a page request, a
wait, or its effect. A walk that is needed comes after the checks that need no translation. -/
def State.engSpan (s : State) (o : EngOp) (pages : Tbl Got) (l : List (Word × EngAcc)) (reads : List Word)
    (go : State → State) : State :=
  let t := s.usePages o pages
  let bad := badOf l
  match worstOf (bad.filter fun x => x.2 == 0x60), l.find? fun x => x.2 == .miss, worstOf bad, l.find? fun x => x.2 == .absent with
  | some x, _, _, _ => t.failOp o .engine x.2 x.1
  | none, some x, _, _ => s.engWalk o pages x.1
  | none, none, some x, _ => t.failOp o .engine x.2 x.1
  | none, none, none, some x => t.suspendOp o x.1
  | none, none, none, none =>
    match s.lostByte o l .unreachable, s.lostByte o l .stale with
    | some a, _ => t.failOp o .unreachable 0 a
    | none, some a => t.failOp o .engine 0x67 a
    | none, none =>
      if s.engWaits o l then s
      else
        match lowest ((l.filter fun x => reads.contains x.1 && x.2.locs.any s.bad).map (·.1)) with
        | some a => t.failOp o .memUncorr 0 a
        | none => go t

/-! ### Copies (11 R290, R294) -/

/-- A span of at most 4 KiB of a copy (11 R292). It is read and written in one act, the spans of a copy one after the other: the
spec promises no order of the bytes of a copy (11 R290; log 25). -/
def State.copySpan (s : State) (o : EngOp) : State :=
  let n := Nat.min 4096 (o.body.total - o.pos)
  let pairs := (locsFrom o.pos n).map (s.copyPair o)
  let pages := s.engPages o (pairs.flatMap fun p => [p.1, p.2])
  let acc := pairs.map fun p => (s.engByte o pages true false p.1, s.engByte o pages false true p.2)
  let rds := (pairs.map Prod.fst).zip (acc.map Prod.fst)
  let wrs := (pairs.map Prod.snd).zip (acc.map Prod.snd)
  s.engSpan o pages (rds ++ wrs) (pairs.map Prod.fst) fun t =>
    let from_ := acc.map fun a => a.1.locs.headD 0
    let t := (t.peekFor o.core o.own o.owner o.pc 1 from_).engWrite o 1 (wrs.zip (from_.map (memGet s.mem)))
    t.modOp o.id fun o => { o with pos := o.pos + n, st := if o.pos + n = o.body.total then .ended else .running }

/-! ### HGEMV (11 R301) -/

/-- Addresses that output `n` of an HGEMV reads: x, weights, scales. -/
def hgemvReads (x : HgemvX) (w xv : Word) (n : Nat) : List Word × List Word × List Word :=
  let k := x.k.toNat
  let e := hfmtBytes x.wfmt
  ((List.range (2 * k)).map fun i => xv + toWord i,
   (List.range k).flatMap fun i => (List.range e).map fun j => w + toWord (i * x.stride.toNat + n * e + j),
   if x.wsc then (List.range ((k + 23) / 24)).map fun j => w + toWord (k * x.stride.toNat + j * x.n.toNat + n) else [])

/-- The sum of block `j` of 24 products, with its scale (03 R80, R86). -/
def hgemvBlock (xs ws : List FV) (sc : List Byte) (j : Nat) : FV :=
  let ps := (List.range 24).filterMap fun i =>
    match xs[24 * j + i]?, ws[24 * j + i]? with
    | some a, some b => some (a.mul b).1
    | _, _ => none
  if ps.any FV.isNan then .nan
  else scaled (plusZero (ps.foldl (fun t p => (t.add false p).1) (fvInt 0))) 0x7F (nth 0x7F sc j)

/-- A sum of FP32 values under RNE. -/
def addRne (a b : BitVec 32) : BitVec 32 := (rne32 ((fv32 a).add false (fv32 b)).1).1

/-- An output of HGEMV from its x, its column of weights and its scales (03 R89). -/
def hgemvSum (npc : Nat) (xs ws : List FV) (sc : List Byte) : BitVec 32 :=
  let k := xs.length
  let ks := 24 * ceilDiv (ceilDiv k npc) 24
  let part (p : Nat) : BitVec 32 :=
    (List.range (ks / 24)).foldl (fun t i =>
      let j := p * (ks / 24) + i
      if 24 * j < k then (rne32 ((fv32 t).add false (hgemvBlock xs ws sc j)).1).1 else t) 0
  (List.range (npc - 1)).foldl (fun v p => addRne v (part (p + 1))) (part 0)

/-- Output `o.pos` of an HGEMV: its checks, its sum and its write (11 R301, R302). -/
def State.hgemvSpan (s : State) (o : EngOp) (x : HgemvX) (w xv y : Word) (stack : Nat) : State :=
  let (ax, aw, as) := hgemvReads x w xv o.pos
  let ay := (List.range 4).map fun i => y + toWord (4 * o.pos + i)
  let pages := s.engPages o (ax ++ aw ++ as ++ ay)
  let rdAcc (a : Word) : Word × EngAcc := (a, s.engByte o pages true false a)
  let weight (a : Word) : Word × EngAcc :=
    match s.engByte o pages true false a with
    | .ok ls sl r => (a, if sl && ls.all (fun l => l / 2 ^ 36 == stack) then .ok ls sl r else .bad 0x68)
    | v => (a, v)
  let xAcc (a : Word) : Word × EngAcc :=
    match wfld a 56 8, s.engByte o pages true false a with
    | 0x00, v | 0xF2, v | 0xF5, v => (a, v)
    | _, .ok _ _ _ => (a, .bad 0x69)
    | _, v => (a, v)
  let lx := ax.map xAcc
  let lw := aw.map weight
  let ls := as.map rdAcc
  let ly := ay.map fun a => (a, s.engByte o pages x.acc true a)
  let reads := ax ++ aw ++ as ++ if x.acc then ay else []
  s.engSpan o pages (lx ++ lw ++ ls ++ ly) reads fun t =>
    let bytes (l : List (Word × EngAcc)) : List Byte := l.map fun p => memGet s.mem (p.2.locs.headD 0)
    let elems (f : EFmt) (e : Nat) (bs : List Byte) : List FV :=
      (List.range (bs.length / e)).map fun i => elemValue f (leNat ((bs.drop (e * i)).take e))
    let v := hgemvSum x.npc.toNat (elems .bf16 2 (bytes lx)) (elems (hfmtElem x.wfmt) (hfmtBytes x.wfmt) (bytes lw)) (bytes ls)
    let v := if x.acc then addRne v (BitVec.ofNat 32 (leNat (bytes ly))) else v
    let rd := (lx ++ lw ++ ls).map fun p => p.2.locs.headD 0
    let t := (t.peekFor o.core o.own o.owner o.pc 3 rd).engWrite o 3 (ly.zip (leBytes 4 v.toNat))
    t.modOp o.id fun o => { o with pos := o.pos + 1, st := if o.pos + 1 = x.n.toNat then .ended else .running }

/-! ### The events of engine operations -/

/-- Whether a SYNC operation may start: every store that the strand committed before it is performed (11 R290). -/
def State.syncReady (s : State) (o : EngOp) : Bool :=
  let sync := match o.body with
    | .copy _ _ _ _ _ _ _ _ _ _ y _ => y
    | .fill _ _ _ _ _ _ _ y | .drain _ _ _ _ _ _ _ y => y
    | .rma _ _ _ _ _ _ y _ => y
    | .hgemv .. => false
  !sync || !(s.writes.any fun w => w.own == o.own && decide (w.seq < o.before))

/-- Whether a copy moves nothing (11 R290, R294). -/
def EngBody.nothing (b : EngBody) : Bool := b.total == 0

/-- The checks of a copy before its first span (11 Table 11.7, orders 1 and 2). -/
def Core.copyCheck (k : Core) (b : EngBody) : Option (Nat × Word) :=
  let buf (d : CbDesc) (code : BitVec 8) (planes n : Nat) : Option (Nat × Word) :=
    if !d.valid || code != 1 then some (0x65, d.base.setWidth 64)
    else if d.slotBytes < n || planes != 0 then some (0x64, 0)
    else none
  match b with
  | .copy _ _ _ _ _ _ _ _ _ _ _ bad => if bad then some (0x64, 0) else none
  | .fill cb _ _ planes rows len _ _ => buf (k.cb cb.toNat) (k.cb cb.toNat).prod planes (rows * len)
  | .drain cb _ _ planes rows len _ _ => buf (k.cb cb.toNat) (k.cb cb.toNat).cons planes (rows * len)
  | _ => none

/-- Full slots of a buffer that its drains have acquired and not yet popped. -/
def State.drainsOn (s : State) (c : Nat) (cb : BitVec 4) : List EngOp :=
  (s.opsOf c 0).filter fun e => e.slotNo.isSome && match e.body with | .drain n .. => n == cb | _ => false

/-- Whether an operation waits for its circular buffer (11 R294): a fill, for a claim and for every earlier one of
the buffer; a drain, for a full slot that no other has acquired, the drains in the order of their waits (08 R234). -/
def State.cbWaits (s : State) (o : EngOp) : Bool :=
  let k := s.core o.core
  if o.body.nothing || (k.copyCheck o.body).isSome then false
  else
    match o.body with
    | .fill cb .. =>
      !(k.cb cb.toNat).claimable || ((s.opsOf o.core 0).takeWhile fun e => e.id != o.id).any fun e =>
        e.st == .queued && match e.body with | .fill n .. => n == cb | _ => false
    | .drain cb .. =>
      decide ((k.cb cb.toNat).full ≤ (s.drainsOn o.core cb).length) ||
        ((s.opsOf o.core 0).takeWhile fun e => e.id != o.id).any fun e =>
          e.st == .queued && match e.body with | .drain n .. => n == cb | _ => false
    | _ => false

/-- Whether a copy may start: its engine is free of earlier copies (11 R293). It then starts after the last write of those, where
11 R290 lets copies overlap (log 25). -/
def State.copyMayStart (s : State) (o : EngOp) : Bool :=
  let mine := s.ops.filter fun e => e.cls == 0 && coreSite e.core == coreSite o.core && e.engine == o.engine
  o.cls == 0 && o.st == .queued && s.opRuns o && s.syncReady o && !s.cbWaits o &&
    !(mine.any fun e => e.st == .running) &&
    (mine.takeWhile fun e => e.id != o.id).all fun e => e.st != .queued || s.cbWaits e || !s.opRuns e

/-- A copy starts: its first checks, its claim or its slot (11 R293, R294). -/
def State.startCopy (s : State) (o : EngOp) : State :=
  let k := s.core o.core
  if o.body.nothing then s.modOp o.id fun o => { o with st := .ended }
  else
    match k.copyCheck o.body with
    | some (sub, a) => s.failOp o .engine sub a
    | none =>
      match o.body with
      | .fill cb .. =>
        let n := (k.cb cb.toNat).claims
        (s.modCb o.core cb.toNat fun d => { d with claims := d.claims + 1 }).modOp o.id fun o =>
          { o with st := .running, slotNo := some n }
      | .drain cb .. =>
        let n := (k.cb cb.toNat).pops + BitVec.ofNat 32 (s.drainsOn o.core cb).length
        s.modOp o.id fun o => { o with st := .running, slotNo := some n }
      | _ => s.modOp o.id fun o => { o with st := .running }

/-- ENGINE_START (11 R293). -/
def execEngineStart (id : Nat) (s : State) : Host.Outcome State Fault Refusal :=
  .next (
    match s.ops.find? fun o => o.id == id with
    | some o => if s.copyMayStart o then s.startCopy o else s
    | none => s)

/-- ENGINE_SPAN (11 R292): the next span of a running copy, or the next output of a running HGEMV. -/
def execEngineSpan (id : Nat) (s : State) : Host.Outcome State Fault Refusal :=
  .next (
    match s.ops.find? fun o => o.id == id with
    | some o =>
      if o.st != .running || !s.opRuns o || o.walk.isSome || s.opWriting o then s
      else
        match o.body with
        | .hgemv x w xv y stack => s.hgemvSpan o x w xv y stack
        | .rma .. => s
        | _ => s.copySpan o
    | none => s)

/-- What a copy's end does to its circular buffer (11 R294): a fill that did not fail fills its claim; a drain that
acquired its slot pops it, failed or not. -/
def State.closeSlot (s : State) (o : EngOp) : State :=
  match o.body, o.slotNo with
  | .fill cb .., some n => if o.failed then s else s.fillClaim o.core cb.toNat n
  | .drain cb .., some _ => s.pop o.core cb.toNat
  | _, _ => s

/-- Whether an earlier drain of the same buffer still holds its slot: slots are popped in order (log 39). -/
def State.popsLater (s : State) (o : EngOp) : Bool :=
  match o.body with
  | .drain cb .. => o.slotNo.isSome && ((s.drainsOn o.core cb).head?.map (·.id)) != some o.id
  | _ => false

/-- Queue pair of a remote operation. -/
def EngOp.qp? (o : EngOp) : Option Nat :=
  match o.body with
  | .rma _ _ _ _ qp _ _ _ => some qp
  | _ => none

/-- The operations of the module, those of saved cores that do other work among them. -/
def State.allOps (s : State) : List EngOp := s.ops ++ s.saved.flatMap (·.ops)

/-- Changes the operations of the module, those of saved cores that do other work among them. -/
def State.mapOps (s : State) (f : List EngOp → List EngOp) : State :=
  { s with ops := f s.ops, saved := s.saved.map fun v => { v with ops := f v.ops } }

/-- The operations of a queue pair of a context, in the order of their posts (23 R463, R466). -/
def State.postsOf (s : State) (asid qp : Nat) : List EngOp :=
  sortBy (fun a b => decide (a.id ≤ b.id)) (s.allOps.filter fun e => e.qp? == some qp && e.asid == asid)

/-- Operations of the queue pair of a remote operation that were posted before it and have not completed (23 R466). -/
def State.earlierPosts (s : State) (o : EngOp) : List EngOp :=
  match o.qp? with
  | some qp => (s.postsOf o.asid qp).filter fun e => decide (e.id < o.id)
  | none => []

/-- Operations of a queue pair of a context are flushed: they complete with status 1 (23 R466). -/
def flushPosts (asid qp : Nat) (l : List EngOp) : List EngOp :=
  mapWhere (fun e => e.qp? == some qp && e.asid == asid) (fun e => { e with st := .ended, status := 1 }) l

/-- Code of a queue pair's state (23 Table 23.2). -/
def QpState.num : QpState → Nat
  | .reset => 0
  | .init => 1
  | .rts => 2
  | .error => 3

/-- Changes a queue pair. -/
def State.modQp (s : State) (qp : Nat) (f : Qp → Qp) : State :=
  match tfind s.qps qp with
  | some q => { s with qps := tput s.qps qp (f q) }
  | none => s

/-- A remote operation completes (23 R464, R466): a status from 2 to 9 moves its queue pair to ERROR and flushes what
was posted after it; its ticket's word shows the status and the state of the queue pair. -/
def State.closePost (s : State) (o : EngOp) (qp : Nat) : State :=
  let s :=
    if 2 ≤ o.status ∧ o.status ≤ 9 then
      let s := s.modQp qp fun q => { q with st := .error, backoff := false }
      { s.mapOps (flushPosts o.asid qp) with events := s.events ++ [.qpError qp o.status] }
    else s
  let qst := BitVec.ofNat 2 (((tfind s.qps qp).map fun q => q.st.num).getD 0)
  s.modCore o.core fun k =>
    { k with rma := mapWhere (fun r => r.ticket == o.ticket) (fun r => { r with done := true, status := o.status, qst }) k.rma }

/-- ENGINE_COMPLETE (11 R288, 23 R466): ESEQ of the class advances. Remote operations of a queue pair complete in post
order. -/
def execEngineComplete (id : Nat) (s : State) : Host.Outcome State Fault Refusal :=
  .next (
    match s.ops.find? fun o => o.id == id with
    | some o =>
      if o.st != .ended || !s.opRuns o || s.opWriting o || s.popsLater o || (o.cls == 3 && !(s.earlierPosts o).isEmpty) then s
      else
        let s := s.closeSlot o
        let s := if o.cls = 0 then s.modChip (coreSite o.core) fun h =>
            { h with engDone := vset h.engDone o.engine (vget 0 h.engDone o.engine + 1) } else s
        let s : State := { s with ops := s.ops.filter fun e => e.id != id }
        let s := match o.qp? with | some qp => s.closePost o qp | none => s
        s.completeTicket o.core o.cls o.ticket
    | none => s)

/-- An HGEMV leaves its core's queue for its base die, which queues 32 in arrival order; those of a core leave in order (11
R300). -/
def State.baseDieArrive (s : State) (id : Nat) : State :=
  match s.ops.find? fun o => o.id == id with
  | none => s
  | some o =>
    match o.body with
    | .hgemv _ _ _ _ stack =>
      let first := (s.opsOf o.core 1).find? fun e => e.arrived.isNone
      if o.st == .queued ∧ first.map (·.id) = some id ∧ ((s.atBaseDie stack).filter fun e => e.st == .queued).length < 32 then
        (s.modOp id fun o => { o with arrived := some s.fresh }).tick
      else s
    | _ => s

/-- BASE_DIE_START (11 R300, R301): the oldest HGEMV queued at a stack starts when the base die is idle; one that waits for a
page does not hold it (11 R292). One with nothing to do has ended. -/
def execBaseDieStart (stack : Nat) (s : State) : Host.Outcome State Fault Refusal :=
  .next (
    let at_ := s.atBaseDie stack
    if at_.any fun o => o.st == .running then s
    else
      match at_.find? fun o => o.st == .queued && s.opRuns o with
      | none => s
      | some o =>
        match o.body with
        | .hgemv x .. =>
          s.modOp o.id fun o => { o with st := if x.k = 0 || x.n = 0 then .ended else .running }
        | _ => s)

/-! ### PAGEREQ (11 R307) -/

/-- PAGEREQ.next: the oldest request, or a wait for one. -/
def execPagereqNext (o : Ops) (s : State) : Host.Outcome State Fault Refusal :=
  .next (s.pagerInstr 0xB5 0x00 o fun s =>
    let ea := s.val o.a
    if wfld ea 56 8 ≠ 0xF0 ∨ s.coreWin s.cur.1 < wfld ea 0 24 + 32 then s.raise .addr 0x01 ea
    else
      s.withAccess .store { Need.store with align := 32 } ea 32 fun ps s =>
        let s := s.commit
        let site := coreSite s.cur.1
        match (s.chip site).pagerQ with
        | r :: rest =>
          if s.isPager s.cur.1 then
            let s := s.poke (cellsOf (ps.flatMap (·.locs)) r.record)
            let s := s.modChip site fun h => { h with pagerQ := rest, pagerPend := h.pagerPend ++ [r] }
            s.putD o (toWord (r.tag % 2 ^ 32))
          else s.wait (.page o.d ea)
        | [] => s.wait (.page o.d ea))

/-- PAGEREQ.reply: the reply to a pending tag leaves; one that is no longer pending is dropped. -/
def execPagereqReply (o : Ops) (s : State) : Host.Outcome State Fault Refusal :=
  .next (s.pagerInstr 0xB5 0x00 o fun s =>
    let tag := s.val o.b
    let code := s.val o.c
    if !([0, 0x06, 0x09, 0x0A, 0x10] : List Nat).contains code.toNat then s.raise .prot 0x71 0
    else
      let site := coreSite s.cur.1
      match (s.chip site).pagerPend.find? fun r => toWord (r.tag % 2 ^ 32) == tag with
      | some r =>
        let s := s.modChip site fun h => { h with pagerPend := h.pagerPend.filter fun x => x.tag != r.tag }
        State.retire { s with pageReplies := s.pageReplies ++ [{ site, req := r, code := code.setWidth 8 }] }
      | none => s.retire)

end Sys2Proof.Machine
end

