-- ==== Sys2Proof/Machine/Perform.lean ====
section
/-! DEFINITION. The events of accesses in flight: writes and reads are performed, loads return, atomics and rendezvous
steps are performed and answered, the Package Atomic Sequencer, replicated lines, and WAITCHG (06 R146, R158 to R170; 15
R344 to R361; 16 R373 to R375). -/

namespace Sys2Proof.Machine

/-- Whether a request carries an incarnation that its destination no longer has (11 R309, R310): `route` is the entry that
its source held when it sent it. -/
def State.staleAt (s : State) (src dst : Nat) (route : Word) : Bool :=
  src != dst && wfld route 54 8 != (s.site dst).inc.toNat

/-- Whether a request for a location carries another incarnation than its chiplet has. -/
def State.staleReq (s : State) (c l : Nat) (route : Word) : Bool :=
  locTag l != 4 && s.staleAt (coreSite c) (locSite l) route

/-- Whether a response carries an incarnation that its receiver no longer holds (11 R310): it was sent under the one that
the request carried. -/
def State.staleRsp (s : State) (c l : Nat) (route : Word) : Bool :=
  locTag l != 4 && coreSite c != locSite l && wfld route 54 8 != wfld (s.route (coreSite c) (locSite l)) 54 8

/-- Whether the path of a request for a location meets a hole: it is returned to its source (14 R325, R334). -/
def State.stuckReq (s : State) (c l : Nat) (route : Word) : Bool := locTag l != 4 && !s.pathClear (coreSite c) (locSite l) route

/-- Whether the path of a response from a location meets a hole: it goes by the entry of the answering chiplet. -/
def State.stuckRsp (s : State) (c l : Nat) : Bool :=
  locTag l != 4 && !s.pathClear (locSite l) (coreSite c) (s.route (locSite l) (coreSite c))

/-- A strand in CBPUSH that waits for its earlier stores issues again, and no longer counts in WAITERS (08 R234). -/
def State.wakeRetry (s : State) (c : Nat) : State :=
  let push (w : Wait) : Option Nat := match w with | .cbStores cb => some cb.toNat | _ => none
  let cbs := ((s.core c).strandsWhere fun t => ((t.wait?.bind push)).isSome).filterMap fun e => e.2.wait?.bind push
  let s := cbs.foldl (fun s i => s.modCb c i fun d => { d with waiters := d.waiters - 1 }) s
  s.retryWhere c fun w => (push w).isSome

/-! ### Packets between two cores (16 R378) -/

/-- The core to which a request for a location goes; none when another unit holds the location. -/
def destCore (l : Nat) : Option Nat := if locTag l = 1 then some (locUnit l) else none

/-- A request packet on the meshes that may be delivered: its order, source and destination core, route entry, class. -/
structure MeshPacket where
  sent : Nat
  src : Nat
  dst : Nat
  route : Word
  urg : Bool
  deriving DecidableEq, Repr

/-- The request packets of a core to a core that have left their source: loads, writes, atomics and rendezvous steps, sends,
migrations (16 Table 16.6). One that an order of its strand holds back has not left. -/
def State.meshPackets (s : State) (src dst : Nat) : List MeshPacket :=
  let loads := (s.loads.filter fun l => l.core == src).flatMap fun l =>
    ((l.parts.zip (List.range l.parts.length)).filter fun u =>
      s.mayRead l u.2 && destCore ((u.1.cells.headD (0, none)).1) == some dst).map fun u => (u.1.sent, u.1.route, false)
  let writes := (s.writes.filter fun w => w.core == src && w.agent.isNone && !w.repl && s.mayWrite w &&
    destCore ((w.cells.headD (0, 0)).1) == some dst).map fun w => (w.sent, w.route, false)
  let atoms := (s.atoms.filter fun a => a.core == src && a.stage == .toHome && !a.heldUp && s.atomReady a &&
    destCore a.loc == some dst).map fun a => (a.sent, a.route, false)
  let sends := (s.sends.filter fun m => m.core == src && m.packet.isNone && m.dest == dst && m.stage == .toDest).map fun m =>
    (m.sent, m.route, m.msg.urg)
  let migs := (s.migs.filter fun m => m.src == src && m.dest == dst && m.stage == .toDest).map fun m => (m.sent, m.route, false)
  (loads ++ writes ++ atoms ++ sends ++ migs).map fun p => { sent := p.1, src, dst, route := p.2.1, urg := p.2.2 }

/-- Whether an earlier packet of the same class from one core to another over the same route entry is still to be delivered:
they are delivered in the order in which they were sent (16 R378; log 38). -/
def State.behind (s : State) (sent src dst : Nat) (route : Word) (urg : Bool) : Bool :=
  (s.meshPackets src dst).any fun p => decide (p.sent < sent) && p.route == route && p.urg == urg

/-- Whether a request for a location is behind an earlier packet. -/
def State.behindAt (s : State) (sent src l : Nat) (route : Word) : Bool :=
  match destCore l with
  | some dst => s.behind sent src dst route false
  | none => false

/-- The responses of class 1, or with URG of class 0, on their way from a core to another, as their order and route entry: values
of loads, answers of an atomic port, statuses of sends (16 Table 16.6). -/
def State.meshReplies (s : State) (src dst : Nat) (urg : Bool) : List (Nat × Word) :=
  (s.loads.filter fun l => !urg && l.core == dst && l.done).flatMap (fun l =>
    (l.parts.filter fun u => destCore ((u.cells.headD (0, none)).1) == some src).map (·.rsp)) ++
  (s.atoms.filter fun a => !urg && a.core == dst && a.home == .port src && match a.stage with | .reply _ => !a.pas | _ => false).map (·.rsp) ++
  (s.sends.filter fun m => m.packet.isNone && m.core == dst && m.dest == src && m.msg.urg == urg &&
    match m.stage with | .status _ => true | _ => false).map (·.rsp)

/-- Whether a response from a core is behind an earlier one of its channel that goes by the same entry (16 R378). -/
def State.behindRsp (s : State) (src dst : Nat) (urg : Bool) (rsp : Nat × Word) : Bool :=
  src != dst && (s.meshReplies src dst urg).any fun p => decide (p.1 < rsp.1) && p.2 == rsp.2

/-- The same for a response from the core that holds a location. -/
def State.behindRspAt (s : State) (l dst : Nat) (rsp : Nat × Word) : Bool :=
  match destCore l with
  | some src => s.behindRsp src dst false rsp
  | none => false

/-! ### Writes (15 R344, R359) -/

/-- A write leaves the list of those that are not performed. -/
def State.dropWrite (s : State) (id : Nat) : State := { s with writes := s.writes.filter fun w => w.id != id }

/-- WRITE_PERFORMED (15 R344): the home holds the new bytes. A write to a chiplet of another incarnation is refused (11
R310); one to a replicated line goes by REPL_LOCK_GRANT and REPL_UPDATE. -/
def execWritePerformed (id : Nat) (s : State) : Host.Outcome State Fault Refusal :=
  .next (
    match s.writes.find? fun w => w.id == id with
    | none => s
    | some w =>
      let l := (w.cells.headD (0, 0)).1
      if w.repl || !s.mayWrite w || s.behindAt w.sent w.core l w.route || s.stuckReq w.core l w.route then s
      else
        let t := s.dropWrite id
        (if s.staleReq w.core l w.route then t else t.poke w.cells).wakeRetry w.core)

/-- A replica has answered a write of an agent STALE: an engine operation fails with SUB 0x67 (11 R310). -/
def State.staleAgent (s : State) (w : WriteUnit) : State :=
  match w.agent.bind fun n => s.ops.find? fun o => o.id == n && !o.failed with
  | some o => s.failOp o .engine 0x67 w.va
  | none => s

/-- REPL_LOCK_GRANT (15 R359): the lead replica locks the lines of a write, and then every other replica does. One whose packets
meet a hole waits (14 R334). A chiplet of another incarnation performs nothing, and the lead replica grants nothing (11 R310). -/
def execReplLockGrant (id : Nat) (s : State) : Host.Outcome State Fault Refusal :=
  .next (
    match s.writes.find? fun w => w.id == id with
    | none => s
    | some w =>
      if !w.repl || w.locked || !s.mayWrite w || w.cells.any (fun c => s.replLocked c.1) || s.replStuck w then s
      else
        let t := if w.replSites.any (s.staleTo w.site) then s.staleAgent w else s
        if (w.replSites.take 1).any (s.staleTo w.site) then (t.dropWrite id).wakeRetry w.core
        else { t with writes := mapWhere (fun v => v.id == id) (fun v => { v with locked := true }) t.writes })

/-- REPL_UPDATE (15 R359): every replica holds the new bytes, and the locks are released. -/
def execReplUpdate (id : Nat) (s : State) : Host.Outcome State Fault Refusal :=
  .next (
    match s.writes.find? fun w => w.id == id with
    | none => s
    | some w =>
      if !w.locked || s.replStuck w then s else ((s.dropWrite id).poke (s.replCells w)).wakeRetry w.core)

/-! ### Reads (15 R344, 06 R146) -/

/-- The bytes that a part of a load takes: the strand's own pending ones, else those of memory (04 R102). -/
def State.partBytes (s : State) (l : LoadOp) (u : RUnit) : List (Nat × Option Byte) :=
  let own : Strand := ((s.core l.core).allStrands.find? fun p => p.own == l.own).getD Strand.blank
  (u.cells.zip u.mapped).map fun c =>
    (c.1.1, some ((s.ownByte own l.seq c.2).getD (memGet s.mem c.1.1)))

/-- READ_PERFORMED (15 R344): the bytes of a part are taken at one instant. -/
def execReadPerformed (id part : Nat) (s : State) : Host.Outcome State Fault Refusal :=
  .next (
    match s.loads.find? fun l => l.id == id with
    | none => s
    | some l =>
      match l.parts[part]? with
      | none => s
      | some u =>
        let first := (u.cells.headD (0, none)).1
        if !s.mayRead l part || s.staleReq l.core first u.route || s.behindAt u.sent l.core first u.route ||
            s.stuckReq l.core first u.route then s
        else
          let taken : RUnit := { u with cells := s.partBytes l u, rsp := (s.fresh, s.route (locSite first) (coreSite l.core)) }
          let t := { s with loads := mapWhere (fun m => m.id == id) (fun m => { m with parts := m.parts.set part taken }) s.loads }
          (t.watchRange false (u.cells.map Prod.fst) (some (l.core, l.own)) l.sid l.pc 0).wakeRetry l.core)

/-- Where the strand of a load stands. -/
def State.loadPlace (s : State) (l : LoadOp) : Option (Place × Strand) :=
  ((s.core l.core).strandsWhere fun t => t.own == l.own).head?

/-- A loaded value reaches a g register that no later instruction has written, and its copy of the checkpoint where no write
before the checkpoint has. -/
def Strand.landG (p : Strand) (id n : Nat) (v : Word) : Strand :=
  let k := p.ckpt
  let k := if tfind k.board n = some id then { k with g := vset k.g n v, board := tdel k.board n } else k
  let p := if tfind p.board n = some id then p.setG n v else p
  { p with ckpt := k }

/-- A loaded value reaches a g register of a strand where it stands. -/
def State.landG (s : State) (l : LoadOp) (pl : Place) (p : Strand) (n : Nat) (v : Word) : State :=
  let t := s.modPlace l.core pl fun q => q.landG l.id n v
  if tfind p.board n = some l.id then t.watchGAt l.core pl n else t

/-- A register whose bytes of the listed lanes take those of a load in order, where a board still names the load. -/
def landLanes (board : Tbl Nat) (id reg : Nat) (lanes : List Nat) (bytes : List Byte) (old : VReg) : VReg :=
  ((laneBytes lanes).zip bytes).foldl (fun v e =>
    if tfind board (64 * reg + e.1) = some id then setElem 8 v e.1 e.2.toNat else v) old

/-- A board without a load. -/
def unboard (id : Nat) (t : Tbl Nat) : Tbl Nat := t.filter fun e => e.2 != id

/-- Loaded lanes reach an allotment register, in rows or in the blocks of a parked strand, and its undo copy. -/
def State.landV (s : State) (l : LoadOp) (pl : Place) (p : Strand) (reg : Nat) (lanes : List Nat) (bytes : List Byte) : State :=
  let f := landLanes p.vboard l.id reg lanes bytes
  let landed (q : Strand) : Strand :=
    { q with vboard := unboard l.id q.vboard, ckpt := { q.ckpt with vboard := unboard l.id q.ckpt.vboard } }
  match pl with
  | .slot sl =>
    let n := p.phys reg
    let undo (q : Strand) : Strand :=
      match tfind q.ckpt.vregs n with
      | some v =>
        let v := landLanes q.ckpt.vboard l.id reg lanes bytes v
        { q with ckpt := { q.ckpt with vregs := tput q.ckpt.vregs n v } }
      | none => q
    if p.vboard.any fun e => e.2 == l.id then
      ((s.modCore l.core fun k => k.setV n (f (k.vreg n))).modStrand l.core sl fun q => landed (undo q)).watchV l.core sl n
    else s.modStrand l.core sl fun q => landed (undo q)
  | .park n =>
    match (tfind (s.core l.core).park n).bind fun e => e.blocks[reg / 6]? with
    | some x =>
      let old := s.blockAt l.core x
      (s.putBlock l.core x (old.set (reg % 6) (f (nth 0 old (reg % 6))))).modPlace l.core pl landed
    | none => s.modPlace l.core pl landed

/-- What the value of a load does to its strand (05 R130, 06 R151, 08 R226). A taken JTAB counts as a transfer (19 Table 19.5). -/
def State.landLoad (s : State) (l : LoadOp) (pl : Place) (p : Strand) (bytes : List Byte) : State :=
  let v := leNat bytes
  match l.dest with
  | .g n size sgn => s.landG l pl p n (extend sgn size v)
  | .pair n => (s.landG l pl p n (toWord v)).landG l pl p (n + 1) (toWord (v / 2 ^ 64))
  | .lanes reg lanes => s.landV l pl p reg lanes bytes
  | .table base =>
    if p.wait? == some (.table l.id) then
      let s := (s.modPlace l.core pl fun p => { p.retireTo (base + extend true 4 v * 4) with lastRet := false }).count l.core 2 1
      (s.count l.core 9 1).reportAt l.core pl
    else s

/-- LOAD_REPLY (06 R146): the value of a load that has been read returns. -/
def execLoadReply (id : Nat) (s : State) : Host.Outcome State Fault Refusal :=
  .next (
    match s.loads.find? fun l => l.id == id with
    | none => s
    | some l =>
      let first (u : RUnit) : Nat := (u.cells.headD (0, none)).1
      let lost (u : RUnit) : Bool :=
        s.staleRsp l.core (first u) u.route || s.stuckRsp l.core (first u) || s.behindRspAt (first u) l.core u.rsp
      match l.bytes with
      | none => s
      | some bytes =>
        if l.parts.any lost then s
        else
        let t := { s with loads := s.loads.filter fun m => m.id != id }
        match s.loadPlace l with
        | some (pl, p) => t.landLoad l pl p bytes
        | none => t)

/-! ### Atomics and rendezvous at their homes (06 R158, R167, R169) -/

/-- Whether an operation waits at the atomic port of its strand's own core (17 R392). -/
def AtomOp.ownPort (a : AtomOp) : Bool := a.home == .port a.core

/-- A presentation that is not admitted now: it waits at the core's own port, else it goes back (17 R392). -/
def State.holdAtom (s : State) (a : AtomOp) : State :=
  if a.ownPort then s.holdHome a.id else (s.stageAtom a.id .returned).holdHome a.id

/-- Whether another operation with the same SID and ORD, of those that come to the same lane, came there before one: the first
takes the record (17 R391; 04 R97). -/
def State.turnTaken (s : State) (a : AtomOp) (same : AtomOp → Bool) : Bool :=
  (s.ctx a.asid).mode == .replay && s.atoms.any fun b =>
    b.id != a.id && same b && b.asid == a.asid && b.sid == a.sid && b.ord == a.ord && b.arrived != 0 &&
      (a.arrived = 0 || decide (b.arrived < a.arrived))

/-- An operation whose presentation diverges: nothing is performed (17 R395). -/
def State.divergeAtom (s : State) (a : AtomOp) (pl : Place) (t : Strand) (p : Present) (sub : Nat) : State :=
  State.divergeStrand { s with atoms := s.atoms.filter fun b => b.id != a.id } a.core pl t p sub

/-- A step of an operation at its home: its admission, then its effect and its record. -/
def State.atHome (s : State) (a : AtomOp) : State :=
  match s.atomStrand a with
  | none => s
  | some (pl, t) =>
    let lane := s.homeLane a.home
    let p := s.atomPresent a lane a.kind.type t
    match s.verdict p with
    | .hold => s.holdAtom a
    | .diverge sub => s.divergeAtom a pl t p sub
    | .go => if s.turnTaken a fun b => b.home == a.home && !b.pas && (b.heldUp || b.stage == .returned) then s.holdAtom a else s.performAtom a fun flags s => s.logAtom a lane a.kind.type flags

/-- Whether an earlier operation of the same core is still on its way to the same unit (11 R298). -/
def State.unitTurn (s : State) (a : AtomOp) : Bool :=
  s.atoms.any fun b => b.core == a.core && b.home == a.home && decide (b.id < a.id) && b.stage == .toHome && !b.heldUp &&
    s.atomReady b

/-- The operation with a number that has come to its home by itself: not stale, in its strand's order, and in the order in
which its core issued (11 R298, 16 R378). -/
def State.comeHome (s : State) (id : Nat) (kinds : AtomKind → Bool) : Option AtomOp :=
  match s.atom? id with
  | some a =>
    if a.stage == .toHome && kinds a.kind && s.atomReady a && !s.staleReq a.core a.loc a.route && !s.stuckReq a.core a.loc a.route &&
        (a.heldUp || (!s.unitTurn a && !s.behindAt a.sent a.core a.loc a.route)) then some a else none
  | none => none

/-- ATOMIC_AT_HOME (06 R158). -/
def execAtomicAtHome (id : Nat) (s : State) : Host.Outcome State Fault Refusal :=
  .next (
    match s.comeHome id fun k => match k with | .aop _ | .cas | .cas2 => true | _ => false with
    | some a => s.atHome a
    | none => s)

/-- A rendezvous step reaches its home: without room for one that must wait it goes back (06 R169). An arrival at a
generation that has completed is held, and presents when it is admitted. -/
def State.rendezvous (s : State) (a : AtomOp) : State :=
  if s.wouldWait a && !s.hasRoom a.home then s.stageAtom a.id .returned
  else if (a.kind == .rvJoin || a.kind == .rvArrive) && (s.cell a.loc).rel && (s.ctx a.asid).mode != .replay then
    (s.waitHome a.id .heldArrival).joined a
  else s.atHome a

/-- A step that waits at its home for its lane only is considered again (17 R396). -/
def State.heldAgain (s : State) (id : Nat) (g : AtomStage) (go : AtomOp → State → State) : State :=
  match s.atom? id with
  | some a => if a.heldUp && a.stage == g then go a s else s
  | none => s

/-- RENDEZVOUS_ARRIVE (06 R167); also the admission of a held arrival that waits for its lane. -/
def execRendezvousArrive (id : Nat) (s : State) : Host.Outcome State Fault Refusal :=
  .next (
    match s.comeHome id fun k => k == .rvJoin || k == .rvArrive with
    | some a => s.rendezvous a
    | none => s.heldAgain id .heldArrival fun a s => admitHeld a.loc (s.heldAt a.loc).length s)

/-- RENDEZVOUS_TAKE (06 R167); also that of a step which waits for its lane. -/
def execRendezvousTake (id : Nat) (s : State) : Host.Outcome State Fault Refusal :=
  .next (
    match s.comeHome id fun k => k == .rvWait with
    | some a => s.rendezvous a
    | none => s.heldAgain id .waiting fun a s => (s.settleTakes a.loc).settleCell a.loc (s.cell a.loc).gen)

/-- An operation that was returned leaves its core again. -/
def State.resendAtom (s : State) (id : Nat) (p : AtomOp → Bool) : State :=
  match s.atom? id with
  | some a =>
    if a.stage == .returned && p a && (s.core a.core).phase == .run then
      let route := s.route (coreSite a.core) (if a.pas then spineSite else locSite a.loc)
      (s.stageAtom id (if a.pas then .toPas else .toHome)).modAtom id fun a => { a with route, sent := s.fresh }
    else s
  | none => s

/-- RENDEZVOUS_RESEND (06 R169). -/
def execRendezvousResend (id : Nat) (s : State) : Host.Outcome State Fault Refusal :=
  .next (s.resendAtom id fun a => match a.kind with | .rvJoin | .rvArrive | .rvWait => true | _ => false)

/-! ### Replies (06 R146, R158, R170) -/

/-- Whether the reply of an operation comes from its home: under the PAS only that of a step which has waited there (16 R374). -/
def AtomOp.direct (a : AtomOp) : Bool := !a.pas || a.arrived != 0

/-- Whether the reply of an operation is lost to a reset of its sender (11 R310). -/
def State.replyLost (s : State) (a : AtomOp) : Bool := a.direct && s.staleRsp a.core a.loc a.route

/-- Whether the reply of an operation is held up on its way, by a hole or by an earlier response. -/
def State.replyStuck (s : State) (a : AtomOp) : Bool :=
  a.direct && (s.stuckRsp a.core a.loc || (!a.pas && s.behindRspAt a.loc a.core a.rsp))

/-- Whether a result on its way from a home to the PAS carries an incarnation that the Spine no longer holds (11 R310). -/
def State.resultLost (s : State) (a : AtomOp) : Bool :=
  locTag a.loc != 4 && wfld a.route 54 8 != wfld (s.route spineSite (locSite a.loc)) 54 8

/-- ATOMIC_REPLY (06 R146): the reply returns to its core and the instruction retires. -/
def execAtomicReply (id : Nat) (s : State) : Host.Outcome State Fault Refusal :=
  .next (
    match s.atom? id with
    | some a =>
      match a.stage, s.atomStrand a with
      | .reply res, some (_, t) => if t.wait? == some (.reply id) && !s.replyLost a && !s.replyStuck a then s.finishAtom a res else s
      | _, _ => s
    | none => s)

/-- A reply reaches a core that is not in RUN, or a saved one: it is written to its reply area, once, for its resumption (06
R170). -/
def State.keepRelease (s : State) (a : AtomOp) (res : BitVec 128) : State :=
  let r : ReplyItem := .release a.slot a.id res
  if (s.core a.core).waitsFor a.id then if (s.core a.core).replies.contains r then s else s.putReply a.core r
  else
    s.imageReply (fun v => v.holds a && !v.image.replies.contains r) fun _ => r

/-- Whether the strand of an operation is WAITING on it, its step having waited at its home. -/
def State.waitsThere (s : State) (a : AtomOp) : Bool :=
  (s.waiter a.core fun w => match w with | .join n _ => n == a.id | _ => false).isSome

/-- RELEASE_REPLY (06 R170): the reply of a step that waited at its home reaches the core of its strand. -/
def execReleaseReply (id : Nat) (s : State) : Host.Outcome State Fault Refusal :=
  .next (
    match s.atom? id with
    | some a =>
      match a.stage with
      | .reply res =>
        if s.replyLost a || s.replyStuck a then s
        else if s.waitsThere a then
          if (s.core a.core).phase == .run then s.finishAtom a res else s.keepRelease a res
        else if (s.atomStrand a).isNone then s.keepRelease a res
        else s
      | _ => s
    | none => s)

/-! ### The Package Atomic Sequencer (16 R373 to R375) -/

/-- Whether the PAS has given an operation its number and has not yet returned it. -/
def AtomStage.number : AtomStage → Option Word
  | .locking n _ | .pasResult n _ | .pasFail n => some n
  | _ => none

/-- Operations that the PAS holds. -/
def State.pasHeld (s : State) : Nat := (s.atoms.filter fun a => a.stage.number.isSome).length

/-- PAS_ACCEPT (16 R373, R374): the next sequence number, and the operation leaves for its home with a lock. A full PAS
returns it. In REPLAY the record gives the number. -/
def execPasAccept (id : Nat) (s : State) : Host.Outcome State Fault Refusal :=
  .next (
    match s.atom? id with
    | none => s
    | some a =>
      if a.stage != .toPas || !s.atomReady a || s.staleAt (coreSite a.core) spineSite a.route ||
          !s.pathClear (coreSite a.core) spineSite a.route then s
      else if 1024 ≤ s.pasHeld then s.stageAtom id .returned
      else
        match s.atomStrand a with
        | none => s
        | some (pl, t) =>
          let p := s.atomPresent a pasLane 0x04 t
          match s.verdict p with
          | .hold => s.holdHome id
          | .diverge sub => s.divergeAtom a pl t p sub
          | .go =>
            if s.turnTaken a fun b => b.pas && b.stage == .toPas && b.heldUp then s.holdHome id
            else
            let n : Word :=
              match (s.ctx a.asid).mode, s.headRec a.asid pasLane with
              | .replay, some e => toWord (s.spine.pasSeq.toNat / 2 ^ 32 * 2 ^ 32 + bitsOf e 32 32)
              | _, _ => s.spine.pasSeq
            let rec_ := (s.laneOf a.asid pasLane).p
            let s := (s.loggedAs p 0 (some n.toNat)).modPlace a.core pl fun q => s.resetSdig a.asid q
            let s := if (s.ctx a.asid).mode == .replay then s else s.modSpine fun z => { z with pasSeq := z.pasSeq + 1 }
            (s.stageAtom id (.locking n rec_)).modAtom id fun a => { a with route := s.route spineSite (locSite a.loc), arrived := 0 })

/-- Whether an operation is the first of its 16-byte location in the PAS (16 R374). -/
def State.pasFirst (s : State) (a : AtomOp) (n : Word) : Bool :=
  s.atoms.all fun b => b.id == a.id || b.loc / 16 != a.loc / 16 ||
    match b.stage.number with | some m => decide (n < m) | none => true

/-- The presentation of a lock at its home's lane (16 R375). -/
def State.lockPresent (s : State) (a : AtomOp) (t : Strand) (n : Word) : Present :=
  { s.atomPresent a (s.homeLane a.home) 0x05 t with aux := n, kind := .other }

/-- The FAIL flag of a PASOP record is set, in the unit's buffer or in the ring: the record is not drained before its lock is
answered (16 R375; log 36). -/
def State.failRecord (s : State) (asid lane : Nat) (w : BitVec 32) : State :=
  if (s.ctx asid).mode = .record then
    let l := s.laneOf asid lane
    let i := l.buf.length - (l.p - w).toNat
    if (l.p - w).toNat ≤ l.buf.length then
      s.modLaneOf asid lane fun l => { l with buf := l.buf.set i (nth 0 l.buf i ||| BitVec.ofNat 256 (fFail * 2 ^ 8)) }
    else
      let at_ := nth 0 (s.recordLocs asid lane w.toNat) 1
      { s with mem := memPut s.mem at_ (memGet s.mem at_ ||| BitVec.ofNat 8 fFail) }
  else s

/-- PAS_LOCK (16 R373, R375): the home locks the location, performs the operation, writes the lock record and returns
the result; a step without room, or one that the record says was returned, is not performed (06 R169). -/
def execPasLock (id : Nat) (s : State) : Host.Outcome State Fault Refusal :=
  .next (
    match s.atom? id with
    | none => s
    | some a =>
      match a.stage, s.atomStrand a with
      | .locking n rec_, some (pl, t) =>
        if !s.pasFirst a n || (locTag a.loc != 4 && s.staleAt spineSite (locSite a.loc) a.route) then s
        else
          let p := s.lockPresent a t n
          match s.verdict p with
          | .hold => s.holdHome id
          | .diverge sub => s.divergeAtom a pl t p sub
          | .go =>
            if s.turnTaken a fun b => b.home == a.home && b.stage.number.isSome && b.heldUp then s.holdHome id
            else
            let fail :=
              if (s.ctx a.asid).mode == .replay then bitsOf (s.headFlags a.asid p.lane) 1 1 == 1
              else s.wouldWait a && !s.hasRoom a.home
            if fail then ((s.logged p fFail).failRecord a.asid pasLane rec_).stageAtom id (.pasFail n)
            else s.performAtom a fun _ s => s.logged p 0
      | _, _ => s)

/-- PAS_RESULT (16 R373): the PAS returns the result to the requester, or the step that its home returned. -/
def execPasResult (id : Nat) (s : State) : Host.Outcome State Fault Refusal :=
  .next (s.modAtom id fun a =>
    if s.resultLost a || !s.pathClear (locSite a.loc) spineSite (s.route (locSite a.loc) spineSite) then a
    else
      match a.stage with
      | .pasResult _ res => { a with stage := .reply res, arrived := 0 }
      | .pasFail _ => { a with stage := .returned }
      | _ => a)

/-- PAS_RESEND (16 R374). -/
def execPasResend (id : Nat) (s : State) : Host.Outcome State Fault Refusal := .next (s.resendAtom id AtomOp.pas)

/-! ### WAITCHG (06 R164) -/

/-- A WAITCHG re-reads its location, and retires when the value differs. -/
def State.reread (s : State) (c n : Nat) (watched : Bool) : State :=
  let pl := placeOf n
  match s.strandIn c pl with
  | some p =>
    match p.wait? with
    | some (.change loc k b d w _ route) =>
      if w != watched || (s.core c).phase != .run || s.staleReq c loc route || s.stuckReq c loc route ||
          s.behindAt s.fresh c loc route || s.behindRspAt loc c (s.fresh, s.route (locSite loc) (coreSite c)) then s
      else
        let v := memVal s.mem (locsFrom loc k)
        let s := s.watchRange false (locsFrom loc k) (some (c, p.own)) p.sid p.pc 0
        if toWord v = b then s else s.endWait c pl d (extend true k v)
    | _ => s
  | none => s

/-- WAITCHG_WAKE (06 R164): a write was performed at a watched location. -/
def execWaitchgWake (core slot : Nat) (s : State) : Host.Outcome State Fault Refusal := .next (s.reread core slot true)

/-- WAITCHG_POLL (06 R164): a WAITCHG that found no free watch re-reads. -/
def execWaitchgPoll (core slot : Nat) (s : State) : Host.Outcome State Fault Refusal := .next (s.reread core slot false)

end Sys2Proof.Machine
end

