-- ==== Sys2Proof/Machine/Messages.lean ====
section
/-! DEFINITION. Active messages and migrations: sends, arrivals, activations, and the claims on slots of parked,
migrating and spilled strands (06 R173, R174; 07 R178, R193, R203; 11 R310; 16 R363 to R372). -/

namespace Sys2Proof.Machine

/-! ### Sends (16 R364) -/

/-- The message of a send of the strand that executes. -/
def State.message (s : State) (x : SendX) (t : Word) : ActMsg :=
  let p := s.me
  { handler := t,
    payload := Vector.ofFn fun i => if i.val < x.pcnt.toNat then p.getG (x.pbase.toNat + i.val) else 0,
    sid := p.sid, sent := s.spine.time, ord := p.sord, lh := p.lh, lcore := s.myCore.lcore, urg := x.urg, pcnt := x.pcnt,
    arrived := 0, asid := p.asid, sec := p.sec, sup := p.sup, pager := p.pager }

/-- The op digest of a send (17 Table 17.6). -/
def sendDigest (code : Nat) (m : ActMsg) : BitVec 32 :=
  opDigest code m.handler (m.pcnt.setWidth 64 :: (List.range m.pcnt.toNat).map fun i => vget 0 m.payload i)

/-- A send that has passed its checks leaves, and the strand waits for its status (16 R364, R365). A URG send that
finds the shaper of its core closed waits at its issue (16 R367). -/
def State.send (s : State) (i : Instr) (x : SendX) (o : Ops) (t : Word) (dest : Nat) (a : Word) : State :=
  let c := s.cur.1
  if !s.routable (coreSite c) (coreSite dest) then s.raise .unreachable 0 a
  else
    let s := s.commit
    if x.urg && s.myCore.cc < s.myCore.urgUntil then s.await .retry
    else
    let s := if x.urg then s.modMyCore fun k => { k with urgUntil := k.cc + 256 } else s
    let m := s.message x t
    let op : SendOp :=
      { id := s.fresh, core := c, slot := s.cur.2, packet := none, dest, msg := m, d := o.d, opd := sendDigest (opCode i) m,
        stage := .toDest, pc := s.me.pc, word := s.me.word, route := s.route (coreSite c) (coreSite dest),
        sent := s.fresh, rsp := (0, 0) }
    (State.tick { s with sends := s.sends ++ [op] }).await (.reply op.id)

/-- AMSEND: to the home core of an address (16 R364). -/
def execAmsend (x : SendX) (o : Ops) (s : State) : Host.Outcome State Fault Refusal :=
  .next (s.instr 0xC0 0x00 o fun s =>
    let t := s.val o.b
    let ea := s.val o.a
    if t.toNat % 4 ≠ 0 then s.raise .align 0 t
    else
      s.withAccess .load Need.none ea 1 fun ps s =>
        match s.homeCore s.cur.1 ((ps.flatMap (·.locs)).headD 0) with
        | some k => s.send (.amsend x o) x o t k ea
        | none => s.raise .addr 0x04 ea)

/-- AMSENDC: to a logical core (16 R364). -/
def execAmsendc (x : SendX) (o : Ops) (s : State) : Host.Outcome State Fault Refusal :=
  .next (s.instr 0xC1 0x00 o fun s =>
    let t := s.val o.b
    let c := s.val o.a
    if t.toNat % 4 ≠ 0 then s.raise .align 0 t
    else if 2 ^ 16 ≤ c.toNat then s.raise .addr 0x01 c
    else
      match s.coreOfL (coreSite s.cur.1) c.toNat with
      | some k => s.send (.amsendc x o) x o t k c
      | none => s.raise .addr 0x04 c)

/-! ### Arrival (16 R369, R372) -/

/-- Changes a send. -/
def State.modSend (s : State) (id : Nat) (f : SendOp → SendOp) : State :=
  { s with sends := mapWhere (fun m => m.id == id) f s.sends }

/-- The presentation of a message at its destination (17 Table 17.5, MSG). -/
def State.sendPresent (s : State) (m : SendOp) (accepted : Bool) : Present :=
  { asid := m.msg.asid.toNat, lane := s.coreLane m.dest, type := 0x0A, sid := m.msg.sid, ord := m.msg.ord, opd := m.opd,
    aux := if accepted then m.msg.handlerSid else 0, kind := .other, val := 0 }

/-- Whether the status of a send carries an incarnation that its sender no longer holds for the destination (11 R310). -/
def State.statusLost (s : State) (m : SendOp) : Bool :=
  coreSite m.core != coreSite m.dest && wfld m.route 54 8 != wfld (s.route (coreSite m.core) (coreSite m.dest)) 54 8

/-- Whether the status of a send is held up by a hole on its way. -/
def State.statusStuck (s : State) (m : SendOp) : Bool :=
  !s.pathClear (coreSite m.dest) (coreSite m.core) (s.route (coreSite m.dest) (coreSite m.core))

/-- SDIG of the strand that waits for a send. -/
def State.senderSdig (s : State) (m : SendOp) : Word :=
  match s.waiter m.core fun w => w == .reply m.id with
  | some (_, t) => if m.packet.isNone then t.sdig else 0
  | none => 0

/-- Whether a core takes messages of a context: it is not the pager core and holds an assignment of it. -/
def State.takesMsgs (s : State) (c : Nat) (asid : BitVec 12) : Bool :=
  (s.core c).ctxv && (s.core c).asid == asid.toNat && !s.isPager c

/-- Whether a core has room for a message: below QUOTA in its buffer, or, while it is pre-empted, below 1,024 in its
spill queue (07 R202), of which a saved image holds the first `base`. -/
def Core.msgRoom (k : Core) (base : Nat) : Bool :=
  if k.phase == .run then decide (k.inbuf.length < k.quota) else decide (base + k.spillQ.length < 1024)

/-- A send is answered by its destination. -/
def State.answerSend (s : State) (id : Nat) (st : BitVec 8) : State :=
  s.modSend id fun m => { m with stage := .status st, rsp := (s.fresh, s.route (coreSite m.dest) (coreSite m.core)) }

/-- A core takes a message: accepted or refused, it is recorded and counted. -/
def State.takeMsg (s : State) (m : SendOp) (accept : Bool) : State :=
  let c := m.dest
  let s := s.logged (s.sendPresent m accept) (if accept then 0 else fFail)
  let s := s.answerSend m.id (if accept then 0 else 1)
  if accept then
    let g := { m.msg with arrived := s.spine.time }
    let s := if (s.core c).phase == .run then s.modCore c fun k => { k with inbuf := k.inbuf ++ [g] } else s.spill c (.msg g)
    s.count c 13 1
  else (s.modCore c fun k => k.accRefused m.msg.lcore.toNat).count c 14 1

/-- MESSAGE_ARRIVAL (16 R369, R372): the destination's network interface takes the message, or answers status 2. In
REPLAY the record says whether it is accepted (17 Table 17.7). -/
def execMessageArrival (id : Nat) (s : State) : Host.Outcome State Fault Refusal :=
  .next (
    match s.sends.find? fun m => m.id == id && m.stage == .toDest with
    | none => s
    | some m =>
      let c := m.dest
      if m.packet.isNone && (s.behind m.sent m.core c m.route m.msg.urg || !s.pathClear (coreSite m.core) (coreSite c) m.route) then s
      else if m.packet.isNone && s.staleAt (coreSite m.core) (coreSite c) m.route then s.modSend id fun m => { m with stage := .stale }
      else if !s.takesMsgs c m.msg.asid then s.answerSend id 2
      else
        let room := (s.core c).msgRoom (s.spillBase c)
        let replay := (s.ctx m.msg.asid.toNat).mode == .replay
        let accept := if replay then bitsOf (s.headFlags m.msg.asid.toNat (s.coreLane c)) 1 1 == 0 else room
        let p := { s.sendPresent m accept with val := s.senderSdig m }
        match s.verdict p with
        | .hold => s.modSend id fun m => { m with stage := .returned }
        | .diverge sub =>
          match s.waiter m.core fun w => w == .reply id with
          | some (pl, t) => s.divergeStrand m.core pl t p sub
          | none => s.diverge p sub m.msg.lcore m.pc m.word
        | .go => if replay && accept && !room then s.modSend id fun m => { m with stage := .returned } else s.takeMsg m accept)

/-! ### Activation (16 R370) -/

/-- Whether debugging lets a core start activations (19 R425). -/
def Core.running (k : Core) : Bool := k.phase == .run && wfld k.dbg 4 2 == 0

/-- MESSAGE_ACTIVATION (16 R370): the oldest buffered message takes a free slot when no restorable parked strand, no
spilled arrival and no queued migration claims it (07 Table 07.1). -/
def execMessageActivation (core : Nat) (s : State) : Host.Outcome State Fault Refusal :=
  .next (
    let k := s.core core
    match k.inbuf with
    | [] => s
    | m :: rest =>
      if !k.running || !(s.firstClaims core).isEmpty || !k.migQ.isEmpty || !k.spillQ.isEmpty then s
      else
        let (t, slot) := s.slotFor core m.asid
        match slot with
        | none => s
        | some n => (t.modCore core fun k => { k with inbuf := rest }).activate core n m)

/-! ### Migrations (06 R174, 11 R310) -/

/-- Changes a migration. -/
def State.modMig (s : State) (id : Nat) (f : MigOp → MigOp) : State :=
  { s with migs := mapWhere (fun m => m.id == id) f s.migs }

/-- The presentation of an arrival (17 Table 17.5, MIGR). -/
def State.migPresent (s : State) (m : MigOp) : Present :=
  { asid := m.strand.asid.toNat, lane := s.coreLane m.dest, type := 0x0B, sid := m.strand.sid, ord := m.ord, opd := m.opd,
    aux := m.strand.sdig, kind := .sdig, val := m.strand.sdig }

/-- Where an arrival goes: a slot, the migration queue, the spill queue, or back. -/
inductive MigRoom where
  | slot (n : Nat)
  | queue
  | spill
  | none
  deriving DecidableEq, Repr

/-- The room that a core has for an arrival, told whether a claim of the first class waits for a slot (07 Table 07.1) and how
many entries of its spill queue a saved image holds. -/
def Core.migRoom (k : Core) (base : Nat) (claims : Bool) (slot : Option Nat) : MigRoom :=
  if k.phase != .run then if base + k.spillQ.length < 1024 then .spill else .none
  else
    match slot with
    | some n => if !claims && k.migQ.isEmpty && k.spillQ.isEmpty then .slot n
                else if k.migQ.length < 4 then .queue else .none
    | Option.none => if k.migQ.length < 4 then .queue else .none

/-- The strand of a migration whose presentation diverges stands at its MIGRATE again, FAULTED, in its source core: in a free
slot, or in the migration queue, so that its pre-emption saves it (17 R395; log 18). -/
def State.divergeMig (s : State) (m : MigOp) (sub : Nat) : State :=
  let q : Strand := { m.strand with pc := m.pc, sord := m.ord, st := divergeFault sub m.pc m.word }
  let s := { s with migs := s.migs.filter fun n => n.id != m.id }
  match (s.core m.src).freeSlot with
  | some n => s.occupy m.src n q
  | none => s.modCore m.src fun k => { k with migQ := k.migQ ++ [q] }

/-- MIGRATION_ARRIVAL (06 R174): the strand takes a slot as READY, or waits in a queue; without room, and at a core that has been
given to another context since (07 R177), it goes back. -/
def execMigrationArrival (id : Nat) (s : State) : Host.Outcome State Fault Refusal :=
  .next (
    match s.migs.find? fun m => m.id == id && m.stage == .toDest with
    | none => s
    | some m =>
      let c := m.dest
      let back (held : Bool) : State := s.modMig id fun m => { m with stage := .returned, heldUp := held }
      if !(s.core c).serves m.strand.asid then back false
      else if s.behind m.sent m.src c m.route false || !s.pathClear (coreSite m.src) (coreSite c) m.route then s
      else if s.staleAt (coreSite m.src) (coreSite c) m.route then
        (s.modMig id fun m => { m with stage := .stale, since := s.fresh }).tick
      else
        let p := s.migPresent m
        match s.verdict p with
        | .hold => back true
        | .diverge sub => (s.divergeMig m sub).diverge p sub (s.core m.src).lcore m.pc m.word
        | .go =>
          let (t, slot) :=
            if (s.core c).phase == .run then s.slotFor c m.strand.asid else (s, (s.core c).freeSlot)
          let done (t : State) : State := { (t.logged p 0) with migs := s.migs.filter fun n => n.id != id }
          let q := s.resetSdig p.asid m.strand
          match (t.core c).migRoom (t.spillBase c) (!(t.firstClaims c).isEmpty) slot with
          | .slot n => (done t).occupy c n q
          | .queue => (done t).modCore c fun k => { k with migQ := k.migQ ++ [q] }
          | .spill => (done t).spill c (.mig q)
          | .none => back false)

/-- MIGRATION_RESEND (06 R174); one whose presentation came back leaves when its core is in RUN (17 R400). -/
def execMigrationResend (id : Nat) (s : State) : Host.Outcome State Fault Refusal :=
  .next (s.modMig id fun m =>
    if m.stage == .returned && (!m.heldUp || (s.core m.src).running) then
      { m with stage := .toDest, heldUp := false, route := s.route (coreSite m.src) (coreSite m.dest), sent := s.fresh }
    else m)

/-- MIGRATION_STALE (11 R310): the strand returns to a slot of its source core, FAULTED with STALE, deferred, in the order in
which the claims of the first class came (07 R178). -/
def execMigrationStale (id : Nat) (s : State) : Host.Outcome State Fault Refusal :=
  .next (
    match s.migs.find? fun m => m.id == id && m.stage == .stale with
    | none => s
    | some m =>
      let k := s.core m.src
      match k.freeSlot with
      | some n =>
        if k.phase != .run || !k.serves m.strand.asid || !s.firstOf m.src m.since then s
        else
          let f : FaultRec := { code := .stale, sub := 0, deferred := true, word := m.word, pc := m.pc, addr := 0 }
          State.occupy { s with migs := s.migs.filter fun x => x.id != id } m.src n { m.strand with st := .faulted f }
      | none => s)

/-! ### Claims on slots (07 R178, R193, R203) -/

/-- A parked strand's blocks come back to rows, the lowest free ones (log 34), and it to the slot it has taken (07 R193). -/
def State.restoreParked (s : State) (c sl n : Nat) (e : ParkEntry) : State :=
  let rows := (s.core c).freeRows.take e.blocks.length
  let p : Strand := { e.strand with rows }
  let regs := (rows.zip e.blocks).flatMap fun r => (locsFrom (6 * r.1) 6).zip (s.blockAt c r.2)
  let s := s.modCore c fun k =>
    { k with park := tdel k.park n, slots := tput k.slots sl p, vrf := regs.foldl (fun t r => tput t r.1 r.2) k.vrf }
  let s := e.blocks.foldl (fun s x => s.clearBlock c x) s
  match p.st with
  | .faulted _ => s.modCore c fun k => { k with faultQ := k.faultQ ++ [sl] }
  | _ => s

/-- Whether a restorable strand that has taken a slot has its rows free, those that became restorable before it being granted
theirs first (07 R193). -/
def Core.fits (k : Core) (x : Nat × ParkEntry) : Bool :=
  x.2.slot.isSome &&
    (x.2.blocks.isEmpty ||
      decide (rowsNeeded (k.restorables.takeWhile fun e => e.1 != x.1) + x.2.blocks.length ≤ k.freeRows.length))

/-- The first restorable strand without a slot takes the lowest free one (07 R178, R193), and its age starts again (07 R180). -/
def State.slotParked (s : State) (c : Nat) : State :=
  let k := s.core c
  match k.freeSlot, k.restorables.find? fun e => e.2.slot.isNone with
  | some sl, some (n, e) =>
    if s.firstOf c (e.restorable.getD 0) then
      s.modCore c fun k => { k with park := tput k.park n { e with slot := some sl, strand := { e.strand with age := 0 } } }
    else s
  | _, _ => s

/-- The oldest arrival of the migration queue takes a slot that no earlier claim takes (07 R178; 17 R394). -/
def State.admitMig (s : State) (c : Nat) : State :=
  let k := s.core c
  match k.migQ with
  | p :: rest =>
    if k.spillQ.isEmpty && (s.firstClaims c).isEmpty then
      let (t, slot) := s.slotFor c p.asid
      match slot with
      | some sl => (t.modCore c fun k => { k with migQ := rest }).occupy c sl p
      | none => s
    else s
  | [] => s

/-- PARKED_RESTORE (07 R178, R193): a restorable parked strand takes a slot, and the first whose rows are free comes back to
the slot it has taken; while none waits for a slot, the oldest arrival of the migration queue takes one. -/
def execParkedRestore (core : Nat) (s : State) : Host.Outcome State Fault Refusal :=
  .next (
    let k := s.core core
    if k.phase != .run then s
    else if k.restorables.isEmpty then s.admitMig core
    else
      let s := s.slotParked core
      match (s.core core).restorables.find? fun e => (s.core core).fits e with
      | some (n, e) => s.restoreParked core (e.slot.getD 0) n e
      | none => s.admitMig core)

/-- SPILL_QUEUE_REDELIVERY (07 R203): the oldest spilled arrival takes a slot, ahead of every claimant but a restorable
parked strand. -/
def execSpillQueueRedelivery (core : Nat) (s : State) : Host.Outcome State Fault Refusal :=
  .next (
    let k := s.core core
    match k.spillQ with
    | x :: rest =>
      if !k.running || !(s.firstClaims core).isEmpty then s
      else
        let (t, slot) := s.slotFor core (match x with | .msg m => m.asid | .mig p => p.asid)
        let t := t.modCore core fun k => { k with spillQ := rest }
        match slot, x with
        | some sl, .msg m => t.activate core sl m
        | some sl, .mig p => t.occupy core sl p
        | none, _ => s
    | [] => s)

end Sys2Proof.Machine
end

