-- ==== Sys2Proof/Machine/Fabric.lean ====
section
/-! DEFINITION. The fabric: RMAPOST and RMAPOLL, queue pairs, memory regions, requests at the target, responses, and
the ports (23). -/

namespace Sys2Proof.Machine

/-! ### RMAPOST and RMAPOLL (23 R461 to R464) -/

/-- A remote operation enters the class-3 queue; the words of the 16 latest tickets are kept (23 R462, R464). -/
def State.post (s : State) (op : RmaOp) (sync fence : Bool) (len : Nat) (o : Ops) : State :=
  let x := s.val o.c
  let qp := wfld x 0 24
  let t := s.myCore.nextTicket 3
  let r := s.enterEngine o 3 (.rma op (s.val o.a) (s.val o.b) (x.extractLsb' 32 32) qp len sync fence)
  if vget 0 r.myCore.issq 3 = t then
    r.modMyCore fun k =>
      let l := k.rma ++ [{ ticket := t, qp := BitVec.ofNat 24 qp, done := false, qst := 0, status := 0 }]
      { k with rma := l.drop (l.length - 16) }
  else r

/-- RMAPOST.write (23 R462). -/
def execRmapostWrite (sync fence : Bool) (len : BitVec 32) (o : Ops) (s : State) : Host.Outcome State Fault Refusal :=
  .next (s.instr 0xD0 0x00 o fun s => s.post .write sync fence len.toNat o)

/-- RMAPOST.read (23 R462). -/
def execRmapostRead (sync fence : Bool) (len : BitVec 32) (o : Ops) (s : State) : Host.Outcome State Fault Refusal :=
  .next (s.instr 0xD0 0x00 o fun s => s.post .read sync fence len.toNat o)

/-- RMAPOST.fadd (23 R462): 8 bytes. -/
def execRmapostFadd (sync fence : Bool) (o : Ops) (s : State) : Host.Outcome State Fault Refusal :=
  .next (s.instr 0xD0 0x00 o fun s => s.post .fadd sync fence 8 o)

/-- RMAPOST.cas (23 R462): 8 bytes, with 16 bytes of operands. -/
def execRmapostCas (sync fence : Bool) (o : Ops) (s : State) : Host.Outcome State Fault Refusal :=
  .next (s.instr 0xD0 0x00 o fun s => s.post .cas sync fence 8 o)

/-- The word of a ticket (23 Table 23.7). QST of an operation that has not completed is a free value (log 5). -/
def RmaStatus.word (r : RmaStatus) (free : BitVec 2) : Word :=
  toWord (r.done.toNat * 2 ^ 63 + 2 ^ 62 + r.qp.toNat * 2 ^ 24 + (if r.done then r.qst else free).toNat * 2 ^ 8 +
    if r.done then r.status.toNat else 0)

/-- RMAPOLL (23 R464): the word of a known ticket, 0 for another. -/
def execRmapoll (o : Ops) (s : State) : Host.Outcome State Fault Refusal :=
  .next (s.instr 0xD1 0x00 o fun s =>
    let t := s.val o.a
    match s.myCore.rma.find? fun r => r.ticket == t with
    | some r => s.tick.putD o (r.word ((Config.freeWord s.fresh).setWidth 2))
    | none => s.putD o 0)

/-! ### Queue pairs (23 R458, R459, R467) -/

/-- Link of a queue pair number. -/
def qpLink (qp : Nat) : Nat := qp / 2 ^ 20 % 16

/-- Record of a link chiplet. -/
def State.link (s : State) (l : Nat) : Link := tget Link.blank s.links l

/-- Changes a link chiplet. -/
def State.modLink (s : State) (l : Nat) (f : Link → Link) : State := { s with links := tput s.links l (f (s.link l)) }

/-- INC of a link chiplet (11 R309). -/
def State.linkInc (s : State) (l : Nat) : BitVec 8 := (s.site (nth 0 linkSites l)).inc

/-- A port of a link chiplet. -/
def Link.port (k : Link) (p : Nat) : Port := tget Port.blank k.ports p

/-- Changes a port. -/
def State.modPort (s : State) (l p : Nat) (f : Port → Port) : State :=
  s.modLink l fun k => { k with ports := tput k.ports p (f (k.port p)) }

/-- A packet leaves by a port: it waits while the port trains, and goes no further when it is down (23 R456). -/
def State.emit (s : State) (link port dst : Nat) (pkt : FabPkt) : State :=
  match ((s.link link).port port).st.toNat with
  | 0 => s
  | 1 => s.modPort link port fun p => { p with waits := p.waits ++ [(dst, pkt)] }
  | _ => { s with events := s.events ++ [.fabric link port dst pkt] }

/-- The exit link and port of a module, from its FROUTE register (23 R457, Table 23.8). -/
def State.exitPort (s : State) (dst : Nat) : Nat × Nat :=
  let f := tget 0 s.spine.froute dst
  (wfld f 4 4, wfld f 0 2)

/-- The link and the port by which the packets of a queue pair leave: its own (23 Table 23.2); for a number that is no queue pair,
the exit port of the module. -/
def State.qpPort (s : State) (qp dst : Nat) : Nat × Nat :=
  match tfind s.qps qp with
  | some q => (qpLink qp, q.port.toNat)
  | none => s.exitPort dst

/-- Whether a resident queue pair may be evicted: no operation in flight, no staged packet (23 R467). -/
def State.evictable (s : State) (qp : Nat) : Bool :=
  !(s.allOps.any fun o => o.qp? == some qp && (o.st == .running || (o.st == .pageWait && o.arrived.isSome))) &&
    !(((s.link (qpLink qp)).staged ++ (s.link (qpLink qp)).reqs).any fun p => p.qp == qp)

/-- The 128 bytes of a queue pair's context as software reads them (23 Table 23.2): reserved bits are zero, and the bytes of the
link chiplet's working state are free values. -/
def Qp.context (q : Qp) (free : Nat → Byte) : List Byte :=
  leBytes 2 (q.retry.toNat * 2 ^ 12 + q.st.num) ++ leBytes 2 (q.sec.toNat * 2 ^ 15 + q.asid.toNat) ++
    leBytes 4 (q.rmod.toNat * 2 ^ 24 + q.rqp.toNat) ++ leBytes 1 q.inc.toNat ++ leBytes 1 q.port.toNat ++ leBytes 6 0 ++
    leBytes 8 q.nextSend.toNat ++ leBytes 8 q.nextRecv.toNat ++ (List.range 96).map free

/-- A queue pair is evicted: its context goes to its place in the table in host memory (23 R467). -/
def State.evictQp (s : State) (qp : Nat) : State :=
  match tfind s.qps qp with
  | none => s
  | some q =>
    let bytes := q.context fun i => (Config.freeWord (s.fresh + i)).setWidth 8
    { s.modQp qp fun q => { q with resident := false } with
      fresh := s.fresh + 96, events := s.events ++ [.hostWrite (Config.qpTable qp) bytes] }

/-- A queue pair becomes the most recently used; one that is not resident takes the place of the least recently used
one that may be evicted when 8,192 are resident. -/
def State.useQp (s : State) (qp : Nat) : State :=
  let l := qpLink qp
  let lru := (s.link l).lru
  if lru.contains qp then s.modLink l fun k => { k with lru := (k.lru.filter (· != qp)) ++ [qp] }
  else
    match if lru.length < 8192 then some none else (lru.find? s.evictable).map some with
    | none => s
    | some out =>
      let s := match out with | some q => s.evictQp q | none => s
      (s.modLink l fun k => { k with lru := (k.lru.filter fun n => some n != out) ++ [qp] }).modQp qp fun x =>
        { x with resident := true }

/-- The unfinished operations of a queue pair complete with status 1. -/
def State.flushQp (s : State) (qp : Nat) : State :=
  match tfind s.qps qp with
  | some q => s.mapOps (flushPosts q.asid.toNat qp)
  | none => s

/-- QP_CREATE (23 R459): a new queue pair in RESET, of the lowest free index of a link. -/
def execQpCreate (asid link : Nat) (s : State) : Host.Outcome State Fault Refusal :=
  .next (
    if (tfind s.ctxs asid).isNone || 15 ≤ link then s.respond false 0
    else
      match (List.range (s.qps.length + 1)).find? fun i => (tfind s.qps (link * 2 ^ 20 + i)).isNone with
      | none => s.respond false 0
      | some i =>
        if 2 ^ 20 ≤ i then s.respond false 0
        else
          let qp := link * 2 ^ 20 + i
          let q : Qp := { Qp.blank with asid := BitVec.ofNat 12 asid, sec := (s.ctx asid).sec }
          (State.useQp { s with qps := tput s.qps qp q } qp).respond true (toWord qp))

/-- A command that moves a queue pair from a state (23 Table 23.3). -/
def State.qpCommand (s : State) (qp : Nat) (from_ : QpState) (f : Qp → Qp) : State :=
  match tfind s.qps qp with
  | some q => if q.st = from_ then State.respond { s with qps := tput s.qps qp (f q) } true 0 else s.respond false 0
  | none => s.respond false 0

/-- QP_INIT (23 R459): RESET to INIT. -/
def execQpInit (qp : Nat) (port : BitVec 2) (retry : BitVec 4) (s : State) : Host.Outcome State Fault Refusal :=
  .next (s.qpCommand qp .reset fun q => { q with st := .init, port, retry })

/-- QP_CONNECT (23 R459): INIT to RTS, sequences zero. -/
def execQpConnect (qp : Nat) (rmod : BitVec 8) (rqp : BitVec 24) (inc : BitVec 8) (s : State) :
    Host.Outcome State Fault Refusal :=
  .next (s.qpCommand qp .init fun q =>
    { q with st := .rts, rmod, rqp, inc, nextSend := 0, nextRecv := 0, backoff := false })

/-- QP_RESET (23 R459): any state to RESET; the unfinished operations complete with status 1. -/
def execQpReset (qp : Nat) (s : State) : Host.Outcome State Fault Refusal :=
  .next (
    match tfind s.qps qp with
    | some _ => ((s.flushQp qp).modQp qp fun q => { q with st := .reset, backoff := false }).respond true 0
    | none => s.respond false 0)

/-- QP_DESTROY (23 R459): from RESET; the number becomes free. -/
def execQpDestroy (qp : Nat) (s : State) : Host.Outcome State Fault Refusal :=
  .next (
    match tfind s.qps qp with
    | some q =>
      if q.st = .reset then
        State.respond ({ s with qps := tdel s.qps qp }.modLink (qpLink qp) fun k => { k with lru := k.lru.filter (· != qp) }) true 0
      else s.respond false 0
    | none => s.respond false 0)

/-! ### Packets of an operation (23 R457) -/

/-- Cuts `n` bytes at an offset at each 4 KiB boundary of it: offset and length of each packet; the count bounds them. -/
def packetCuts : Nat → Nat → Nat → List (Nat × Nat)
  | 0, _, _ => []
  | k + 1, off, n =>
    if n = 0 then []
    else
      let m := Nat.min n (4096 - off % 4096)
      (off, m) :: packetCuts k (off + m) (n - m)

/-- The request packets of an operation. -/
def State.packets (s : State) (o : EngOp) : List FabReq :=
  match o.body with
  | .rma op _ off key qp len _ _ =>
    let q := tget Qp.blank s.qps qp
    (packetCuts 4098 off.toNat len).zipIdx.map fun (c, i) =>
      { op, rmod := s.spine.modNum.toNat, rqp := qp, qp := q.rqp.toNat, inc := q.inc, seq := o.seq + toWord i, opId := o.id,
        first := i == 0, last := c.1 + c.2 == off.toNat + len, key, off := c.1, opLen := len, len := c.2,
        data := match op with
          | .write => (o.data.drop (c.1 - off.toNat)).take c.2
          | .read => []
          | _ => o.data }
  | _ => []

/-- The packets of an operation from an offset on go to the module that its queue pair names. -/
def State.sendFrom (s : State) (o : EngOp) (off : Nat) : State :=
  match o.qp? with
  | none => s
  | some qp =>
    let dst := (tget Qp.blank s.qps qp).rmod.toNat
    let (l, p) := s.qpPort qp dst
    ((s.packets o).filter fun x => decide (off ≤ x.off)).foldl (fun s x => s.emit l p dst (.req x)) s

/-- An operation takes the next numbers of its queue pair's send sequence, and its packets are sent. -/
def State.sendPackets (s : State) (o : EngOp) (qp : Nat) : State :=
  let o := { o with seq := (tget Qp.blank s.qps qp).nextSend }
  let n := (s.packets o).length
  ((s.modOp o.id fun _ => o).modQp qp fun q => { q with nextSend := q.nextSend + toWord n }).sendFrom o 0

/-! ### The start of an operation (23 R462, R463, Table 23.6) -/

/-- Changes an operation, also one of a saved core that does other work. -/
def State.modPost (s : State) (id : Nat) (f : EngOp → EngOp) : State := s.mapOps (mapWhere (fun o => o.id == id) f)

/-- Ends an operation with a status. -/
def State.endPost (s : State) (id : Nat) (status : BitVec 8) : State :=
  s.modPost id fun o => { o with st := .ended, status }

/-- Local bytes that an operation reads, and those that it writes. -/
def localBytes (op : RmaOp) (a : Word) (len : Nat) : List Word × List Word :=
  let f (n : Nat) : List Word := (List.range n).map fun i => a + toWord i
  match op with
  | .write => (f len, [])
  | .read => ([], f len)
  | .fadd => (f 8, f 8)
  | .cas => (f 16, f 8)

/-- Whether the local side may name an address (23 R462). -/
def localWindow (a : Word) : Bool :=
  match wfld a 56 8 with
  | 0x00 | 0xF0 | 0xF1 | 0xF2 => true
  | _ => false

/-- The local check of a byte: the sub-causes of 23 Table 23.6. -/
def State.localByte (s : State) (o : EngOp) (pages : Tbl Got) (rd wr : Bool) (a : Word) : Word × EngAcc :=
  if !localWindow a then (a, .bad 0x90)
  else
    (a, match s.engByte o pages rd wr a with
      | .bad 0x60 => .bad 0x90
      | .bad 0x63 => .bad 0x93
      | .bad _ => .bad 0x94
      | v => v)

/-- The lowest address of some bytes with a sub-cause. -/
def lowestBad (l : List (Word × EngAcc)) (sub : Nat) : Option Word := lowest (((badOf l).filter fun x => x.2 == sub).map (·.1))

/-- What a remote operation does once its local checks have passed: the wait of SYNC, the state of its queue pair, its local reads,
and its packets (23 R462). `lr` are the bytes that it reads. -/
def State.beginReads (s t : State) (o : EngOp) (q : Qp) (qp : Nat) (lr : List (Word × EngAcc)) : State :=
  let site := coreSite o.core
  if !s.syncReady o then s
  else if q.st != .rts then t.endPost o.id 1
  else
    match s.lostByte o lr .unreachable, s.lostByte o lr .stale with
    | some x, _ => t.failOp o .unreachable 0 x
    | none, some x => t.failOp o .engine 0x67 x
    | none, none =>
      if s.engWaits o lr then s
      else
        match lowest ((lr.filter fun x => x.2.locs.any s.bad).map (·.1)) with
        | some x => t.failOp o .memUncorr 0 x
        | none =>
          if !s.routable site (nth 0 linkSites (qpLink qp)) then t.failOp o .unreachable 0 0
          else if !(tget 0 s.spine.froute q.rmod.toNat).getLsbD 63 || ((s.link (qpLink qp)).port q.port.toNat).st == 0 then
            t.endPost o.id 7
          else
            let from_ := lr.map fun x => x.2.locs.headD 0
            let e : EngOp := { o with st := .running, arrived := some 0, data := from_.map (memGet s.mem), pages := [] }
            ((t.peekFor o.core o.own o.owner o.pc 5 from_).useQp qp).sendPackets e qp

/-- What a remote operation does at its start, once its turn has come: its local checks in the order of 23 Table 23.6, the walks and
the page request that they need among them, then its reads. -/
def State.beginPost (s : State) (o : EngOp) (op : RmaOp) (a : Word) (qp len : Nat) : State :=
  if len = 0 then s.endPost o.id 0
  else
    match tfind s.qps qp with
    | none => s.failOp o .engine 0x91 0
    | some q =>
      if q.asid.toNat ≠ o.asid then s.failOp o .engine 0x91 0
      else
        let (rd, wr) := localBytes op a len
        let pages := s.engPages o (rd ++ wr)
        let t := s.usePages o pages
        let lr := rd.map (s.localByte o pages true false)
        let l := lr ++ wr.map (s.localByte o pages false true)
        match lowestBad l 0x90 with
        | some x => t.failOp o .engine 0x90 x
        | none =>
          if (op == .fadd && a.toNat % 8 != 0) || (op == .cas && a.toNat % 16 != 0) then t.failOp o .engine 0x92 a
          else
            match l.find? fun x => x.2 == .miss, lowestBad l 0x93, lowestBad l 0x94, l.find? fun x => x.2 == .absent with
            | some x, _, _, _ => s.engWalk o pages x.1
            | none, some x, _, _ => t.failOp o .engine 0x93 x
            | none, none, some x, _ => t.failOp o .engine 0x94 x
            | none, none, none, some x => t.suspendOp o x.1
            | none, none, none, none => s.beginReads t o q qp lr

/-- RMAPOST_START (23 R462, R463, R467): operations of one queue pair start in post order; with FENCE, after every
earlier one has completed; one whose queue pair is evicted, or is backing off, waits. -/
def execRmapostStart (id : Nat) (s : State) : Host.Outcome State Fault Refusal :=
  .next (
    match s.ops.find? fun o => o.id == id with
    | none => s
    | some o =>
      match o.body with
      | .rma op a _ _ qp len _ fence =>
        let q := tget { Qp.blank with resident := true } s.qps qp
        let before := s.earlierPosts o
        if o.st != .queued || !s.opRuns o || o.walk.isSome || before.any (fun e => e.arrived.isNone && e.st != .ended) ||
            (fence && !before.isEmpty) || (q.asid.toNat == o.asid && (!q.resident || q.backoff)) then s
        else s.beginPost o op a qp len
      | _ => s)

/-! ### Responses (23 R466, R467, R469) -/

/-- The code by which an answer says NOT_READY; 23 Table 23.5 has no status for it (log 13). -/
def notReady : BitVec 8 := 0xFF

/-- Local addresses that a response writes. -/
def rspAddrs (op : RmaOp) (a off : Word) (rsp : FabRsp) : List Word :=
  if op == .write then []
  else
    let start := if op == .read then a + toWord (rsp.off - off.toNat) else a
    (List.range rsp.data.length).map fun i => start + toWord i

/-- A packet of an operation is refused: its resends are counted, and beyond RETRY the operation ends with status 6 (23 R467). -/
def EngOp.refuse (o : EngOp) (retry off : Nat) : EngOp :=
  let n := tget 0 o.refused off + 1
  if retry < n then { o with st := .ended, status := 6 }
  else { o with refused := tput o.refused off n, again := some (Nat.min off (o.again.getD off)) }

/-- What an operation takes from a response with no bytes for it to write left to check: it completes when each of its packets has
been answered (23 R462). -/
def State.takeAnswer (s : State) (o : EngOp) (rsp : FabRsp) : State :=
  let ps := s.packets o
  let got := rsp.off :: o.got
  let n := ((ps.find? fun p => p.off == rsp.off).map (·.len)).getD 0
  s.modOp o.id fun o =>
    { o with got, pos := o.pos + n, st := if ps.all fun p => got.contains p.off then .ended else .running,
             status := if ps.all fun p => got.contains p.off then 0 else o.status }

/-- What an operation takes from a response of status 0 (11 R291, R292): the bytes that it writes are checked and written, after
the walks that they need. `later` keeps the response. -/
def State.landData (s : State) (o : EngOp) (op : RmaOp) (a off : Word) (rsp : FabRsp) (later : State → State) : State :=
  let vas := rspAddrs op a off rsp
  let pages := s.engPages o vas
  let t := s.usePages o pages
  let l := vas.map (s.localByte o pages false true)
  match l.find? fun x => x.2 == .miss, l.find? fun x => x.2 == .absent, lowestBad l 0x93, lowestBad l 0x94 with
  | some x, _, _, _ => later (s.engWalk o pages x.1)
  | none, some x, _, _ => later (t.suspendOp o x.1)
  | none, none, some x, _ => t.failOp o .engine 0x93 x
  | none, none, none, some x => t.failOp o .engine 0x94 x
  | none, none, none, none =>
    match s.lostByte o l .unreachable, s.lostByte o l .stale with
    | some x, _ => t.failOp o .unreachable 0 x
    | none, some x => t.failOp o .engine 0x67 x
    | none, none => if s.engWaits o l then later s else (t.engWrite o 5 (l.zip rsp.data)).takeAnswer o rsp

/-- What the queue pair of an operation and the operation take from a response (23 R462, R466, R467). -/
def State.takeResponse (s : State) (o : EngOp) (op : RmaOp) (a off : Word) (q : Qp) (rsp : FabRsp) (later : State → State) :
    State :=
  if rsp.status = notReady then
    (s.modQp rsp.qp fun q => { q with backoff := true }).modPost o.id fun o => o.refuse q.retry.toNat rsp.off
  else if rsp.status ≠ 0 then s.endPost o.id rsp.status
  else if o.got.contains rsp.off then s
  else s.landData o op a off rsp later

/-- FABRIC_RESPONSE (23 R466, R469): the response to a packet. One of another incarnation than its queue pair holds is dropped and
counted, and an operation that still waits for it has status 8; one for an operation that is flushed or gone is discarded; one
that arrives while the local side of its operation is suspended waits at the link. -/
def execFabricResponse (rsp : FabRsp) (s : State) : Host.Outcome State Fault Refusal :=
  .next (
    let s : State := { s with links := s.links.map fun e => (e.1, { e.2 with rsps := e.2.rsps.erase rsp }) }
    let later (s : State) : State := s.modLink (qpLink rsp.qp) fun k => { k with rsps := k.rsps ++ [rsp] }
    match tfind s.qps rsp.qp with
    | none => s
    | some q =>
      let waiting (o : EngOp) : Bool := o.id == rsp.id && o.qp? == some rsp.qp && o.arrived.isSome && o.st != .ended
      if rsp.inc ≠ q.inc then
        let s := s.modLink (qpLink rsp.qp) fun k => { k with rstale := k.rstale + 1 }
        if s.allOps.any waiting then s.endPost rsp.id 8 else s
      else
        match s.ops.find? waiting with
        | none => if s.allOps.any waiting then later s else s
        | some o =>
          match o.body with
          | .rma op a off _ _ _ _ _ =>
            if o.st != .running || !s.opRuns o || o.walk.isSome || s.opWriting o then later s
            else s.takeResponse o op a off q rsp later
          | _ => s)

/-- NOT_READY_RESEND (23 R467): the wait of 8 µs ends, and the queue pair of an operation sends again, in post order, from the
earliest packet that was refused. -/
def execNotReadyResend (id : Nat) (s : State) : Host.Outcome State Fault Refusal :=
  .next (
    match (s.ops.find? fun o => o.id == id).bind fun o => o.qp?.map fun qp => (o, qp) with
    | none => s
    | some (o, qp) =>
      if !(tget Qp.blank s.qps qp).backoff then s
      else
        let sent (e : EngOp) : Bool := e.arrived.isSome && e.st != .ended
        let from_ := ((s.postsOf o.asid qp).filter sent).dropWhile fun e => e.again.isNone
        let t := (s.modQp qp fun q => { q with backoff := false }).mapOps
          (mapWhere (fun e => e.qp? == some qp && e.asid == o.asid) fun e => { e with again := none })
        match from_ with
        | [] => t
        | e :: l => l.foldl (fun s e => s.sendFrom e 0) (t.sendFrom e (e.again.getD 0)))

/-- PACKET_AGE_DROP (23 R457): a packet of an operation was dropped. -/
def execPacketAgeDrop (id : Nat) (s : State) : Host.Outcome State Fault Refusal :=
  .next (
    match s.allOps.find? fun o => o.id == id with
    | some o => if o.cls == 3 && o.arrived.isSome && o.st != .ended then s.endPost id 7 else s
    | none => s)

/-! ### Memory regions (23 R460, R468) -/

/-- Region of an index. -/
def State.memRegion (s : State) (i : Nat) : MemRegion := tget MemRegion.blank s.memRegions i

/-- Changes a region. -/
def State.modRegion (s : State) (i : Nat) (f : MemRegion → MemRegion) : State :=
  { s with memRegions := tput s.memRegions i (f (s.memRegion i)) }

/-- The 64 KiB pages that a range of at least one byte touches. -/
def rangePages (base : Word) (len : Nat) : List Word :=
  let first := base.toNat / 2 ^ 16
  (List.range ((base.toNat + len - 1) / 2 ^ 16 + 1 - first)).map fun i => toWord ((first + i) * 2 ^ 16)

/-- Whether every page of a range is valid for a context. -/
def State.rangeValid (s : State) (asid : Nat) (base : Word) (len : Nat) : Bool :=
  (rangePages base len).all fun a => (s.spineXlate asid a).isSome

/-- REG (23 R460): the lowest FREE index, with the generation that it holds. -/
def execReg (asid : Nat) (base : Word) (len : Nat) (rr rw ra : Bool) (s : State) : Host.Outcome State Fault Refusal :=
  .next (
    if (tfind s.ctxs asid).isNone || base.toNat % 64 ≠ 0 || len % 64 ≠ 0 || len < 64 || 2 ^ 40 < len ||
        (ra && (s.ctx asid).mode != .off) || !s.rangeValid asid base len then s.respond false 0
    else
      match (List.range (s.memRegions.length + 1)).find? fun i => (s.memRegion i).st == .free with
      | none => s.respond false 0
      | some i =>
        if 2 ^ 24 ≤ i then s.respond false 0
        else
          let s := s.modRegion i fun r =>
            { r with asid := BitVec.ofNat 12 asid, sec := (s.ctx asid).sec, base, len, rr, rw, ra, st := .valid, drain := 0 }
          s.respond true (toWord (i * 2 ^ 8 + (s.memRegion i).gen.toNat)))

/-- The end of a revoke: nothing admitted is left and every link chiplet has applied it. -/
def State.settleRevoke (s : State) (i : Nat) : State :=
  let r := s.memRegion i
  if r.st = .draining ∧ r.drain = 0 ∧ r.toApply = [] then
    let s := s.modRegion i fun r => { r with st := .free }
    { s with events := s.events ++ [.revoked i] }
  else s

/-- The link chiplets in service. -/
def State.liveLinks (s : State) : List Nat :=
  (List.range 15).filter fun l => (s.site (nth 0 linkSites l)).st == .live

/-- REVOKE (23 R468). -/
def execRevoke (key : BitVec 32) (s : State) : Host.Outcome State Fault Refusal :=
  .next (
    let i := key.toNat / 2 ^ 8
    let r := s.memRegion i
    if r.st = .valid ∧ r.gen.toNat = key.toNat % 2 ^ 8 then
      ((s.modRegion i fun r => { r with st := .draining, gen := r.gen + 1, toApply := s.liveLinks }).respond true 0).settleRevoke i
    else s.respond false 0)

/-- REVOKE_APPLY (23 R468): the revoke point of a link chiplet. -/
def execRevokeApply (link index : Nat) (s : State) : Host.Outcome State Fault Refusal :=
  .next ((s.modRegion index fun r => { r with toApply := r.toApply.filter (· != link) }).settleRevoke index)

/-! ### At the target (23 R465) -/

/-- The answer to a packet, with its sender's INC (23 R469). -/
def State.rspTo (s : State) (link : Nat) (p : FabReq) (status : BitVec 8) (data : List Byte) : FabRsp :=
  { id := p.opId, qp := p.rqp, inc := s.linkInc link, status, off := p.off, data }

/-- Answers leave for another module. -/
def State.reply (s : State) (qp rmod : Nat) (l : List FabRsp) : State :=
  let (k, n) := s.qpPort qp rmod
  l.foldl (fun s r => s.emit k n rmod (.rsp r)) s

/-- An answer to another module. -/
def State.answer (s : State) (link : Nat) (p : FabReq) (status : BitVec 8) (data : List Byte) : State :=
  s.reply p.qp p.rmod [s.rspTo link p status data]

/-- Whether a packet comes from the queue pair that its own is connected to (23 R465). -/
def Qp.connected (q : Qp) (p : FabReq) : Bool :=
  (q.st == .rts || q.st == .error) && q.rmod.toNat == p.rmod && q.rqp.toNat == p.rqp

/-- The entry of a link chiplet's translation cache that serves an address of a context (23 R465). -/
def State.linkEntry (s : State) (link asid : Nat) (va : Word) : Option TlbEntry :=
  (s.link link).tcache.find? fun e => e.hits (BitVec.ofNat 12 asid) (s.ctx asid).sec va

/-- The translation of a link chiplet: its cache first, then the context's tables. -/
def State.linkXlate (s : State) (link asid : Nat) : Xlate := fun va =>
  match s.linkEntry link asid va with
  | some e => if va.toNat < 2 ^ 55 then some (ptePage e.pte, e.phys va) else none
  | none => s.spineXlate asid va

/-- A link chiplet's cache keeps the translations of the pages of a range; of 1,024 entries the latest stay (log 25). -/
def State.keepPages (s : State) (link asid : Nat) (base : Word) (len : Nat) : State :=
  if len = 0 then s
  else
    (rangePages base len).foldl (fun (s : State) a =>
      match s.linkEntry link asid a, (s.walkTables noCluster (BitVec.ofNat 12 asid) a).leaf with
      | none, some (big, pte) =>
        let e : TlbEntry :=
          { asid := BitVec.ofNat 12 asid, glob := pte.getLsbD 5, sec := (s.ctx asid).sec, big, vp := vpOf big a, pte,
            set := 0, way := 0 }
        if a.toNat < 2 ^ 55 then s.modLink link fun k => { k with tcache := (e :: k.tcache).take 1024 } else s
      | _, _ => s) s

/-- The checks of the first packet of an operation, in order; 0 when it passes. A link chiplet that has not yet applied a
revoke sees the region as it was. -/
def State.targetCheck (s : State) (link : Nat) (p : FabReq) : BitVec 8 :=
  let q := tget Qp.blank s.qps p.qp
  let r := s.memRegion (p.key.toNat / 2 ^ 8)
  let valid := r.st == .valid || (r.st == .draining && r.toApply.contains link)
  let gen := if r.st == .draining && r.toApply.contains link then r.gen - 1 else r.gen
  if !q.connected p then 5
  else if !valid || gen.toNat ≠ p.key.toNat % 2 ^ 8 || r.asid ≠ q.asid || r.sec != q.sec ||
      (p.opLen ≠ 0 && p.off + p.opLen ≤ r.len &&
        !(rangePages (r.base + toWord p.off) p.opLen).all fun a => (s.linkXlate link r.asid.toNat a).isSome) then 2
  else if r.len < p.off + p.opLen || ((p.op == .fadd || p.op == .cas) && p.off % 8 ≠ 0) then 3
  else if !(match p.op with | .write => r.rw | .read => r.rr | _ => r.ra) then 4
  else 0

/-- Locations from which a link chiplet reads the bytes of a packet in the owner's memory (14 R342). -/
def State.targetLocs (s : State) (link : Nat) (r : MemRegion) (p : FabReq) (n : Nat) : List Nat :=
  (s.readBy (s.linkXlate link r.asid.toNat) (nth 0 linkSites link) r.asid.toNat (r.base + toWord p.off) n).map fun l => l.getD 0

/-- Whether the PAS has an unfinished operation at some of the locations (16 R375): an atomic of another module waits. -/
def State.pasBusy (s : State) (locs : List Nat) : Bool :=
  s.atoms.any fun a =>
    (match a.stage with | .locking _ _ | .pasResult _ _ | .pasFail _ => true | _ => false) && locs.any fun l => l / 16 == a.loc / 16

/-- A packet that was admitted is performed, `agent` being the number of its writes to replicated pages, and answered with a
status and data; `none` when it must wait. An atomic on a replicated page is refused as one without the right (06 R155; log
13). -/
def State.targetPerform (s : State) (link agent : Nat) (r : MemRegion) (p : FabReq) : Option (State × BitVec 8 × List Byte) :=
  let a := r.base + toWord p.off
  let locs := s.targetLocs link r p (match p.op with | .write | .read => p.len | _ => 8)
  if locs.any s.replLocked then none
  else
    match p.op with
    | .write => some (s.writeBy (s.linkXlate link r.asid.toNat) agent r.asid.toNat a p.data, 0, [])
    | .read =>
      let t := s.watchRange false locs none 0 0 5
      some (if locs.any s.bad then (t, 9, []) else (t, 0, locs.map (memGet s.mem)))
    | _ =>
      if s.pasBusy locs then none
      else if Xlate.repl (s.linkXlate link r.asid.toNat) a then some (s, 4, [])
      else if locs.any s.bad then some (s, 9, [])
      else
        let old := memVal s.mem locs
        let x := leNat (p.data.take 8)
        let new := if p.op == .fadd then (old + x) % 2 ^ 64 else if old = x then leNat ((p.data.drop 8).take 8) else old
        let s := s.modSpine fun z => { z with pasSeq := z.pasSeq + 1 }
        some (((s.poke (cellsOf locs new)).watchRange false locs none 0 0 5).watchRange true locs none 0 0 5, 0, leBytes 8 old)

/-- Whether a packet belongs to an admitted operation. -/
def Admitted.has (a : Admitted) (p : FabReq) : Bool := a.rmod == p.rmod && a.opId == p.opId && a.index == p.key.toNat / 2 ^ 8

/-- An admitted operation leaves its link chiplet: the drain count falls. -/
def State.releaseAdmitted (s : State) (link : Nat) (a : Admitted) : State :=
  ((s.modLink link fun k => { k with admitted := k.admitted.erase a }).modRegion a.index fun r =>
    { r with drain := r.drain - 1 }).settleRevoke a.index

/-- A packet of a queue pair has been served: the next number of the sequence is expected (23 Table 23.2). -/
def State.received (s : State) (p : FabReq) : State := s.modQp p.qp fun q => { q with nextRecv := q.nextRecv + 1 }

/-- The end of a packet: its answer leaves, with those of the packets before it, once the last packet of its operation is performed,
and the operation is then released (23 R465, R468). The packets of an operation are performed in their order. -/
def State.endPacket (s : State) (link : Nat) (p : FabReq) (status : BitVec 8) (data : List Byte) : State :=
  let r := s.rspTo link p status data
  let s := s.received p
  match (s.link link).admitted.find? fun a => a.has p with
  | none => s
  | some a =>
    if p.last then (s.reply p.qp p.rmod (a.rsps ++ [r])).releaseAdmitted link a
    else
      s.modLink link fun k =>
        { k with admitted := mapWhere (fun a => a.has p) (fun a => { a with rsps := a.rsps ++ [r] }) k.admitted }

/-- A packet that was admitted is performed; it waits, ahead of every other, for a locked location and for the end of its
writes to replicated pages. -/
def State.performPacket (s : State) (link : Nat) (p : FabReq) : State :=
  let wait (s : State) : State := s.modLink link fun k => { k with reqs := { p with first := false } :: k.reqs }
  let r := s.memRegion (p.key.toNat / 2 ^ 8)
  let s := s.keepPages link r.asid.toNat (r.base + toWord p.off) (match p.op with | .write | .read => p.len | _ => 8)
  match s.targetPerform link s.fresh r p with
  | none => wait s
  | some (t, status, data) =>
    if t.agentWriting s.fresh then
      (wait t).modLink link fun k => { k with sent := k.sent ++ [({ p with first := false }, s.fresh)] }
    else t.endPacket link p status data

/-- A packet is served by its link chiplet (23 R465). One that is not the next of its sequence comes behind a packet that was
refused, or a second time: it is not performed, and its sender sends it again when it must (23 R467; log 29). -/
def State.servePacket (s : State) (link : Nat) (p : FabReq) : State :=
  let index := p.key.toNat / 2 ^ 8
  let q := tget Qp.blank s.qps p.qp
  if !q.connected p then (if p.first then s.answer link p 5 [] else s)
  else if p.seq ≠ q.nextRecv then s
  else if p.first then
    let st := s.targetCheck link p
    if st ≠ 0 then (s.received p).answer link p st []
    else
      ((s.modLink link fun k => { k with admitted := k.admitted ++ [{ rmod := p.rmod, opId := p.opId, index, rsps := [] }] }).modRegion
        index fun r => { r with drain := r.drain + 1 }).performPacket link p
  else if (s.link link).admitted.any fun a => a.has p then s.performPacket link p
  else s.received p

/-- The packet that waits at the head of its queue pair is considered again. -/
def State.retryPacket (s : State) (link : Nat) (p : FabReq) : State :=
  let drop (s : State) : State :=
    s.modLink link fun k => { k with reqs := k.reqs.erase p, sent := k.sent.filter fun e => e.1 != p }
  match (s.link link).sent.find? fun e => e.1 == p with
  | some (_, n) => if s.agentWriting n then s else (drop s).endPacket link p 0 []
  | none => (drop s).servePacket link p

/-- A packet that waits at the head of its queue pair is considered again; another waits on. -/
def State.headPacket (s : State) (link : Nat) (p : FabReq) : State :=
  if ((s.link link).reqs.find? fun q => q.qp == p.qp) == some p then s.retryPacket link p else s

/-- A packet of a resident queue pair is served in its turn: behind one that waits, it waits too (23 R463). -/
def State.takePacket (s : State) (link : Nat) (p : FabReq) : State :=
  if (s.link link).reqs.any fun x => x.qp == p.qp then s.modLink link fun k => { k with reqs := k.reqs ++ [p] }
  else s.servePacket link p

/-- FABRIC_REQUEST_AT_TARGET (23 R465, R467, R469): a packet of another incarnation is answered STALE; one for an evicted
queue pair, or behind a staged packet of its queue pair, is staged, or answered NOT_READY when the staging buffer is full;
another is served in its turn. -/
def execFabricRequestAtTarget (link : Nat) (pkt : FabReq) (s : State) : Host.Outcome State Fault Refusal :=
  .next (
    if pkt.inc ≠ s.linkInc link then s.answer link pkt 8 []
    else
      let k := s.link link
      match tfind s.qps pkt.qp with
      | none => s.answer link pkt 5 []
      | some q =>
        if !q.resident || k.staged.any (fun p => p.qp == pkt.qp) then
          if k.staged.length < 64 then s.modLink link fun k => { k with staged := k.staged ++ [pkt] }
          else (s.modLink link fun k => { k with notReady := k.notReady + 1 }).answer link pkt notReady []
        else (s.useQp pkt.qp).takePacket link pkt)

/-- QP_CONTEXT_FETCH (23 R467): an evicted queue pair becomes resident, and its staged packets are served in arrival
order. -/
def execQpContextFetch (qp : Nat) (s : State) : Host.Outcome State Fault Refusal :=
  .next (
    match tfind s.qps qp with
    | none => s
    | some _ =>
      let l := qpLink qp
      let t := s.useQp qp
      if !(tget Qp.blank t.qps qp).resident then s
      else
        let (mine, rest) := (t.link l).staged.partition fun p => p.qp == qp
        mine.foldl (fun s p => s.takePacket l p) (t.modLink l fun k => { k with staged := rest }))

/-! ### Ports and link chiplets (23 R456, R457, R469) -/

/-- FRAME_RECEIVE (23 R456): a frame that fails its check after correction is sent again, and is counted. -/
def execFrameReceive (link port : Nat) (ok : Bool) (s : State) : Host.Outcome State Fault Refusal :=
  .next (s.modPort link port fun p =>
    if ok then { p with fails := 0 } else { p with resent := p.resent + 1, fails := p.fails + 1 })

/-- PORT_RETRAIN (23 R456): a port that has failed 16 retransmissions of a frame in a row, 17 sendings, trains again. -/
def execPortRetrain (link port : Nat) (s : State) : Host.Outcome State Fault Refusal :=
  .next (s.modPort link port fun p => if 17 ≤ p.fails then { p with st := 1, fails := 0 } else p)

/-- Whether the packets of a queue pair leave by a port: its local port, or the exit port of the module it names. -/
def State.usesPort (s : State) (qp link port : Nat) : Bool :=
  let q := tget Qp.blank s.qps qp
  (qpLink qp == link && q.port.toNat == port) || s.exitPort q.rmod.toNat == (link, port)

/-- PORT_TRAINED (23 R456, Table 23.5): a port that trains comes up, and the packets that wait at it leave in their order; or it
stays down, and the operations whose packets wait at it complete with status 7. -/
def execPortTrained (link port : Nat) (up : Bool) (s : State) : Host.Outcome State Fault Refusal :=
  .next (
    let p := (s.link link).port port
    if p.st = 2 then s
    else
      let s := s.modPort link port fun p => { p with st := if up then 2 else 0, fails := 0, waits := [] }
      if up then { s with events := s.events ++ p.waits.map fun w => .fabric link port w.1 w.2 }
      else
        let hit (o : EngOp) : Bool :=
          o.arrived.isSome && o.st != .ended && (o.qp?.map fun qp => s.usesPort qp link port).getD false
        s.mapOps (mapWhere hit fun o => { o with st := .ended, status := 7 }))

/-- FABRIC_FORWARD (23 R457): a packet for another module leaves by the exit port that FROUTE names; one without a route goes no
further. -/
def execFabricForward (_link dst : Nat) (pkt : FabPkt) (s : State) : Host.Outcome State Fault Refusal :=
  .next (
    let (l, p) := s.exitPort dst
    if (tget 0 s.spine.froute dst).getLsbD 63 then s.emit l p dst pkt else s)

/-- LINK_CHIPLET_RESET (23 R469, 11 R309): the queue pairs of the chiplet end in RESET, their operations flushed; nothing
stays staged, admitted or waiting at a port, INC advances, and the site, which was LIVE, is CLOCKED again (14 Table 14.2). -/
def execLinkChipletReset (link : Nat) (s : State) : Host.Outcome State Fault Refusal :=
  .next (
    if 15 ≤ link || (s.site (nth 0 linkSites link)).st != .live then s
    else
      let mine := (s.qps.map (·.1)).filter fun q => qpLink q == link
      let s := mine.foldl (fun s q => (s.flushQp q).modQp q fun x => { x with st := .reset, backoff := false }) s
      let s := (s.link link).admitted.foldl (fun s a => s.releaseAdmitted link a) s
      (s.modLink link fun k => { k with tcache := [], staged := [], admitted := [], reqs := [], sent := [], rsps := [], ports := k.ports.map fun e => (e.1, { e.2 with waits := [] }) }).modSite
        (nth 0 linkSites link) fun t => { t with inc := t.inc + 1, st := .clocked })

end Sys2Proof.Machine
end

