-- ==== Sys2Proof/Machine/Preempt.lean ====
section
/-! DEFINITION. Pre-emption and resumption (07 R198 to R204, 04 R113), and the replies of the pager (04 R110; 11 R307). -/

namespace Sys2Proof.Machine

/-! ### The request (07 R198, R199) -/

/-- Waits that end at a pre-emption: their instruction re-executes after resumption (04 R100). The others end with a
reply, with the fault of an aborted gang, or when earlier accesses are performed. -/
def Wait.reexecutes : Wait → Bool
  | .retry | .reply _ | .join _ _ | .gang _ | .tlbinv _ _ _ | .table _ => false
  | _ => true

/-- The circular buffer that a wait counts in. -/
def Wait.cb? : Wait → Option Nat
  | .cbFull cb _ | .cbClaim cb _ | .cbPush cb _ | .cbStores cb => some cb.toNat
  | _ => none

/-- A strand whose wait a pre-emption has met: SAVED-WAITING, to execute its wait instruction again (04 Table 04.7). A
presentation that it held loses its turn. -/
def Strand.keep (p : Strand) : Strand :=
  match p.st with
  | .waiting w => { p with st := .kept w, heldSince := none }
  | _ => p

/-- A strand at resumption: a kept wait executes again; no latch holds a register, and no element is read ahead (07 R203). -/
def Strand.resume (p : Strand) : Strand :=
  { p with st := match p.st with | .kept _ => .ready | x => x, latches := [none, none, none],
           streams := p.streams.map fun b => { b with ahead := [] } }

/-- The strand at a place leaves its wait, as `f` says, if the wait re-executes; a circular buffer no longer counts it. -/
def State.dropWait (s : State) (c : Nat) (pl : Place) (f : Strand → Strand) : State :=
  match (s.strandIn c pl).bind Strand.wait? with
  | some w =>
    if w.reexecutes then
      let s := match w.cb? with | some i => s.modCb c i fun d => { d with waiters := d.waiters - 1 } | none => s
      s.modPlace c pl f
    else s
  | none => s

/-- A strand that is pre-empted keeps nothing of a PAUSE or a YIELD (05 R132, R133). -/
def Strand.unhold (p : Strand) : Strand := { p with pauseUntil := none, yielding := none }

/-- A strand of a slot at its boundary (04 R113, Table 04.12): an open region aborts, and a wait that re-executes ends. One whose
instruction has issued comes to its boundary when that has retired or faulted. -/
def State.toBoundary (s : State) (c sl : Nat) : State :=
  match s.strand? c sl with
  | none => s
  | some p =>
    let s := s.modStrand c sl Strand.unhold
    match p.st with
    | .ready => (s.modStrand c sl fun p => { p with walk := none }).abortRegion c sl
    | _ => s.dropWait c (.slot sl) Strand.keep

/-- Whether a gang aborts at the pre-emption of a core (10 R272). -/
def Gang.touches (g : Gang) (c : Nat) : Bool := g.arrived.any (fun a => a.core == c) || g.members.any fun m => m.1 == c

/-- Strands of a core that are held for the next generation of a gang arrive again after resumption. -/
def State.dropHeldArrivals (s : State) (c : Nat) : State :=
  let k := coreClu c
  let held (sl : Nat) : Bool := (List.range 4).any fun g => (s.gang k g).held.any fun a => a.core == c && a.slot == sl
  let s := (s.core c).slots.foldl (fun (s : State) e => if held e.1 then s.modStrand c e.1 Strand.keep else s) s
  (List.range 4).foldl (fun (s : State) g => s.modGang k g fun x => { x with held := x.held.filter fun a => a.core != c }) s

/-- The messages of the input buffer of a core move to the end of its spill queue, whose entries stand in order from its
start (07 R199). -/
def State.spillInbuf (s : State) (c : Nat) : State :=
  let k := s.core c
  (k.spillQ ++ k.inbuf.map SpillItem.msg).foldl (fun (s : State) x => s.spill c x)
    (s.modCore c fun k => { k with spillQ := [], inbuf := [] })

/-- PREEMPTION_REQUEST (07 R198, R199, R204): the core leaves RUN; its regions abort, its gangs abort, and the messages
of its input buffer move to the spill queue. A core that has no context assigned ignores the request, of which the manual says
nothing (log 27). -/
def execPreemptionRequest (core : Nat) (s : State) : Host.Outcome State Fault Refusal :=
  .next (
    let k := s.core core
    match k.phase with
    | .restoring => s.modCore core fun k => { k with preemptAsked := true }
    | .run =>
      if !k.ctxv then s
      else
        let s := s.modCore core fun k =>
          { k with phase := .quiesce, holders := k.holders.map fun e => (e.1, e.2.1, e.2.2.unhold) }
        let s := (s.dropHeldArrivals core).abortGangs (coreClu core) fun g => g.touches core
        let s := k.slots.foldl (fun (s : State) e => s.toBoundary core e.1) s
        let s := k.park.foldl (fun (s : State) e => s.dropWait core (.park e.1) Strand.keep) s
        s.spillInbuf core
    | _ => s)

/-! ### The end of QUIESCE (07 R199) -/

/-- Whether an operation is taken back at a pre-emption, for it has reached no unit (06 R170): it was returned, or its
presentation is held (17 R392). Its instruction re-executes. A PASOP whose lock is held has its record already, and ends only
with a divergence. -/
def AtomOp.withdrawn (a : AtomOp) (stop : Bool) : Bool :=
  match a.stage with
  | .returned => true
  | .toHome | .toPas => a.heldUp
  | .locking _ _ => a.heldUp && stop
  | _ => false

/-- Whether an operation of a core in QUIESCE has settled. -/
def State.atomSettled (s : State) (a : AtomOp) : Bool :=
  a.withdrawn (s.ctx a.asid).stop ||
    match a.stage with
    | .waiting | .heldArrival => true
    | .reply res => (s.core a.core).replies.contains (.release a.slot a.id res)
    | _ => false

/-- Whether the issued work of a core has settled (07 R199): its loads have returned and its stores have been performed, so that
what its strands access after resumption comes later (15 R358). -/
def State.settled (s : State) (c : Nat) : Bool :=
  let k := s.core c
  !(s.loads.any fun l => l.core == c) && !(s.writes.any fun w => w.core == c && w.agent.isNone) &&
    (s.atoms.all fun a => a.core != c || s.atomSettled a) &&
    (s.sends.all fun m => m.packet.isSome || m.core != c || m.stage == .returned) &&
    (k.slots.all fun e => match e.2.st with | .issuing | .waiting (.table _) | .waiting (.tlbinv _ _ _) | .waiting .retry => false | _ => true) &&
    k.mtx.queue.all fun e => !e.mayComplete || k.popsLater e

/-- What the core of an unperformed operation takes back: its strand re-executes the instruction. -/
def State.withdraw (s : State) (c : Nat) : State :=
  let atoms := s.atoms.filter fun a => a.core == c && a.withdrawn (s.ctx a.asid).stop
  let sends := s.sends.filter fun m => m.packet.isNone && m.core == c && m.stage == .returned
  let ids := atoms.map (·.id) ++ sends.map (·.id)
  let s := { s with atoms := s.atoms.filter (fun a => !ids.contains a.id), sends := s.sends.filter fun m => !ids.contains m.id }
  ((s.core c).strandsWhere fun t => match t.wait? with | some (.reply n) => ids.contains n | _ => false).foldl
    (fun (s : State) e => s.modPlace c e.1 Strand.keep) s

/-- QUIESCE_END (07 R199): every strand is at its boundary, and the core enters SAVING. -/
def execQuiesceEnd (core : Nat) (s : State) : Host.Outcome State Fault Refusal :=
  .next (
    if (s.core core).phase != .quiesce || !s.settled core then s
    else
      let s := (s.core core).slots.foldl (fun (s : State) e => s.toBoundary core e.1) s
      (s.withdraw core).modCore core fun k => { k with phase := .saving })

/-! ### The save (07 R200, R201) -/

/-- The bytes of a core's scratchpad outside its donation, by offset. -/
def State.padBytes (s : State) (c : Nat) : Memory :=
  let lo := locCore c 0
  (s.mem.filter fun e => decide (lo ≤ e.1) && decide (e.1 < lo + s.coreWin c)).map fun e => (e.1 - lo, e.2)

/-- Word `w` of the migration message of a strand (04 Table 04.3). -/
def Strand.message (p : Strand) (sl w : Nat) : Word :=
  match w with
  | 0 => p.pc
  | 1 => p.sword sl
  | 2 => p.sid
  | 3 => p.lidx
  | 20 => p.draw
  | 21 => p.sdig
  | 22 => toWord (p.sord.toNat * 2 ^ 32 + p.amax.toNat)
  | 23 => toWord (p.rmode.toNat * 2 ^ 48 + p.flags.toNat * 2 ^ 32 + p.lh.toNat)
  | n => vget 0 p.g (n - 4)

/-- A byte of a word (00 R12). -/
def byteOf (v : Word) (i : Nat) : Byte := (v >>> (8 * i)).setWidth 8

/-- Byte `i` of a strand record (07 Table 07.9) as far as its layout is given: the migration message. -/
def Strand.recordByte (p : Strand) (sl i : Nat) : Option Byte :=
  if i < 192 then some (byteOf (p.message sl (i / 8)) (i % 8)) else none

/-- Slot number in the SWORD of a parked strand's record: none is given, and it is a free constant (log 8). -/
def parkSlot : Nat := (Config.freeWord 0).toNat % 64

/-- The byte that a save writes at an offset of the save area (07 Table 07.9), where its layout is given. -/
def State.statedByte (s : State) (c o : Nat) : Option Byte :=
  let k := s.core c
  if o < 0x400 then none
  else if o < 0x800 then (tfind k.holders ((o - 0x400) / 256)).bind fun e => e.2.recordByte e.1 (o % 256)
  else if o < 0x810 then
    let i := (o - 0x800) / 2
    some (byteOf (if i = 0 then 0 else (vget 0 k.masks i).setWidth 64) (o % 2))
  else if o < 0xA10 then some (byteOf ((k.cb ((o - 0x810) / 32)).word ((o - 0x810) / 8 % 4)) (o % 8))
  else if o < 0xE10 then some (byteOf (toWord (k.atab ((o - 0xA10) / 8))) (o % 8))
  else if o < 0x1000 then none
  else if o < 0x5000 then
    let n := (o - 0x1000) / 256
    (tfind k.slots n).bind fun p => p.recordByte n (o % 256)
  else if o < 0x9000 then (tfind k.park ((o - 0x5000) / 256)).bind fun e => e.strand.recordByte parkSlot (o % 256)
  else if o < 0x10000 then none
  else if o < 0x16000 then some (((k.vreg ((o - 0x10000) / 64)) >>> (8 * (o % 64))).setWidth 8)
  else if o < 0x40000 then none
  else if o < 0x80000 then
    let a := vget AccSet.blank k.mtx.acc ((o - 0x40000) / 65536)
    some (((tget 0 a.cells (o % 65536 / 4)) >>> (8 * (o % 4))).setWidth 8)
  else if o - 0x80000 < s.coreWin c then some (memGet s.mem (locCore c (o - 0x80000)))
  else none

/-- Whether a save writes a byte whose layout is not given: the header, the end of a strand's record, the entries of the reply
area, the weight buffers. -/
def Core.unstated (k : Core) (o : Nat) : Bool :=
  decide (o < 0x400) ||
  (decide (0x400 ≤ o) && decide (o < 0x800) && (tfind k.holders ((o - 0x400) / 256)).isSome && decide (192 ≤ o % 256)) ||
  (decide (0x1000 ≤ o) && decide (o < 0x5000) && (tfind k.slots ((o - 0x1000) / 256)).isSome && decide (192 ≤ o % 256)) ||
  (decide (0x5000 ≤ o) && decide (o < 0x9000) && (tfind k.park ((o - 0x5000) / 256)).isSome && decide (192 ≤ o % 256)) ||
  (decide (0x9000 ≤ o) && decide (o < 0xA000) && decide ((o - 0x9000) / 16 < k.replies.length)) ||
  (decide (0x20000 ≤ o) && decide (o < 0x28000))

/-- The byte that a save writes at an offset of the save area, `none` where it writes nothing. Bytes whose layout is not given
are free values. The parked-block area and the spill queue hold what has been written there before (07 R191, R201, R202). -/
def State.saveByte (s : State) (c o : Nat) : Option Byte :=
  match s.statedByte c o with
  | some b => some b
  | none => if (s.core c).unstated o then some ((Config.freeWord (s.fresh + o)).setWidth 8) else none

/-- The location of a byte of the save area of a core. -/
def State.saveLoc (s : State) (c o : Nat) : Option Nat := s.areaAt (s.core c).savea o

/-- What a save of a core writes, by location. -/
def State.saveCells (s : State) (c : Nat) : List Host.Cell :=
  (List.range 0x200000).filterMap fun o => (s.saveLoc c o).bind fun l => (s.saveByte c o).map fun b => (l, b)

/-- SAVE_COMPLETE (07 R201): the save area is written, and the core reports to the Spine. -/
def execSaveComplete (core : Nat) (s : State) : Host.Outcome State Fault Refusal :=
  .next (
    let k := s.core core
    if k.phase != .saving then s
    else
      let k := { k with phase := .saved, saves := k.saves + 1 }
      let v : Saved :=
        { asid := BitVec.ofNat 12 k.asid, core, image := k, bytes := s.padBytes core, ops := [], stashed := false }
      let s := { (s.poke (s.saveCells core)).setCore core k with
        fresh := s.fresh + 0x200000
        saved := (s.saved.filter fun w => w.image.savea != k.savea) ++ [v]
        events := s.events ++ [.saved core] }
      if k.resumeAsked then { s with agenda := .resumeMessage core :: s.agenda } else s)

/-- What other units have written to the scratchpad of a saved core since its save reaches the save area (log 27). -/
def State.flushPad (s : State) (v : Saved) : State :=
  let now := s.padBytes v.core
  let cells := ((now ++ v.bytes).filter fun e => memGet now e.1 != memGet v.bytes e.1).filterMap fun e =>
    (s.areaAt v.image.savea (0x80000 + e.1)).map fun l => (l, memGet now e.1)
  s.poke cells

/-- A saved core is given other work: what it still held of its saved context waits with the image. -/
def State.stash (s : State) (c : Nat) : State :=
  let k := s.core c
  match k.phase, s.saved.find? fun v => v.core == c && v.image.savea == k.savea && !v.stashed with
  | .saved, some v =>
    let s := s.flushPad v
    let ops := (s.ops.filter fun o => o.core == c).map fun o => { o with walk := none, pages := [] }
    let mine (v : Saved) : Bool := v.core == c && v.image.savea == k.savea
    { s.setCore c { k.unassign with phase := .saved, cfg := k.cfg } with
      saved := mapWhere mine (fun v => { v with image := k, bytes := [], ops, stashed := true }) s.saved
      ops := s.ops.filter fun o => o.core != c }
  | _, _ => s

/-! ### The restore (07 R203) -/

/-- RESUME_MESSAGE (07 R203, R204): a saved core restores from the area at SAVEA; before SAVED the message is held. A
gated cluster is woken first (18 R416). -/
def execResumeMessage (core : Nat) (s : State) : Host.Outcome State Fault Refusal :=
  .next (
    let k := s.core core
    match k.phase with
    | .saved =>
      if (s.clu (coreClu core)).power == .up then
        if s.saved.any fun v => v.image.savea == k.savea then
          s.modCore core fun k => { k with phase := .restoring, resumeAsked := false }
        else s
      else
        (s.modCore core fun k => { k with resumeAsked := true }).wake (coreClu core)
    | .quiesce | .saving => s.modCore core fun k => { k with resumeAsked := true }
    | _ => s)

/-- A core with the state of an image; what the save area does not hold stays the physical core's. -/
def Core.load (k i : Core) : Core :=
  { k with
    phase := .run, resumeAsked := false, slots := i.slots, holders := i.holders, faultQ := i.faultQ, park := i.park,
    migQ := i.migQ, inbuf := [], spillQ := i.spillQ, replies := [], deferred := i.deferred, vrf := i.vrf, masks := i.masks,
    cbd := i.cbd, ptr := 0, readUntil := 0, mtx := i.mtx, issq := i.issq, eseq := i.eseq, done := i.done, rma := i.rma,
    quota := i.quota, dbg := i.dbg }

/-- The value of `n` bytes of the save area at a SAVEA. -/
def State.readArea (s : State) (savea : Word) (o n : Nat) : Nat := memVal s.mem (s.areaFrom savea o n)

/-- A strand with word `w` of its migration message replaced (04 Table 04.3): reserved bits of FLAGS are dropped, AMAX stays
non-negative, and a reserved RMODE is discarded (03 R71, R72, R82; log 8). -/
def Strand.setMessage (p : Strand) (w : Nat) (v : Word) : Strand :=
  match w with
  | 0 => { p with pc := pcOf v }
  | 1 =>
    { p with asid := v.extractLsb' 52 12, fcnt := v.extractLsb' 32 16,
             kind := nth .launched [.launched, .spawned, .message, .handler] (wfld v 5 2),
             sec := v.getLsbD 4, pager := v.getLsbD 1, sup := v.getLsbD 0 }
  | 2 => { p with sid := v }
  | 3 => { p with lidx := v }
  | 20 => { p with draw := v }
  | 21 => { p with sdig := v }
  | 22 => { p with amax := v.setWidth 32 &&& 0x7FFFFFFF, sord := v.extractLsb' 32 32 }
  | 23 =>
    { p with lh := v.setWidth 32, flags := v.extractLsb' 32 16 &&& 0x7F,
             rmode := if wfld v 48 3 ≤ 4 then v.extractLsb' 48 3 else p.rmode }
  | n => { p with g := vset p.g (n - 4) v }

/-- Replaces the parts of a record that a memory shows changed: `old` is what a save wrote for a part, `new` what stands there. -/
def changed {α β : Type} [DecidableEq β] (parts : List Nat) (old : α → Nat → β) (new : Nat → β) (set : α → Nat → β → α) (x : α) : α :=
  parts.foldl (fun x i => if new i = old x i then x else set x i (new i)) x

/-- A strand as its record at an offset of the save area shows it. -/
def State.readStrand (s : State) (savea : Word) (o sl : Nat) (p : Strand) : Strand :=
  changed (List.range 24) (fun p i => p.message sl i) (fun i => toWord (s.readArea savea (o + 8 * i) 8)) Strand.setMessage p

/-- The rows of a strand with those of an ATAB word replaced: the first eight, or the rest (07 R189). -/
def Strand.setAtab (p : Strand) (hi : Nat) (v : Nat) : Strand :=
  let rows := (List.range p.rows.length).map fun i =>
    if i / 8 = hi then v / 2 ^ (8 * (i % 8)) % 64 else nth 0 p.rows i
  { p with rows }

/-- A core as the save area shows it (07 R203): each item of Table 07.9 whose layout is given takes what stands there, and the
others are those of the image (log 8). -/
def State.readCore (s : State) (i : Core) : Core :=
  let a := i.savea
  let read (o n : Nat) : Nat := s.readArea a o n
  let masks := changed (locsFrom 1 7) (fun m j => vget 0 m j) (fun j => BitVec.ofNat 16 (read (0x800 + 2 * j) 2)) vset i.masks
  let cbd := changed (List.range 64) (fun t n => (vget CbDesc.blank t (n / 4)).word (n % 4))
    (fun n => toWord (read (0x810 + 8 * n) 8))
    (fun t n v => vset t (n / 4) ((vget CbDesc.blank t (n / 4)).setWord (n % 4) v)) i.cbd
  let atab := changed (List.range 128) (fun (k : Core) n => k.atab n) (fun n => read (0xA10 + 8 * n) 8)
    (fun k n v => { k with slots := k.slots.map fun e => if e.1 = n / 2 then (e.1, e.2.setAtab (n % 2) v) else e }) i
  let cells (n : Nat) (t : AccSet) : AccSet :=
    { t with cells := changed (List.range 16384) (tget 0) (fun j => BitVec.ofNat 32 (read (0x40000 + 65536 * n + 4 * j) 4)) tput t.cells }
  { i with
    masks, cbd
    slots := atab.slots.map fun e => (e.1, s.readStrand a (0x1000 + 256 * e.1) e.1 e.2)
    holders := i.holders.map fun e => (e.1, (e.2.1, s.readStrand a (0x400 + 256 * e.1) e.2.1 e.2.2))
    park := i.park.map fun e => (e.1, { e.2 with strand := s.readStrand a (0x5000 + 256 * e.1) parkSlot e.2.strand })
    vrf := changed (List.range 384) (tget 0) (fun n => BitVec.ofNat 512 (read (0x10000 + 64 * n) 64)) tput i.vrf
    mtx := { i.mtx with acc := changed (List.range 4) (vget AccSet.blank) (fun n => cells n (vget AccSet.blank i.mtx.acc n)) vset i.mtx.acc } }

/-- The scratchpad of a core outside its donation takes the bytes of the save area. -/
def State.readPad (s : State) (c : Nat) (savea : Word) : State :=
  let cells := (List.range (s.coreWin c)).filterMap fun o =>
    (s.areaAt savea (0x80000 + o)).map fun l => (locCore c o, memGet s.mem l)
  s.poke cells

/-- The messages of a spill queue as the save area shows them, from an entry on (16 R368). -/
def State.readSpill (s : State) (savea : Word) : Nat → List SpillItem → List SpillItem
  | _, [] => []
  | n, .mig p :: rest => .mig p :: s.readSpill savea (n + 1) rest
  | n, .msg m :: rest =>
    .msg (changed (List.range 12) ActMsg.word (fun i => toWord (s.readArea savea (0x200000 + 128 * n + 8 * i) 8)) ActMsg.setWord m) ::
      s.readSpill savea (n + 1) rest

/-- References to the core of a context move with its image (14 R328). -/
def State.moveRefs (s : State) (asid src dst : Nat) (i : Core) : State :=
  { s with
    atoms := mapWhere (fun a => a.asid == asid && a.core == src && i.waitsFor a.id) (fun a => { a with core := dst }) s.atoms
    migs := (mapWhere (fun m => m.strand.asid.toNat == asid && m.src == src) (fun m => { m with src := dst }) s.migs).map fun m =>
      if m.strand.asid.toNat == asid && m.dest == src then { m with dest := dst } else m }

/-- Code of a fault from its number (04 Table 04.9). -/
def Code.ofNum (n : Nat) : Code :=
  (([.illegalOpcode, .illegalEncoding, .fetchStraddle, .regAllot, .align, .addr, .orderMix, .xlate, .prot, .world, .scope,
    .handlerWait, .migrateState, .gangAbort, .engine, .memUncorr, .stacklocal, .unreachable, .stale, .replayDiverge, .brk,
    .trap] : List Code).find? fun c => c.num == n).getD .addr

/-- The reply of the pager reaches a sleeping strand (04 R110): READY at its checkpoint, or FAULTED there. -/
def State.pageAnswer (s : State) (c : Nat) (pl : Place) (code : BitVec 8) : State :=
  match s.strandIn c pl with
  | some p =>
    match p.st with
    | .sleeping w =>
      if code = 0 then s.modPlace c pl Strand.again
      else
        s.faultPlace c pl
          { code := Code.ofNum code.toNat, sub := 0x70, deferred := false, word := w.word, pc := p.pc, addr := w.va }
    | _ => s
  | none => s

/-- A reply that waited in the reply area (07 R203). -/
def State.applyReply (s : State) (c : Nat) (r : ReplyItem) : State :=
  match r with
  | .page n code => s.pageAnswer c (placeOf n) code
  | .release _ id res => match s.atom? id with | some a => s.finishAtom a res | none => s
  | .gangAbort n =>
    match s.strand? c n with
    | some p => s.faultAt c n { code := .gangAbort, sub := 0, deferred := false, word := p.word, pc := p.pc, addr := 0 }
    | none => s

/-- The image that a core resumes from: its own record, or the one that was stashed, with the arrivals that the core has taken
since behind those of the image (16 R372). -/
def Core.imageOf (k : Core) (v : Saved) : Core :=
  if v.stashed then { v.image with spillQ := v.image.spillQ ++ k.spillQ, stopAsks := k.stopAsks ++ v.image.stopAsks } else k

/-- Parked strands whose kept wait executes again are restorable (07 R193). -/
def State.resumeParked (s : State) (c : Nat) : State :=
  (s.core c).park.foldl (fun (s : State) e =>
    match e.2.strand.st with
    | .kept _ => s.modPlace c (.park e.1) Strand.again
    | _ => s) s

/-- An operation that comes back with its core: an HGEMV that was at a base die comes to it again (log 39). -/
def EngOp.back (o : EngOp) (core : Nat) : EngOp :=
  if o.cls = 1 && (o.st == .running || o.st == .queued) then { o with core, st := .queued, arrived := none } else { o with core }

/-- RESTORE_COMPLETE (07 R203): every saved item is back from the save area, the hold latches are empty, P is 0, and the waits
whose replies lie in the reply area end. Stops (19 R426) and a pre-emption that were asked for meanwhile are acted on. -/
def execRestoreComplete (core : Nat) (s : State) : Host.Outcome State Fault Refusal :=
  .next (
    let k := s.core core
    if k.phase != .restoring then s
    else
      match s.saved.find? fun v => v.image.savea == k.savea with
      | none => s
      | some v =>
        let i := k.imageOf v
        let s := if v.stashed then s else s.flushPad v
        let s : State := { s with
          saved := s.saved.filter (fun w => w.image.savea != k.savea)
          ops := s.ops ++ v.ops.map fun o => o.back core }
        let s := if v.core = core then s else s.moveRefs v.asid.toNat v.core core i
        let new := k.load { s.readCore i with spillQ := s.readSpill k.savea 0 i.spillQ }
        let s := (s.readPad core k.savea).setCore core
          { new with preemptAsked := false, stopAsks := [], slots := new.slots.map fun e => (e.1, e.2.resume) }
        let s := s.resumeParked core
        let s := i.replies.foldl (fun (s : State) r => s.applyReply core r) s
        let s := i.stopAsks.foldl (fun (s : State) a =>
          match a with
          | .strand sid => s.stopSid core sid
          | .core => s.stopCore core
          | .force => s.forceCore core) s
        if k.preemptAsked then { s with agenda := .preemptionRequest core :: s.agenda } else s)

/-! ### Replies of the pager (04 R110, 11 R292, R307) -/

/-- The strand of a core that sleeps on a request. -/
def Core.sleeper (k : Core) (r : PageReq) : Option Place :=
  ((k.strandsWhere fun p => p.sid == r.sid && p.asid == r.asid &&
    match p.st with | .sleeping w => w.tag == r.tag | _ => false).head?).map (·.1)

/-- An operation whose page is there goes on: an HGEMV comes to its base die again when that has room (11 R300; log 39), and a remote operation that has
not been sent is considered again (11 R292). -/
def EngOp.goOn (o : EngOp) : EngOp :=
  if o.cls = 1 then { o with st := .queued, arrived := none }
  else { o with st := if o.cls = 3 && o.arrived.isNone then .queued else .running }

/-- A saved image whose operation fails: its fault is deferred at its owner, and a fill sets ERR (11 R292, R294). -/
def Saved.failOp (v : Saved) (o : EngOp) (va : Word) : Saved :=
  let bad (o : EngOp) : EngOp := { o with st := .ended, failed := true, status := if o.cls = 3 then 10 else o.status }
  let k := { v.image with deferred := v.image.deferred ++ [{ own := o.own, f := o.report .engine 0x6A va }] }
  let image := match o.body with
    | .fill cb .. => { k with cbd := vset k.cbd cb.toNat { k.cb cb.toNat with err := true } }
    | _ => k
  { v with ops := mapWhere (fun x => x.id == o.id) bad v.ops, image }

/-- An answer for an operation of a saved image: it goes on or fails; a fault that nobody is there to take ends the context. -/
def State.savedAnswer (s : State) (v : Saved) (o : EngOp) (va : Word) (code : BitVec 8) : State :=
  let set (f : Saved → Saved) : State := { s with saved := mapWhere (fun w => w == v) f s.saved }
  if code = 0 then set fun v => { v with ops := mapWhere (fun x => x.id == o.id) EngOp.goOn v.ops }
  else if v.image.allStrands.any fun p => p.own == o.own then set fun v => v.failOp o va
  else s.endContext v.asid.toNat Code.engine.num o.owner

/-- A reply reaches an engine operation that is suspended (11 R292). -/
def State.engineAnswer (s : State) (id : Nat) (va : Word) (code : BitVec 8) : State :=
  match s.ops.find? fun o => o.id == id && o.st == .pageWait with
  | some o =>
    if code = 0 then s.modOp id EngOp.goOn
    else s.failOp o .engine 0x6A va
  | none =>
    match s.saved.findSome? fun v => (v.ops.find? fun o => o.id == id && o.st == .pageWait).map fun o => (v, o) with
    | some (v, o) => s.savedAnswer v o va code
    | none => s

/-- PAGE_REPLY (04 R110): a reply of the pager reaches the strand or the operation that waits for it; that of a core which
is not in RUN goes to its reply area (07 R202). -/
def execPageReply (site tag : Nat) (s : State) : Host.Outcome State Fault Refusal :=
  .next (
    match s.pageReplies.find? fun r => r.site == site && r.req.tag == tag with
    | none => s
    | some r =>
      let s := { s with pageReplies := s.pageReplies.erase r }
      match r.req.op with
      | some id => s.engineAnswer id r.req.va r.code
      | none =>
        match s.cores.findSome? fun e => (e.2.sleeper r.req).map fun pl => (e.1, pl) with
        | some (c, pl) =>
          if (s.core c).phase == .run then s.pageAnswer c pl r.code
          else s.putReply c (.page pl.num r.code)
        | none =>
          let place (v : Saved) : Option Place := if v.stashed then v.image.sleeper r.req else none
          s.imageReply (fun v => (place v).isSome) fun v => .page (((place v).map Place.num).getD 0) r.code)

end Sys2Proof.Machine
end

