-- ==== Sys2Proof/Machine/Bringup.lean ====
section
/-! DEFINITION. Bring-up of sites, partitions and logical numbers, route tables, failures and resets, clock regions, and
the waking of clusters (11 R309, R310; 14 R325 to R338; 18 R416, R418). -/

namespace Sys2Proof.Machine

/-! ### Paths (14 R331) -/

/-- Gusset routes of a number of legs: the best to each site, as hops and legs coded 32 × direction + length. -/
abbrev Gusset := Tbl (Nat × List Nat)

/-- Order of two lists of legs, leg by leg (14 R331). -/
def legsBefore : List Nat → List Nat → Bool
  | a :: l, b :: m => decide (a < b) || (a == b && legsBefore l m)
  | [], _ :: _ => true
  | _, [] => false

/-- Enters a route if it is better than the one listed for its end. -/
def Gusset.better (t : Gusset) (n : Nat) (r : Nat × List Nat) : Gusset :=
  match tfind t n with
  | some o => if r.1 < o.1 || (r.1 == o.1 && legsBefore r.2 o.2) then tput t n r else t
  | none => tput t n r

/-- Routes with one leg more. -/
def State.longer (s : State) (up : Bool) (t : Gusset) : Gusset :=
  t.foldl (fun r e =>
    (List.range 4).foldl (fun r dir =>
      (List.range 17).foldl (fun r k =>
        if s.straight up 0 dir (k + 1) e.1 then
          Gusset.better r (runEnd dir (k + 1) e.1) (e.2.1 + (k + 1), e.2.2 ++ [32 * dir + (k + 1)])
        else r) r) r) []

/-- The gusset routes from a site, by number of legs, one to five. -/
def State.gussets (s : State) (up : Bool) (src : Nat) : List Gusset :=
  let one := s.longer up [(src, (0, []))]
  let two := s.longer up one
  let three := s.longer up two
  let four := s.longer up three
  [one, two, three, four, s.longer up four]

/-- The gusset route to a site: the fewest hops, then the fewest legs, then the first in order. -/
def bestGusset (l : List Gusset) (dst : Nat) : Option (Nat × List Nat) :=
  l.foldl (fun r t =>
    match r, tfind t dst with
    | some a, some b => if b.1 < a.1 then some b else some a
    | none, x => x
    | x, none => x) none

/-- A way between two sites: code of MODE, hops and legs; none for no route. -/
def State.way (s : State) (up : Bool) (src dst : Nat) : Option (Nat × Nat × List Nat) :=
  if !s.passable up dst && src != dst then none
  else if s.meshOk up 0 src dst then some (0, gridHops src dst, [])
  else if s.meshOk up 1 src dst then some (1, gridHops src dst, [])
  else (bestGusset (s.gussets up src) dst).map fun g => (2, g.1, g.2)

/-- The sites that a site's table may name: its partition's chiplets, the links and the Spine, by index. -/
def State.routeTargets (s : State) (n : Nat) : List (Nat × Nat) :=
  let chips := (s.partOf n).chips
  (List.range chips.length).zip chips ++ (locsFrom 304 15).zip linkSites ++ [(319, spineSite)]

/-- A ROUTE entry (14 Table 14.3). -/
def State.routeEntry (s : State) (up : Bool) (src dst : Nat) : Word :=
  let inc := (s.site dst).inc.toNat * 2 ^ 54
  match s.way up src dst with
  | none => toWord (3 * 2 ^ 62 + inc)
  | some (mode, hops, legs) =>
    let relay :=
      match legs with
      | [] => 0
      | l :: _ => Nat.min (s.routeIx src (runEnd (l / 32) (l % 32) src)) 0x1FF
    let relay := if legs.isEmpty || relay != 320 then relay else 0x1FF
    let bits := (legs.zip (List.range legs.length)).foldl (fun b l => b + l.1 * 2 ^ (7 * l.2)) 0
    toWord (mode * 2 ^ 62 + inc + hops * 2 ^ 48 + legs.length * 2 ^ 45 + relay * 2 ^ 36 + bits)

/-- A chiplet's table as firmware writes it. -/
def State.routeTable (s : State) (up : Bool) (n : Nat) : Tbl Word :=
  (s.routeTargets n).map fun t => (t.1, s.routeEntry up n t.2)

/-! ### Islands (14 R333) -/

/-- Sites that remain candidates for service. -/
def State.remaining (s : State) (up : Bool) : List Nat := (List.range 324).filter (s.passable up)

/-- Whether a site can hold strands. -/
def State.compute (s : State) (n : Nat) : Bool := (s.site n).kind == .mClass || (s.site n).kind == .bClass

/-- Whether two sites have routes to each other. -/
def State.paired (s : State) (up : Bool) (a b : Nat) : Bool :=
  (s.way up a b).isSome && (s.way up b a).isSome

/-- Compute sites that a site has routes to and from. -/
def State.partners (s : State) (up : Bool) (n : Nat) : Nat :=
  ((s.remaining up).filter fun m => s.compute m && m != n && s.paired up n m).length

/-- Whether a site is an island: no route to the Spine or from it, or the fewer partners of a pair with no route, the
higher number among equals (log 19). -/
def State.island (s : State) (up : Bool) (n : Nat) : Bool :=
  !s.paired up n spineSite ||
    (s.compute n && (s.remaining up).any fun m =>
      s.compute m && m != n && !s.paired up n m &&
        (let (a, b) := (s.partners up n, s.partners up m); decide (a < b) || (a == b && decide (m < n))))

/-! ### Ends of contexts by site -/

/-- Every context of a partition ends with UNREACHABLE. -/
def State.endPartition (s : State) (part : Nat) : State :=
  (s.ctxs.filter fun e => e.2.part == part).foldl (fun (s : State) e => s.endContext e.1 Code.unreachable.num 0) s

/-- Whether a context is assigned to a core of a site. -/
def State.siteBusy (s : State) (n : Nat) : Bool := (locsFrom (16 * n) 16).any fun c => (s.core c).ctxv

/-! ### Bring-up (14 R325) -/

/-- Whether the boot ROM lets an image run (18 R418). -/
def Spine.verifies (z : Spine) (image : FwImage) : Bool := image.signed && decide (z.minVersion ≤ image.version)

/-- POWER_GOOD (18 R418, 14 R325): the boot ROM verifies the firmware image that the module carries, the given one at the first
power good; bring-up starts at the Spine, or the Spine stays in recovery. -/
def execPowerGood (image : FwImage) (s : State) : Host.Outcome State Fault Refusal :=
  .next (
    let image := s.spine.fw.getD image
    if s.spine.powered then s
    else if s.spine.verifies image then
      (s.modSpine fun z => { z with powered := true, recovery := false, fw := some image }).modSite spineSite fun t =>
        { t with st := .clocked }
    else s.modSpine fun z => { z with recovery := true, fw := some image })

/-- FIRMWARE_UPDATE (18 R418): the host supplies an image again; one that the boot ROM would refuse changes nothing. In
recovery, bring-up then starts. -/
def execFirmwareUpdate (image : FwImage) (s : State) : Host.Outcome State Fault Refusal :=
  .next (
    if s.spine.verifies image then
      let s := s.modSpine fun z => { z with fw := some image }
      if s.spine.recovery then
        (s.modSpine fun z => { z with powered := true, recovery := false }).modSite spineSite fun t => { t with st := .clocked }
      else s
    else s)

/-- Whether a site has its clock: it forwards it to its neighbours. -/
def SiteState.clocked? : SiteState → Bool
  | .clocked | .probed | .trained | .routed | .live => true
  | _ => false

/-- CLOCK_FORWARDING (14 R325): an OFF site takes the clock of a neighbour that has one. -/
def execClockForwarding (site : Nat) (s : State) : Host.Outcome State Fault Refusal :=
  .next (
    let t := s.site site
    let fed := (List.range 4).any fun d => match neighbour site d with | some m => (s.site m).st.clocked? | none => false
    if t.st == .off && t.kind != .empty && fed then s.modSite site fun t => { t with st := .clocked } else s)

/-- Clock region of a site (14 R335). -/
def siteRegion (n : Nat) : Nat := 6 * (n / 18 / 3) + n % 18 / 3

/-- Frequency of a grade in MHz (00 R5). -/
def gradeMhz (g : BitVec 2) : BitVec 16 :=
  match g.toNat with
  | 0 => 1250
  | 1 => 1150
  | _ => 1050

/-- Cores that a class has. -/
def coreMask (k : SiteKind) : BitVec 16 := BitVec.ofNat 16 (2 ^ (4 * cluCount k) - 1)

/-- Whether a region holds a chiplet of a partition. -/
def State.regionUsed (s : State) (r : Nat) : Bool :=
  (List.range 324).any fun n => siteRegion n == r && (s.site n).lchip != 0xFFFF

/-- SELF_TEST_DONE (14 R325): a site reports its live cores and the grade of its region; an unused region runs at its own
grade. -/
def execSelfTestDone (site : Nat) (grade : BitVec 2) (cores : BitVec 16) (s : State) : Host.Outcome State Fault Refusal :=
  .next (
    let t := s.site site
    if t.st != .clocked then s
    else
      let r := siteRegion site
      let s := s.modSite site fun t => { t with st := .probed, cores := cores &&& coreMask t.kind }
      let x : Region := { s.region r with grade }
      let x : Region := if s.regionUsed r then x else { x with running := grade, mhz := gradeMhz grade }
      { s with regions := tput s.regions r x })

/-- EDGE_TRAINING_DONE (14 R325): the edges that failed to train are marked. -/
def execEdgeTrainingDone (site : Nat) (failed : BitVec 8) (s : State) : Host.Outcome State Fault Refusal :=
  .next (
    if (s.site site).st != .probed then s
    else s.modSite site fun t => { t with st := .trained, failedEdges := failed })

/-- BRINGUP_TIMEOUT (14 Table 14.2): no lock within 100 µs, or no passed self-test within 500 µs. -/
def execBringupTimeout (site : Nat) (s : State) : Host.Outcome State Fault Refusal :=
  .next (
    let t := s.site site
    if t.kind != .empty && (t.st == .off || t.st == .clocked) then s.modSite site fun t => { t with st := .failed } else s)

/-- ROUTE_WRITE (14 R331, R333, R334): firmware writes a chiplet's route table. A TRAINED site becomes ROUTED; an island
becomes ISOLATED, and a LIVE one ends the contexts of its partition. -/
def execRouteWrite (site : Nat) (s : State) : Host.Outcome State Fault Refusal :=
  .next (
    let t := s.site site
    let up := t.st != .live
    match t.st with
    | .trained | .live =>
      if s.island up site then
        let s := if up || t.lchip == 0xFFFF then s else s.endPartition t.part.toNat
        s.modSite site fun t => { t with st := .isolated }
      else
        let s := s.modChip site fun h => { h with route := s.routeTable up site }
        if up then s.modSite site fun t => { t with st := .routed } else s
    | _ => s)

/-- SITE_ENABLE (14 Table 14.2): P and the cycle counts are 0 when a site reaches LIVE (07 R180, 05 R140), and the Spine holds its
incarnation (11 R309). -/
def execSiteEnable (site : Nat) (s : State) : Host.Outcome State Fault Refusal :=
  .next (
    if (s.site site).st != .routed then s
    else
      let s := s.modSite site fun t => { t with st := .live }
      let s := s.modSpine fun z => { z with incs := tput z.incs site (s.site site).inc }
      (s.siteCores site).foldl (fun (s : State) c => s.modCore c fun k => { k with ptr := 0, cc := 0 }) s)

/-! ### Partitions (14 R326, R327, R335, R336) -/

/-- The regions that hold chiplets of a partition. -/
def State.regionsOf (s : State) (p : Nat) : List Nat := ((s.partn p).chips.map siteRegion).dedup

/-- Regions that some partition joins to a set of regions. -/
def State.joinStep (s : State) (l : List Nat) : List Nat :=
  (s.parts.foldl (fun l e => if (s.regionsOf e.1).any l.contains then l ++ s.regionsOf e.1 else l) l).dedup

/-- The maximal set of joined regions of a region. -/
def State.joined? (s : State) (r : Nat) : List Nat := (List.range 36).foldl (fun l _ => s.joinStep l) [r]

/-- Whether a context is assigned to a chiplet of some regions. -/
def State.regionsBusy (s : State) (l : List Nat) : Bool :=
  (List.range 324).any fun n => l.contains (siteRegion n) && s.siteBusy n

/-- The lowest grade of some regions: the greatest code. -/
def State.lowestGrade (s : State) (l : List Nat) : BitVec 2 :=
  l.foldl (fun g r => if g < (s.region r).grade then (s.region r).grade else g) 0

/-- A joined set runs at a frequency (14 R335). -/
def State.setSpeed (s : State) (l : List Nat) (mhz : BitVec 16) : State :=
  let g := s.lowestGrade l
  l.foldl (fun (s : State) r => { s with regions := tput s.regions r { s.region r with running := g, mhz } }) s

/-- The sites of a partition lose their numbers. -/
def State.dissolve (s : State) (part : Nat) : State :=
  let p := s.partn part
  let sites := (p.chips ++ p.cores.map coreSite).filter fun n => (s.site n).part.toNat == part
  let s := p.cores.foldl (fun (s : State) c => s.modCore c fun k => { k with lcore := 0xFFFF, cfg := 0 }) s
  let s := sites.foldl (fun (s : State) n =>
    (s.modSite n fun t => { t with lchip := 0xFFFF, part := 0x3F }).modChip n fun h => { h with pagerCore := 0xFFFF }) s
  { s with parts := tdel s.parts part }

/-- A chiplet takes its logical number, its cores theirs, and its highest core becomes the pager core (14 R327). -/
def State.numberChip (s : State) (part l first n : Nat) : State :=
  let cores := s.siteCores n
  let s := s.modSite n fun t => { t with lchip := BitVec.ofNat 16 l, part := BitVec.ofNat 6 part }
  let s := (cores.zip (List.range cores.length)).foldl (fun (s : State) c =>
    s.modCore c.1 fun k => { k with lcore := BitVec.ofNat 16 (first + c.2) }) s
  if cores.isEmpty then s else s.modChip n fun h => { h with pagerCore := BitVec.ofNat 16 (first + cores.length - 1) }

/-- Whether a joined set runs at the frequency of its lowest grade. -/
def State.atSpeed (s : State) (l : List Nat) : Bool := l.all fun q => (s.region q).mhz == gradeMhz (s.lowestGrade l)

/-- Whether no set of regions in which a context is assigned would need another frequency (14 R335). -/
def State.speedsFit (s : State) : Bool :=
  (List.range 36).all fun r => !s.regionsBusy (s.joined? r) || s.atSpeed (s.joined? r)

/-- Every region runs at the lowest grade of its joined set, one that holds no partition chiplet at its own (14 R335, 00 R5), but
for a set in which a context is assigned: its frequency changes when that is over. -/
def State.setSpeeds (s : State) : State :=
  (List.range 36).foldl (fun (s : State) r =>
    let l := s.joined? r
    if s.regionsBusy l then s else s.setSpeed l (gradeMhz (s.lowestGrade l))) s

/-- PARTITION_CREATE (14 R326, R327, R335, R336, R338): the sites named take logical numbers in ascending site number, and the
donating cores their ranks; the pool starts zeroed. Creating a partition again rebuilds it: its contexts end first, and the
writes that they left on their way land before the pool is zeroed. One that would change the frequency of regions in which
another context is assigned is not created (log 41). -/
def execPartitionCreate (part : Nat) (sites : List Nat) (d : BitVec 2) (donors : List Nat) (s : State) :
    Host.Outcome State Fault Refusal :=
  .next (
    let chips := (List.range 324).filter sites.contains
    let free (n : Nat) : Bool := (s.site n).lchip == 0xFFFF || (s.site n).part.toNat == part
    let ok := decide (part < 64) && chips.all (fun n => (s.site n).st == .live && s.compute n && free n) &&
      chips.any fun n => (s.site n).kind == .bClass
    if !ok then s
    else
      let u := s
      let here (n : Nat) : Bool := chips.contains n || (s.partn part).chips.contains n
      let s := (s.endPartition part).landWrites fun w => here (coreSite w.core) || w.cells.any fun c => here (locSite c.1)
      let s := s.dissolve part
      let cores := chips.flatMap s.siteCores
      let ranks := if d = 0 then [] else cores.filter donors.contains
      let p : Partition := { chips, cores, donors := ranks, d, repset := 0 }
      let s := (chips.zip (List.range chips.length)).foldl (fun (s : State) c =>
        s.numberChip part c.2 ((chips.take c.2).flatMap s.siteCores).length c.1) s
      let s := ranks.foldl (fun (s : State) c =>
        let s := s.modCore c fun k => { k with cfg := d.setWidth 64 }
        { s with mem := memClear s.mem (locCore c (coreBytes - p.donated)) p.donated }) s
      let t : State := { s with parts := tput s.parts part p }
      if t.speedsFit then t.setSpeeds else u)

/-- REGION_FREQUENCY_CHANGE (14 R335, 00 R5): only while no context is assigned to any chiplet of the joined set, whose running
frequency firmware changes; the set runs at the frequency of its lowest grade and at no other. -/
def execRegionFrequencyChange (region : Nat) (mhz : BitVec 16) (s : State) : Host.Outcome State Fault Refusal :=
  .next (
    let l := s.joined? region
    if 36 ≤ region || s.regionsBusy l || mhz != gradeMhz (s.lowestGrade l) then s else s.setSpeed l mhz)

/-- LOGICAL_CORE_REBIND (14 R328; 07 R203): while its context is saved, and with no donation, a logical core moves to a
spare physical core of the same class, whose accumulators and counters are zero (19 R422, R436). The spare's chiplet then serves the partition (log 19). -/
def execLogicalCoreRebind (core spare : Nat) (s : State) : Host.Outcome State Fault Refusal :=
  .next (
    let k := s.core core
    let t := s.core spare
    let same := (s.site (coreSite core)).kind == (s.site (coreSite spare)).kind
    if k.phase != .saved || !(s.saved.any fun v => v.core == core && v.image.savea == k.savea) || wfld k.cfg 0 2 != 0 ||
        !s.liveCore spare || t.lcore != 0xFFFF || t.ctxv || k.lcore == 0xFFFF || !same then s
    else
      let part := (s.site (coreSite core)).part
      let s := s.stash core
      let s := s.setCore spare { Core.blank with lcore := k.lcore, cfg := k.cfg, savea := k.savea, phase := .saved, saves := t.saves,
                                                   cc := t.cc, ptr := t.ptr, fdis := t.fdis, wp := t.wp, dlyCfg := t.dlyCfg,
                                                   dlyKey := t.dlyKey, dbg := t.dbg }
      let s := s.modCore core fun k => { k.unassign with cfg := 0, lcore := 0xFFFF }
      let s := s.modSite (coreSite spare) fun x => if x.part = 0x3F then { x with part } else x
      let p := s.partn part.toNat
      { s with parts := tput s.parts part.toNat { p with cores := p.cores.map fun c => if c = core then spare else c } })

/-! ### Failures and resets (14 R334; 11 R309, R310) -/

/-- Whether an engine operation that runs addresses a site in its next span, or a remote operation its link chiplet. -/
def State.opAt (s : State) (o : EngOp) (n : Nat) : Bool :=
  o.st == .running &&
    (((o.qp?.map fun qp => nth 0 linkSites (qpLink qp) == n).getD false) ||
      (s.opAddrs o).any fun a => (s.engByte o (s.engPages o [a]) false false a).locs.any fun l => locSite l == n)

/-- A packet in flight: its context, source, destination, route entry, and the SID of its strand. -/
structure Flight where
  asid : Nat
  src : Nat
  dst : Nat
  route : Word
  sid : Word
  deriving DecidableEq, Repr

/-- Site of a location as a core sees it: a constant bank is at the core's own. -/
def siteFor (c l : Nat) : Nat := if locTag l = 4 then coreSite c else locSite l

/-- The packets of a load: the requests of the parts that are not performed, and the responses of those that are. -/
def State.loadFlights (s : State) (l : LoadOp) : List Flight :=
  l.parts.map fun u =>
    let n := siteFor l.core ((u.cells.headD (0, none)).1)
    let asid := (s.core l.core).asid
    if u.done then { asid, src := n, dst := coreSite l.core, route := s.route n (coreSite l.core), sid := l.sid }
    else { asid, src := coreSite l.core, dst := n, route := u.route, sid := l.sid }

/-- The packet of an atomic or a rendezvous step, on its way to its home or the PAS, or back. -/
def State.atomFlights (s : State) (a : AtomOp) : List Flight :=
  let c := coreSite a.core
  let n := siteFor a.core a.loc
  match a.stage with
  | .toHome => [{ asid := a.asid, src := c, dst := n, route := a.route, sid := a.sid }]
  | .toPas => [{ asid := a.asid, src := c, dst := spineSite, route := a.route, sid := a.sid }]
  | .reply _ => if a.pas then [] else [{ asid := a.asid, src := n, dst := c, route := s.route n c, sid := a.sid }]
  | _ => []

/-- The packet of a send, or of its status. -/
def State.sendFlights (s : State) (m : SendOp) : List Flight :=
  let (c, n) := (coreSite m.core, coreSite m.dest)
  match m.stage with
  | .toDest => [{ asid := m.msg.asid.toNat, src := c, dst := n, route := m.route, sid := m.msg.sid }]
  | .status _ => [{ asid := m.msg.asid.toNat, src := n, dst := c, route := s.route n c, sid := m.msg.sid }]
  | _ => []

/-- The packets of a write: of a replicated one, to every replica, by the entries that its source holds now (15 R359). A write of
an agent at no core has no context. -/
def State.writeFlights (s : State) (w : WriteUnit) : List Flight :=
  let asid := (s.core w.core).asid
  let src := coreSite w.core
  if w.core = 0 then []
  else if w.repl then w.replSites.dedup.map fun dst => { asid, src, dst, route := s.route src dst, sid := w.sid }
  else [{ asid, src, dst := siteFor w.core ((w.cells.headD (0, 0)).1), route := w.route, sid := w.sid }]

/-- The packets in flight of the operations with some numbers. -/
def State.flightsWhere (s : State) (p : Nat → Bool) : List Flight :=
  ((s.loads.filter fun l => p l.id).flatMap s.loadFlights) ++ ((s.writes.filter fun w => p w.id).flatMap s.writeFlights) ++
  ((s.atoms.filter fun a => p a.id).flatMap s.atomFlights) ++
  ((s.sends.filter fun m => p m.id && m.packet.isNone).flatMap s.sendFlights) ++
  (s.migs.filter fun m => p m.id && m.stage == .toDest).map fun m =>
    { asid := m.strand.asid.toNat, src := coreSite m.src, dst := coreSite m.dest, route := m.route, sid := m.strand.sid }

/-- The packets of an operation in flight. -/
def State.flights (s : State) (id : Nat) : List Flight := s.flightsWhere fun n => n == id

/-- Whether a packet of a context was inside a site that it crosses: no rule says which were, so that `lost` does (log 19). -/
def State.transitAt (s : State) (asid n : Nat) (lost : Bool) : Bool :=
  lost && (s.flightsWhere fun _ => true).any fun f => f.asid == asid && f.src != f.dst && crosses f.src f.dst f.route n

/-- Whether some operation of a context is at a site: its core stands there, or what it addresses does. -/
def State.contextAt (s : State) (asid n : Nat) : Bool :=
  let own (c : Nat) : Bool := (s.core c).ctxv && (s.core c).asid == asid
  ((locsFrom (16 * n) 16).any own) ||
    (s.loads.any fun l => own l.core && l.parts.any fun u => u.cells.any fun c => locSite c.1 == n) ||
    (s.writes.any fun w => own w.core && (w.cells.any (fun c => locSite c.1 == n) || (w.repl && w.replSites.contains n))) ||
    (s.atoms.any fun a => a.asid == asid && locSite a.loc == n) ||
    (s.sends.any fun m => m.msg.asid.toNat == asid && coreSite m.dest == n) ||
    (s.migs.any fun m => m.strand.asid.toNat == asid && coreSite m.dest == n) ||
    s.ops.any fun o => o.asid == asid && s.opAt o n

/-- Whether a site holds a donating core of a partition. -/
def State.donates (s : State) (part n : Nat) : Bool := (s.partn part).donors.any fun c => coreSite c == n

/-- SITE_FAILURE (14 R334, R338): the packets inside a LIVE site that fails are lost, and the contexts that owned them end;
so does every context whose pool it held. -/
def execSiteFailure (site : Nat) (s : State) : Host.Outcome State Fault Refusal :=
  .next (
    if (s.site site).st != .live then s
    else
      let lost := Config.choice s.fresh % 2 == 1
      let hit := s.ctxs.filter fun e => s.contextAt e.1 site || s.transitAt e.1 site lost || s.donates e.2.part site
      let s := s.tick
      let s := hit.foldl (fun (s : State) e => s.endContext e.1 Code.unreachable.num 0) s
      { s.modSite site (fun t => { t with st := .failed }) with
        writes := s.writes.filter fun w => !(w.cells.any fun c => locSite c.1 == site) })

/-- The requests of an operation that go by a route entry leave again by another, behind what was sent before (16 R378). -/
def State.reroute (s : State) (id : Nat) (f : Flight) (route : Word) : State :=
  let sent := s.fresh
  let part (c : Nat) (u : RUnit) : RUnit :=
    if !u.done && u.route == f.route && siteFor c ((u.cells.headD (0, none)).1) == f.dst then { u with route, sent } else u
  State.tick { s with
    loads := mapWhere (fun l => l.id == id) (fun l => { l with parts := l.parts.map (part l.core) }) s.loads
    writes := mapWhere (fun w => w.id == id) (fun w => { w with route, sent }) s.writes
    atoms := mapWhere (fun a => a.id == id && (a.stage == .toHome || a.stage == .toPas)) (fun a => { a with route, sent }) s.atoms
    sends := mapWhere (fun m => m.id == id && m.stage == .toDest) (fun m => { m with route, sent }) s.sends
    migs := mapWhere (fun m => m.id == id) (fun m => { m with route, sent }) s.migs }

/-- ROUTED_PACKET_RETURN (14 R334): a packet whose path meets a hole is returned, and its source sends it again by the entry that
it now holds; with no route, its context ends. -/
def execRoutedPacketReturn (id : Nat) (s : State) : Host.Outcome State Fault Refusal :=
  .next (
    match (s.flights id).find? fun f => !s.pathClear f.src f.dst f.route with
    | none => s
    | some f =>
      if s.routable f.src f.dst then s.reroute id f (s.route f.src f.dst) else s.endContext f.asid Code.unreachable.num f.sid)

/-- A core after a reset of its chiplet: its number, donation and save area are firmware's. -/
def Core.afterReset (k : Core) : Core :=
  { Core.blank with lcore := k.lcore, cfg := toWord (wfld k.cfg 0 2), savea := k.savea }

/-- CHIPLET_RESET (11 R309): once no context is assigned to it, a chiplet takes a new incarnation and is brought up
again. -/
def execChipletReset (site : Nat) (s : State) : Host.Outcome State Fault Refusal :=
  .next (
    let t := s.site site
    if t.st != .live || s.siteBusy site || !s.compute site then s
    else
      let here (n : Nat) : Bool := n / 16 == site
      let h := s.chip site
      { s.modSite site (fun t => { t with st := .clocked, inc := t.inc + 1 }) with
        cores := s.cores.map fun e => if here e.1 then (e.1, e.2.afterReset) else e
        clusters := s.clusters.map fun e => if e.1 / 4 == site then (e.1, Cluster.blank) else e
        chiplets := tput s.chiplets site { Chiplet.blank with pagerCore := h.pagerCore, sec := h.sec } })

/-- The strand of a slot or park entry of a core with a given SID, that waits for an operation. -/
def State.staleWaiter (s : State) (c id : Nat) : Option (Place × Strand) :=
  s.waiter c fun w => match w with | .reply n | .join n _ | .table n => n == id | _ => false

/-- STALE at the instruction of a strand that waits (11 R310). A strand that has run on after a load is set back to it; its
region commits, as at every fault (04 R103; log 19). -/
def State.staleFault (s : State) (c : Nat) (pl : Place) (pc : Word) (w : WordId) : State :=
  let s := match pl with | .slot n => s.commitRegion c n | .park _ => s
  let s := s.modPlace c pl fun p => { p with pc }
  s.faultPlace c pl { code := .stale, sub := 0, deferred := false, word := w, pc, addr := 0 }

/-- A stale response is dropped and counted at the receiver. -/
def State.countStale (s : State) (n : Nat) : State := s.modChip n fun h => { h with stale := h.stale + 1 }

/-- What a check of incarnations says of a request: not stale; refused by its destination; performed, and its response
dropped at the receiver (11 R310). -/
inductive Stale where
  | no | refused | dropped
  deriving DecidableEq, Repr

/-- A load: refused in a part that is not performed, dropped in one whose bytes are on their way. -/
def State.staleLoad (s : State) (l : LoadOp) : Stale :=
  let loc (u : RUnit) : Nat := (u.cells.headD (0, none)).1
  if l.parts.any fun u => !u.done && s.staleReq l.core (loc u) u.route then .refused
  else if l.parts.any fun u => u.done && s.staleRsp l.core (loc u) u.route then .dropped
  else .no

/-- Whether the request of the PAS for an operation carries another incarnation than its home has. -/
def State.staleLock (s : State) (a : AtomOp) : Bool := locTag a.loc != 4 && s.staleAt spineSite (locSite a.loc) a.route

/-- An atomic or a rendezvous step: refused before its home performs it or while it waits there, by the PAS, or at its lock;
dropped on its way back. A result that the PAS drops is counted nowhere: the Spine has no STALECNT (11 Table 11.8). -/
def State.staleAtom (s : State) (a : AtomOp) : Stale :=
  match a.stage with
  | .toHome => if s.staleReq a.core a.loc a.route then .refused else .no
  | .waiting | .heldArrival =>
    if a.pas then if s.staleLock a then .refused else .no
    else if s.staleReq a.core a.loc a.route then .refused
    else .no
  | .toPas => if s.staleAt (coreSite a.core) spineSite a.route then .refused else .no
  | .locking _ _ => if s.staleLock a then .refused else .no
  | .pasResult _ _ | .pasFail _ => if s.resultLost a then .refused else .no
  | .reply _ => if s.replyLost a then .dropped else .no
  | _ => .no

/-- A send: refused, or its status dropped. -/
def State.staleSend (s : State) (m : SendOp) : Stale :=
  match m.stage with
  | .stale => .refused
  | .toDest => if s.staleAt (coreSite m.core) (coreSite m.dest) m.route then .refused else .no
  | .status _ => if s.statusLost m then .dropped else .no
  | .returned => .no

/-- The strand in WAITCHG, by the number of its wait, whose location lies on a chiplet that has been reset since. -/
def State.staleWatch (s : State) (id : Nat) : Option (Nat × Place × Strand) :=
  s.cores.findSome? fun e =>
    ((e.2.strandsWhere fun p => p.waitNo == id &&
      match p.wait? with | some (.change l _ _ _ _ _ r) => s.staleReq e.1 l r | _ => false
      ).head?).map fun x => (e.1, x)

/-- STALECNT counts a response that is dropped. -/
def State.countDropped (s : State) (n : Nat) (v : Stale) : State := if v == .dropped then s.countStale n else s

/-- A strand without the loads of its own from a program-order number on: they deliver nothing. -/
def Strand.dropLoads (p : Strand) (gone : List Nat) : Strand :=
  let keep (t : Tbl Nat) : Tbl Nat := t.filter fun e => !gone.contains e.2
  { p with board := keep p.board, vboard := keep p.vboard,
           ckpt := { p.ckpt with board := keep p.ckpt.board, vboard := keep p.ckpt.vboard } }

/-- Whether a strand takes STALE for a load of its own now: at its boundary, or in JTAB. -/
def Strand.takesStale (p : Strand) : Bool :=
  match p.st with
  | .ready | .waiting (.table _) => true
  | _ => false

/-- STALE for a load (11 R310): its strand faults at it, and what it loaded after it is dropped. A strand that cannot take the
fault now keeps the load until it can; a READY one takes it when it is chosen for issue (04 Table 04.7; log 19). -/
def State.staleOfLoad (s : State) (l : LoadOp) : State :=
  match s.loadPlace l with
  | some (pl, p) =>
    if p.takesStale then
      let s := (s.countDropped (coreSite l.core) (s.staleLoad l))
      let gone := s.loads.filter fun m => m.own == l.own && decide (l.seq ≤ m.seq)
      let s := (s.staleFault l.core pl l.pc l.word).modPlace l.core pl fun p => p.dropLoads (gone.map (·.id))
      { s with loads := s.loads.filter fun m => !(m.own == l.own && decide (l.seq ≤ m.seq)) }
    else s
  | none => { s.countDropped (coreSite l.core) (s.staleLoad l) with loads := s.loads.filter fun m => m.id != l.id }

/-- STALE for an operation that a strand waits for, which is no longer in flight. -/
def State.staleOfWait (s : State) (c id : Nat) (pc : Word) (w : WordId) : State :=
  match s.staleWaiter c id with
  | some (pl, _) => s.staleFault c pl pc w
  | none => s

/-- STALE_RESPONSE (11 R310): what is under way to or from a chiplet that has been reset since is answered STALE: a strand
faults at the instruction of its load, atomic, rendezvous, WAITCHG or send. -/
def execStaleResponse (id : Nat) (s : State) : Host.Outcome State Fault Refusal :=
  .next (
    match s.loads.find? fun l => l.id == id with
    | some l => if s.staleLoad l == .no then s else s.staleOfLoad l
    | none =>
      match s.atom? id with
      | some a =>
        if s.staleAtom a == .no then s
        else
          { s.countDropped (coreSite a.core) (s.staleAtom a) with atoms := s.atoms.filter fun b => b.id != id
            }.staleOfWait a.core id a.pc a.word
      | none =>
        match s.sends.find? fun m => m.id == id && m.packet.isNone with
        | some m =>
          if s.staleSend m == .no then s
          else
            { s.countDropped (coreSite m.core) (s.staleSend m) with sends := s.sends.filter fun b => b.id != id
              }.staleOfWait m.core id m.pc m.word
        | none =>
          match s.staleWatch id with
          | some (c, pl, p) => s.staleFault c pl p.pc p.word
          | none => s)

/-- MODULE_RESET (14 R325): every site is OFF. Memory keeps its content; the fused minimum version and the carried firmware image
stay (18 R418; log 6). -/
def execModuleReset (s : State) : Host.Outcome State Fault Refusal :=
  .next { State.reset with
    mem := s.mem, uncorr := s.uncorr, events := s.events, fresh := s.fresh,
    spine := { Spine.reset with minVersion := s.spine.minVersion, fw := s.spine.fw, time := s.spine.time } }

/-! ### Waking clusters (18 R416) -/

/-- INRUSH_GRANT (18 R416): the oldest request takes a token. -/
def execInrushGrant (s : State) : Host.Outcome State Fault Refusal :=
  .next (
    match s.spine.wakeQ with
    | [] => s
    | k :: rest =>
      if s.spine.tokens = 0 then s
      else (s.modSpine fun z => { z with wakeQ := rest, tokens := z.tokens - 1 }).modClu k fun u => { u with power := .waking })

/-- STABLE_SUPPLY (18 R416, 10 R282): a woken cluster flushes its TLB and walk cache and returns its token. -/
def execStableSupply (clu : Nat) (s : State) : Host.Outcome State Fault Refusal :=
  .next (
    if (s.clu clu).power != .waking then s
    else
      let s := s.modClu clu fun u => { u with power := .up, tlb := [], plru := [], walkCache := [] }
      let s := s.modSpine fun z => { z with tokens := z.tokens + 1 }
      let asked := (locsFrom (4 * clu) 4).filter fun c => (s.core c).phase == .saved && (s.core c).resumeAsked
      { s with agenda := asked.map .resumeMessage ++ s.agenda })

/-- CLUSTER_POWER_GATING (18 R416): only while no context is assigned to the cluster. -/
def execClusterPowerGating (clu : Nat) (s : State) : Host.Outcome State Fault Refusal :=
  .next (
    if (s.clu clu).cfg.getLsbD 29 || (locsFrom (4 * clu) 4).any (fun c => (s.core c).ctxv) || (s.clu clu).power != .up then s
    else s.modClu clu fun u => { u with power := .gated })

end Sys2Proof.Machine
end

