-- ==== Sys2Proof/Machine/Cluster.lean ====
section
/-! DEFINITION. The cluster: gangs, barriers, loop scheduling, places in the machine, the TLB and its shoot-downs, and
the instruction cache (10; 07 R179). -/

namespace Sys2Proof.Machine

/-! ### Gangs (10 R270) -/

/-- Whether every core that a mask names is live. -/
def State.maskLive (s : State) (k : Nat) (mk : BitVec 4) : Bool := mk.toNat &&& s.liveMask k == mk.toNat

/-- GANG (10 R270): it arrives once its earlier accesses are performed. -/
def execGang (g : BitVec 2) (joint : Bool) (o : Ops) (s : State) : Host.Outcome State Fault Refusal :=
  .next (s.instr 0xA0 0x00 o fun s => s.noHandler fun s =>
    let k := coreClu s.cur.1
    let mk := (s.val o.a).setWidth 4
    if mk &&& cixBit s.cur.1 = 0 then s.raise .prot 0x50 0
    else if !s.maskLive k mk then s.raise .prot 0x51 0
    else
      let s := s.commit
      if !s.fenceDone .ar s.me.own then s.await .retry
      else
        let s := s.acquire
        let a : GangArr :=
          { core := s.cur.1, slot := s.cur.2, own := s.me.own, mask := mk, joint, d := o.d,
            opd := opDigest (opCode (.gang g joint o)) (g.setWidth 64) [mk.setWidth 64] }
        let s := s.wait (.gang g)
        (s.arriveGang k g.toNat a (.slot s.cur.2) s.me).settleGang k g.toNat)

/-! ### Barriers (10 R274) -/

/-- Barrier `i` of a cluster. -/
def State.bar (s : State) (k i : Nat) : Bar := vget { phase := 0, parties := 0, cnt := 0, mis := false } (s.clu k).bars i

/-- Changes a barrier. -/
def State.putBar (s : State) (k i : Nat) (b : Bar) : State := s.modClu k fun u => { u with bars := vset u.bars i b }

/-- A barrier after an arrival, and whether its count differed. -/
def Bar.arrive (b : Bar) (c : Word) : Bar × Bool :=
  let n := c.setWidth 16
  let mis := b.parties != 0 && n != b.parties
  let parties := if b.parties = 0 then n else b.parties
  let cnt := b.cnt + 1
  (if cnt = parties then { phase := b.phase + 1, parties := 0, cnt := 0, mis := b.mis || mis }
   else { b with parties, cnt, mis := b.mis || mis }, mis)

/-- The presentation of a CLBAR.WAIT of the strand `t` (17 Table 17.5). -/
def State.barPresent (s : State) (k : Nat) (bar : BitVec 4) (phase : Word) (t : Strand) : Present :=
  { asid := t.asid.toNat, lane := s.cluLane k, type := 0x08, sid := t.sid, ord := t.sord,
    opd := opDigest (0xA1 * 2 ^ 19 + 2 ^ 13 + bar.toNat) (bar.setWidth 64) [phase], aux := t.sdig, kind := .sdig, val := t.sdig }

/-- A strand that waits at a barrier whose phase has passed presents its wait, and retires when it is admitted. -/
def State.passBar (s : State) (k c : Nat) (pl : Place) (t : Strand) : State :=
  match t.wait? with
  | some (.barrier bar phase d) =>
    let p := s.barPresent k bar phase t
    match (if s.verdict p == .go && s.heldBefore p t then .hold else s.verdict p) with
    | .hold => (s.modPlace c pl fun q => q.holdAt p.lane s.fresh).tick
    | .diverge sub => s.divergeStrand c pl t p sub
    | .go =>
      let s := (s.logged p 0).modPlace c pl fun q => s.resetSdig p.asid q.countOp
      s.endWait c pl d ((s.bar k bar.toNat).phase.setWidth 64)
  | _ => s

/-- The strands that wait at a barrier for another phase than its present one, in the order of their waits. -/
def State.barWaiters (s : State) (k i : Nat) : List (Nat × Place × Strand) :=
  let phase := (s.bar k i).phase
  let here := (locsFrom (4 * k) 4).flatMap fun c =>
    ((s.core c).strandsWhere fun t =>
      match t.wait? with | some (.barrier b p _) => b.toNat == i && p.setWidth 16 != phase | _ => false).map fun e => (c, e)
  sortBy (fun a b => decide (a.2.2.waitNo ≤ b.2.2.waitNo)) here

/-- The waiters that a completed phase releases (10 R274). -/
def State.releaseBar (s : State) (k i : Nat) : State :=
  (s.barWaiters k i).foldl (fun s e => s.passBar k e.1 e.2.1 e.2.2) s

/-- CLBAR.ARRIVE (10 R274). -/
def execClbarArrive (bar : BitVec 4) (o : Ops) (s : State) : Host.Outcome State Fault Refusal :=
  .next (s.instr 0xA1 0x00 o fun s =>
    let c := s.val o.a
    if c = 0 || 256 < c.toNat then s.raise .prot 0x53 0
    else
      let s := s.commit
      if !s.fenceDone .rel s.me.own then s.await .retry
      else
        let k := coreClu s.cur.1
        let p := s.presentMe (s.cluLane k) 0x07 (opDigest (opCode (.clbarArrive bar o)) (bar.setWidth 64) [c])
        s.presented p fun s =>
          let b := s.bar k bar.toNat
          let (y, mis) := b.arrive c
          let s := (s.loggedMe p (if mis then fMis else 0)).setD o.d (b.phase.setWidth 64)
          ((s.putBar k bar.toNat y).retire).releaseBar k bar.toNat)

/-- CLBAR.WAIT (10 R274). -/
def execClbarWait (bar : BitVec 4) (o : Ops) (s : State) : Host.Outcome State Fault Refusal :=
  .next (s.instr 0xA1 0x01 o fun s => s.noHandler fun s =>
    let v := s.val o.a
    let s := s.commit.acquire
    let k := coreClu s.cur.1
    let phase := (s.bar k bar.toNat).phase
    if phase = v.setWidth 16 then s.wait (.barrier bar v o.d)
    else
      let p := s.barPresent k bar v s.me
      s.presented p fun s => ((s.loggedMe p 0).setD o.d (phase.setWidth 64)).retire)

/-! ### Loop scheduling (10 R275, R276) -/

/-- Counter `i` of a cluster. -/
def State.ctr (s : State) (k i : Nat) : Ctr :=
  vget { next := 0, stop := 0, min := 0, factor := 0, p := 0 } (s.clu k).ctrs i

/-- Changes a counter. -/
def State.putCtr (s : State) (k i : Nat) (x : Ctr) : State := s.modClu k fun u => { u with ctrs := vset u.ctrs i x }

/-- The counter that CHSET sets; P holds 0 for 256. -/
def Ctr.set (start count w : Word) : Ctr where
  next := start.setWidth 32
  stop := start.setWidth 32 + count.setWidth 32
  min := if w.extractLsb' 0 16 = 0 then 1 else w.extractLsb' 0 16
  factor := if w.extractLsb' 16 8 = 0 then 1 else w.extractLsb' 16 8
  p := w.extractLsb' 24 8

/-- Length of the next range of a counter; one that has never been set has none left (10 R276). -/
def Ctr.len (x : Ctr) : Nat :=
  let rem := (x.stop - x.next).toNat
  let p := if x.p = 0 then 256 else x.p.toNat
  Nat.min rem (Nat.max x.min.toNat (ceilDiv rem (x.factor.toNat * p)))

/-- CHSET (10 R275). -/
def execChset (ctr : BitVec 2) (o : Ops) (s : State) : Host.Outcome State Fault Refusal :=
  .next (s.instr 0xA2 0x00 o fun s =>
    let x := Ctr.set (s.val o.a) (s.val o.b) (s.val o.c)
    (s.commit.putCtr (coreClu s.cur.1) ctr.toNat x).retire)

/-- CHUNK (10 R276): the record carries the range as its decision. -/
def execChunk (ctr : BitVec 2) (o : Ops) (s : State) : Host.Outcome State Fault Refusal :=
  .next (s.instr 0xA2 0x01 o fun s =>
    let s := s.commit
    let k := coreClu s.cur.1
    let x := s.ctr k ctr.toNat
    let v := toWord (x.len * 2 ^ 32 + x.next.toNat)
    let p : Present :=
      { s.presentMe (s.cluLane k) 0x09 (opDigest (opCode (.chunk ctr o)) (ctr.setWidth 64) []) with
        aux := v, kind := .decision }
    s.presented p fun s =>
      (((s.putCtr k ctr.toNat { x with next := x.next + BitVec.ofNat 32 x.len }).loggedMe p 0).setD o.d v).retire)

/-! ### Places (10 R267, R268) -/

/-- Index and count of a level for the strand that executes. -/
def State.levelMe (s : State) (lv : Nat) : Nat × Nat :=
  s.level s.cur.1 s.cur.2 s.me.asid.toNat s.me.lh.toNat lv

/-- GEOM (10 R267). -/
def execGeom (lv : BitVec 3) (o : Ops) (s : State) : Host.Outcome State Fault Refusal :=
  .next (s.instr 0xA3 0x00 o fun s =>
    let (i, n) := s.levelMe lv.toNat
    s.putD o (toWord (n * 2 ^ 32 + i)))

/-- Start and length of the share of participant `i` of `p` in a range of `n` items (10 R268). -/
def share (n p i : Nat) : Nat × Nat :=
  if p = 0 || p ≤ i then (n, 0)
  else (i * (n / p) + Nat.min i (n % p), n / p + if i < n % p then 1 else 0)

/-- The edge mask of a share (10 R268). -/
def edgeMask (len : Nat) : BitVec 16 :=
  if len = 0 then 0 else if len % 16 = 0 then 0xFFFF else BitVec.ofNat 16 (2 ^ (len % 16) - 1)

/-- PART (10 R268). -/
def execPart (lvs : BitVec 3) (edge : Bool) (o : Ops) (s : State) : Host.Outcome State Fault Refusal :=
  .next (s.instr 0xA3 0x01 o fun s =>
    let n := wfld (s.val o.a) 0 32
    let (i, p) := if lvs = 0 then (wfld (s.val o.c) 0 32, wfld (s.val o.b) 0 32) else s.levelMe (lvs.toNat - 1)
    let (start, len) := share n p i
    if edge then ((s.undoD o.d).setM o.d.ix (edgeMask len)).retire
    else s.putD o (toWord (len * 2 ^ 32 + start)))

/-! ### The TLB (10 R277 to R282) -/

/-- TLBINV: the shoot-down leaves once the strand's earlier stores are performed, and the strand waits (10 R279). -/
def State.startShoot (s : State) (kind : Nat) (asid : BitVec 12) (va : Word) (wide : Bool) (o : Ops) : State :=
  let s := s.commit
  if !s.fenceDone .rel s.me.own then s.await .retry
  else
    let x : Shoot :=
      { id := s.fresh, core := s.cur.1, slot := s.cur.2, clu := coreClu s.cur.1, kind := BitVec.ofNat 2 kind, asid, va,
        sec := s.me.sec, wide, refused := false, got := [], acked := [] }
    (State.tick { s with shoots := s.shoots ++ [x] }).wait (.tlbinv x.id o.d 0)

/-- TLBINV.page (10 R279). -/
def execTlbinvPage (wide : Bool) (o : Ops) (s : State) : Host.Outcome State Fault Refusal :=
  .next (s.supInstr true 0xA4 0x00 o fun s => s.startShoot 0 ((s.val o.b).setWidth 12) (s.val o.a) wide o)

/-- TLBINV.asid (10 R279). -/
def execTlbinvAsid (wide : Bool) (o : Ops) (s : State) : Host.Outcome State Fault Refusal :=
  .next (s.supInstr true 0xA4 0x00 o fun s => s.startShoot 1 ((s.val o.b).setWidth 12) 0 wide o)

/-- TLBINV.glob (10 R279). -/
def execTlbinvGlob (wide : Bool) (o : Ops) (s : State) : Host.Outcome State Fault Refusal :=
  .next (s.supInstr true 0xA4 0x00 o fun s => s.startShoot 2 0 0 wide o)

/-- TLBINV.all (10 R279). -/
def execTlbinvAll (wide : Bool) (o : Ops) (s : State) : Host.Outcome State Fault Refusal :=
  .next (s.supInstr true 0xA4 0x00 o fun s => s.startShoot 3 0 0 wide o)

/-- Whether a shoot-down drops an entry (10 R279). -/
def Shoot.drops (x : Shoot) (e : TlbEntry) : Bool :=
  e.sec == x.sec &&
    match x.kind.toNat with
    | 0 => (e.glob || e.asid == x.asid) && e.vp == vpOf e.big x.va
    | 1 => !e.glob && e.asid == x.asid
    | 2 => e.glob
    | _ => true

/-- A cluster of a TLBTREE entry, as the node that holds it reads it (10 Table 10.6). -/
def State.treeNode (s : State) (k : Nat) (v : Word) : Option Nat :=
  if v.getLsbD 18 then (s.chipOfL (cluSite k) (wfld v 2 16)).map fun t => 4 * t + wfld v 0 2 else none

/-- Parent of a cluster in the tree. -/
def State.treeParent (s : State) (k : Nat) : Option Nat := s.treeNode k (vget 0 (s.clu k).tree 0)

/-- Children of a cluster in the tree. -/
def State.treeChildren (s : State) (k : Nat) : List Nat :=
  (List.range 4).filterMap fun i => s.treeNode k (vget 0 (s.clu k).tree (i + 1))

/-- Root of a cluster's tree; the count bounds its depth. -/
def State.treeRoot (s : State) : Nat → Nat → Nat
  | 0, k => k
  | n + 1, k => match s.treeParent k with | some p => s.treeRoot n p | none => k

/-- Where a shoot-down enters. -/
def State.shootRoot (s : State) (x : Shoot) : Nat := if x.wide then s.treeRoot 16 x.clu else x.clu

/-- Changes a shoot-down. -/
def State.modShoot (s : State) (id : Nat) (f : Shoot → Shoot) : State :=
  { s with shoots := mapWhere (fun x => x.id == id) f s.shoots }

/-- Regions of a cluster's strands that hold a store translated through a dropped entry commit at their next
boundary (10 R280). -/
def State.commitDropped (s : State) (k : Nat) (gone : List TlbEntry) : State :=
  (locsFrom (4 * k) 4).foldl (fun s c =>
    s.modCore c fun u => { u with slots := u.slots.map fun e =>
      let p := e.2
      let hit := p.region.any fun b => gone.any fun t => t.hits p.asid p.sec b.ea
      (e.1, if hit then { p with mustCommit := true } else p) }) s

/-- Whether what a walk has found outlives a shoot-down: a translation that it doesn't match. -/
def Got.stays (g : Got) (x : Shoot) : Bool := match g with | .page e => !x.drops e | _ => false

/-- The translations that a cluster's engine operations hold for their next span go with a shoot-down (10 R280). -/
def State.dropPages (s : State) (k : Nat) (x : Shoot) : State :=
  { s with ops := mapWhere (fun o => coreClu o.core == k) (fun o => { o with pages := o.pages.filter fun e => e.2.stays x }) s.ops }

/-- A cluster receives a shoot-down (10 R280, R281): it drops the entries and its walk cache, and passes it on. A
gated cluster drops nothing, for it flushes when it wakes (10 R282). -/
def State.receiveShoot (s : State) (x : Shoot) (k : Nat) : State :=
  let u := s.clu k
  let gone := if u.power == .up then u.tlb.filter x.drops else []
  let s := s.modClu k fun u =>
    { u with
      tlb := if u.power == .up then u.tlb.filter fun e => !x.drops e else u.tlb
      walkCache := if u.power == .up then [] else u.walkCache
      mailbox := if x.wide then u.mailbox ++ [x.id] else u.mailbox }
  let s := s.dropPages k x
  let s := (s.commitDropped k gone).modShoot x.id fun y => { y with got := y.got ++ [(k, s.fresh)], refused := false }
  if k = x.clu then
    match s.waiter x.core fun w => match w with | .tlbinv n _ _ => n == x.id | _ => false with
    | some (pl, t) =>
      match t.wait? with
      | some (.tlbinv id d _) => s.modPlace x.core pl fun p => { p with st := .waiting (.tlbinv id d gone.length) }
      | _ => s
    | none => s
  else s

/-- Whether a node has passed every earlier request of its mailbox to a child (10 R281). -/
def State.passedEarlier (s : State) (p clu id : Nat) : Bool :=
  ((s.clu p).mailbox.takeWhile fun n => n != id).all fun n =>
    (s.shoots.find? fun y => y.id == n).all fun y => y.got.any fun g => g.1 == clu

/-- SHOOTDOWN_REQUEST (10 R281): it reaches its root, or a node whose parent has received it, in the order of the parent's
mailbox. A root whose mailbox is full refuses it. -/
def execShootdownRequest (id clu : Nat) (s : State) : Host.Outcome State Fault Refusal :=
  .next (
    match s.shoots.find? fun x => x.id == id with
    | none => s
    | some x =>
      let root := s.shootRoot x
      if x.got.any (fun g => g.1 == clu) then s
      else if clu = root then
        if x.refused then s
        else if x.wide && decide (8 ≤ (s.clu clu).mailbox.length) then s.modShoot id fun y => { y with refused := true }
        else s.receiveShoot x clu
      else
        match s.treeParent clu with
        | some p =>
          if x.wide && x.got.any (fun g => g.1 == p) && (s.treeChildren p).contains clu &&
              decide ((s.clu clu).mailbox.length < 8) && s.passedEarlier p clu id
          then s.receiveShoot x clu
          else s
        | none => s)

/-- SHOOTDOWN_RESEND (10 R281): the issuing cluster sends a refused request again. -/
def execShootdownResend (id : Nat) (s : State) : Host.Outcome State Fault Refusal :=
  .next (s.modShoot id fun x => { x with refused := false })

/-- The link chiplets are leaves of the shoot-down tree (23 R465): before the root answers a wide shoot-down they have dropped
the translations, and their writes under way have been performed (log 25). -/
def State.dropLinks (s : State) (x : Shoot) : State :=
  if x.wide then
    { s with links := s.links.map fun e => (e.1, { e.2 with tcache := e.2.tcache.filter fun t => !x.drops t }) }
  else s

/-- Whether a cluster is ready to acknowledge for itself (10 R280): its cores' accesses from before the request, and
every store they have handed over, are performed, and no region is still to be committed for it. -/
def State.drainedClu (s : State) (k mark : Nat) : Bool :=
  let here (c : Nat) : Bool := coreClu c == k
  (s.clu k).power != .up ||
    (!(s.loads.any fun l => here l.core && decide (l.id < mark) && !l.done) && !(s.writes.any fun w => here w.core) &&
      !(s.atoms.any fun a => here a.core && decide (a.id < mark) &&
        match a.stage with | .toHome | .toPas | .returned | .locking _ _ => true | _ => false) &&
      !((locsFrom (4 * k) 4).any fun c => (s.core c).slots.any fun e => e.2.mustCommit))

/-- SHOOTDOWN_ACK (10 R280, R281): a node acknowledges the oldest request of its mailbox when it and all its children are
done; the root's acknowledgement lets the TLBINV retire. -/
def execShootdownAck (id clu : Nat) (s : State) : Host.Outcome State Fault Refusal :=
  .next (
    match s.shoots.find? fun x => x.id == id with
    | none => s
    | some x =>
      match x.got.find? fun g => g.1 == clu with
      | none => s
      | some (_, mark) =>
        if x.acked.contains clu || !s.drainedClu clu mark || (x.wide && s.links.any fun e => !e.2.sent.isEmpty) ||
            (x.wide && ((s.clu clu).mailbox.head? != some id || !(s.treeChildren clu).all x.acked.contains)) then s
        else
          let s := s.modClu clu fun u => { u with mailbox := u.mailbox.filter fun n => n != id }
          if clu = s.shootRoot x then
            let s : State := { s.dropLinks x with shoots := s.shoots.filter fun y => y.id != id }
            match s.waiter x.core fun w => match w with | .tlbinv n _ _ => n == id | _ => false with
            | some (pl, t) =>
              match t.wait? with
              | some (.tlbinv _ d n) => s.endWait x.core pl d (toWord n)
              | _ => s
            | none => s
          else s.modShoot id fun y => { y with acked := y.acked ++ [clu] })

/-- Non-leaf entries kept by the walk cache: the 64 entered last (10 R278, log 12). -/
def Cluster.keepWalk (u : Cluster) (l : List WalkEntry) : Cluster :=
  { u with walkCache := (l ++ u.walkCache.filter fun e => !l.contains e).take 64 }

/-- A walk ends for an engine operation that waits for it: its span has what the walk found (10 R278, 11 R292). -/
def State.endEngWalk (s : State) (id : Nat) (g : Got) (op : Nat) (va : Word) : State :=
  match s.ops.find? fun o => o.id == op with
  | none => s
  | some o =>
    if o.walk != some id then s
    else s.modOp op fun o => { o with walk := none, pages := tput o.pages (va.toNat / 2 ^ 16) g }

/-- A strand whose walk does not reach a table takes UNREACHABLE or STALE at its instruction (14 R332; 11 R310). -/
def State.walkFault (s : State) (c sl : Nat) (code : Code) (va : Word) (w : WordId) : State :=
  let s := s.commitRegion c sl
  s.faultAt c sl { code, sub := 0, deferred := false, word := w, pc := (s.strandAt c sl).pc, addr := va }

/-- A walk ends for what waits for it: an access goes on or takes XLATE; a strand whose fetch has no translation is chosen for
issue and takes it (10 R278, 04 Table 04.7), where its core lets it issue. -/
def State.endWalk (s : State) (id : Nat) (g : Got) (w : Nat × Nat × ReqKind × Word) : State :=
  if w.2.2.1 == .engine then s.endEngWalk id g w.2.1 w.2.2.2
  else
  match s.strand? w.1 w.2.1 with
  | none => s
  | some p =>
    let word : WordId := if w.2.2.1 == .fetch then { maj := 0, fn := 0, len := 0 } else p.word
    if p.walk != some id then s
    else if w.2.2.1 == .fetch && (p.stopped || (s.core w.1).phase != .run) then s.putStrand w.1 w.2.1 { p with walk := none }
    else
      match g with
      | .page _ => s.putStrand w.1 w.2.1 { p with walk := none }
      | .absent => s.xlate w.1 w.2.1 w.2.2.1 w.2.2.2 word
      | .lost code => s.walkFault w.1 w.2.1 code w.2.2.2 word

/-- What meets the requests of a walk at the sites of its tables, in order. -/
def State.walkWay (s : State) (k : Nat) (sites : List Nat) : Way :=
  ((sites.map (s.wayTo (cluSite k))).find? fun w => w != .clear).getD .clear

/-- TLB_WALK (10 R278): one of the eight oldest walks of a cluster reads its tables and ends. One whose requests meet a hole
waits (14 R325, R334); one that does not reach a table ends with no translation (14 R332; 11 R310). -/
def execTlbWalk (clu id : Nat) (s : State) : Host.Outcome State Fault Refusal :=
  .next (
    match ((s.clu clu).walks.take 8).find? fun w => w.id == id with
    | none => s
    | some w =>
      let r := s.walkTables clu w.asid w.va
      let t := s.modClu clu fun u => { u with walks := u.walks.filter fun x => x.id != id }
      let u := t.modClu clu (·.keepWalk r.read)
      let end_ (s : State) (g : Got) : State := w.waiters.foldl (fun s x => s.endWalk id g x) s
      match s.walkWay clu r.sites, r.leaf with
      | .hole, _ => s
      | .lost code, _ => end_ t (.lost code)
      | .clear, some (big, pte) =>
        let v := u.modClu clu fun u => u.enter w.asid w.sec big w.va pte
        end_ v (match v.tlbFind clu w.asid w.sec w.va with | some e => .page e | none => .absent)
      | .clear, none => end_ u .absent)

/-! ### The instruction cache (10 R264, 07 R179) -/

/-- The strands of a cluster whose next fetch misses a line: their cores and TLB entries. -/
def State.fetchMisses (s : State) (k line : Nat) : List (Nat × TlbEntry) :=
  ((locsFrom (4 * k) 4).flatMap fun c => (s.core c).slots.map fun e => (c, e.2)).filterMap fun x =>
    if x.2.pc.toNat / 64 = line && s.fetch x.1 x.2 == .absent then
      (s.tlbFind k x.2.asid x.2.sec x.2.pc).map fun e => (x.1, e)
    else none

/-- Lines of a set of the instruction cache: 256 sets of 8 ways. -/
def Cluster.icSet (u : Cluster) (line : Nat) : List Nat := (u.icache.map (·.1)).filter fun l => l % 256 == line % 256

/-- ICACHE_FILL (07 R179): a line that strands miss enters the cache, a miss of each of their cores (19 R436). A full set gives up the line named, else its
first (log 11). -/
def execIcacheFill (clu line : Nat) (victim : Option Nat) (s : State) : Host.Outcome State Fault Refusal :=
  .next (
    match s.fetchMisses clu line with
    | [] => s
    | (c, e) :: more =>
      let v := BitVec.ofNat 512 (memVal s.mem (s.entryLocs (coreSite c) true e (toWord (64 * line)) 64))
      let set := (s.clu clu).icSet line
      let out := match victim with | some l => if set.contains l then some l else set.head? | none => set.head?
      let s := s.modClu clu fun u =>
        let t := match out with | some l => if 8 ≤ set.length then tdel u.icache l else u.icache | none => u.icache
        { u with icache := tput t line v }
      (c :: more.map (·.1)).dedup.foldl (fun s c => s.count c 8 1) s)

end Sys2Proof.Machine
end

