-- ==== Sys2Proof/Machine/Control.lean ====
section
/-! DEFINITION. Transfers of control and the SYS operations (05 R126 to R136). -/

namespace Sys2Proof.Machine

/-! ### Transfers (05 Table 05.6) -/

/-- A taken transfer retires at its target (05 R126); `ret` marks a RET (05 R128). -/
def State.jump (s : State) (ret : Bool) (t : Word) : State :=
  let s := s.modMe fun p => { p with lastRet := ret }
  let s := s.count s.cur.1 9 1
  (if ret then s.count s.cur.1 10 1 else s).retireTo t

/-- A conditional branch (05 R126). -/
def State.branch (s : State) (off : BitVec 32) (taken : Bool) : State :=
  if taken then s.jump false (s.target off) else s.retire

/-- A register-indirect transfer to `t`, with what it writes first; a misaligned target raises ALIGN and
writes nothing (05 R127). -/
def State.indirect (s : State) (ret : Bool) (t : Word) (link : State → State) : State :=
  if t.toNat % 4 ≠ 0 then s.raise .align 0 t else (link s).jump ret t

/-- BCC.EQ: branches when equal (05 R126). -/
def execBccEq (off : BitVec 32) (o : Ops) (s : State) : Host.Outcome State Fault Refusal :=
  .next (s.instr 0x20 0x00 o fun s => s.branch off (s.val o.a == s.val o.b))

/-- BCC.NE: branches when not equal (05 R126). -/
def execBccNe (off : BitVec 32) (o : Ops) (s : State) : Host.Outcome State Fault Refusal :=
  .next (s.instr 0x20 0x01 o fun s => s.branch off (s.val o.a != s.val o.b))

/-- BCC.LT: branches when signed less (05 R126). -/
def execBccLt (off : BitVec 32) (o : Ops) (s : State) : Host.Outcome State Fault Refusal :=
  .next (s.instr 0x20 0x02 o fun s => s.branch off ((s.val o.a).slt (s.val o.b)))

/-- BCC.GE: branches when signed not less (05 R126). -/
def execBccGe (off : BitVec 32) (o : Ops) (s : State) : Host.Outcome State Fault Refusal :=
  .next (s.instr 0x20 0x03 o fun s => s.branch off (!(s.val o.a).slt (s.val o.b)))

/-- BCC.LTU: branches when unsigned less (05 R126). -/
def execBccLtu (off : BitVec 32) (o : Ops) (s : State) : Host.Outcome State Fault Refusal :=
  .next (s.instr 0x20 0x04 o fun s => s.branch off ((s.val o.a).ult (s.val o.b)))

/-- BCC.GEU: branches when unsigned not less (05 R126). -/
def execBccGeu (off : BitVec 32) (o : Ops) (s : State) : Host.Outcome State Fault Refusal :=
  .next (s.instr 0x20 0x05 o fun s => s.branch off (!(s.val o.a).ult (s.val o.b)))

/-- BCC.Z: branches when a is zero (05 R126). -/
def execBccZ (off : BitVec 32) (o : Ops) (s : State) : Host.Outcome State Fault Refusal :=
  .next (s.instr 0x20 0x06 o fun s => s.branch off (s.val o.a == 0))

/-- BCC.NZ: branches when a is not zero (05 R126). -/
def execBccNz (off : BitVec 32) (o : Ops) (s : State) : Host.Outcome State Fault Refusal :=
  .next (s.instr 0x20 0x07 o fun s => s.branch off (s.val o.a != 0))

/-- JMP (05 R126). -/
def execJmp (off : BitVec 32) (o : Ops) (s : State) : Host.Outcome State Fault Refusal :=
  .next (s.instr 0x21 0x00 o fun s => s.jump false (s.target off))

/-- JMPI (05 R126, R127). -/
def execJmpi (o : Ops) (s : State) : Host.Outcome State Fault Refusal :=
  .next (s.instr 0x21 0x01 o fun s => s.indirect false (s.val o.a) id)

/-- CALL: the link is the address after the instruction (05 R126). -/
def execCall (off : BitVec 32) (o : Ops) (s : State) : Host.Outcome State Fault Refusal :=
  .next (s.instr 0x21 0x02 o fun s => (s.setD o.d (s.me.pc + toWord o.len.bytes)).jump false (s.target off))

/-- CALLI: the target is read before the link is written (05 R127). -/
def execCalli (o : Ops) (s : State) : Host.Outcome State Fault Refusal :=
  .next (s.instr 0x21 0x03 o fun s => s.indirect false (s.val o.a) fun t => t.setD o.d (s.me.pc + 8))

/-- RET (05 R126, R128). -/
def execRet (o : Ops) (s : State) : Host.Outcome State Fault Refusal :=
  .next (s.instr 0x21 0x04 o fun s => s.indirect true (s.val o.a) id)

/-- LOOP: the counter is decremented, and the branch taken while it is not zero (05 R126, R129). -/
def execLoop (off : BitVec 32) (o : Ops) (s : State) : Host.Outcome State Fault Refusal :=
  .next (s.instr 0x22 0x00 o fun s =>
    let n := s.me.getG o.d.ix - 1
    (s.setD o.d n).branch off (n != 0))

/-- JTAB: an index at or above the count falls through; below it, the table entry is loaded, and the strand
waits for it (05 R130). -/
def execJtab (tbl cnt : BitVec 32) (o : Ops) (s : State) : Host.Outcome State Fault Refusal :=
  .next (s.instr 0x23 0x00 o fun s =>
    let i := s.val o.a
    if cnt.toNat ≤ i.toNat then s.retireTo (s.me.pc + 16)
    else
      let base := s.me.pc + tbl.signExtend 64 * 4
      s.withAccess .load Need.load (base + 4 * i) 4 fun ps s =>
        (s.issueLoad false (.table base) (ps.map s.runit)).await (.table s.fresh))

/-! ### SYS (05 Table 05.7) -/

/-- BREAK and TRAP: delivered to the attached debugger when TRAPMASK bit `bit` selects it, and then the
strand is stopped (19 R423, R427); else a fault like any other. -/
def State.trapTo (s : State) (bit : Nat) (code : Code) (sub : Nat) (addr : Word) : State :=
  let (c, sl) := s.cur
  let t := s.raise code sub addr
  match s.spine.attached with
  | some (asid, mask) =>
    if asid = s.me.asid.toNat && mask.getLsbD bit then
      (t.modCore c fun k => { k with faultQ := k.faultQ.filter fun n => n != sl }).stopStrand c sl |>.settleStop c
    else t
  | none => t

/-- TRAP (05 R131). -/
def execTrap (code : BitVec 8) (o : Ops) (s : State) : Host.Outcome State Fault Refusal :=
  .next (s.instr 0x24 0x00 o fun s => s.trapTo 1 .trap code.toNat 0)

/-- BRK (05 R131). -/
def execBrk (code : BitVec 8) (o : Ops) (s : State) : Host.Outcome State Fault Refusal :=
  .next (s.instr 0x24 0x01 o fun s => s.trapTo 0 .brk code.toNat 0)

/-- SVC: TRAP with the service number as its address (05 R131). -/
def execSvc (n : BitVec 12) (o : Ops) (s : State) : Host.Outcome State Fault Refusal :=
  .next (s.instr 0x24 0x02 o fun s => s.trapTo 1 .trap 0 (n.setWidth 64))

/-- NOP (05 R131). -/
def execNop (o : Ops) (s : State) : Host.Outcome State Fault Refusal :=
  .next (s.instr 0x24 0x03 o fun s => s.retire)

/-- PAUSE: commits the region; the next instruction issues no earlier than 32 cc later (05 R132). -/
def execPause (o : Ops) (s : State) : Host.Outcome State Fault Refusal :=
  .next (s.instr 0x24 0x04 o fun s =>
    let until_ := s.myCore.cc + 32
    (s.commit.modMe fun p => { p with pauseUntil := some until_ }).retire)

/-- Other strands of a core that are READY and not themselves held by a PAUSE or a YIELD (05 R133). -/
def Core.readyOthers (k : Core) (sl : Nat) : List Nat :=
  (k.slots.filter fun e => e.1 != sl && (e.2.st == .ready || e.2.st == .issuing) && e.2.pauseUntil.isNone &&
    e.2.yielding.isNone).map (·.1)

/-- YIELD: commits the region and steps out of issue groups (05 R133). What the members of a fused group yield does not
hold them: each counts as held for the others. A hold that has nothing to wait for ends at the next issue opportunity. -/
def execYield (o : Ops) (s : State) : Host.Outcome State Fault Refusal :=
  .next (s.instr 0x24 0x05 o fun s =>
    let mates := (s.issuing.filter fun e => e.1 == s.cur.1).map (·.2)
    let others := (s.myCore.readyOthers s.cur.2).filter fun n => !mates.contains n
    (s.commit.modMe fun p => { p with yielding := some { others, left := 64 } }).retire)

/-- SRESUME: the faulted strand returns to its slot once the handler's stores have been performed (05 R134,
15 R358). -/
def execSresume (o : Ops) (s : State) : Host.Outcome State Fault Refusal :=
  .next (s.instr 0x24 0x06 o fun s =>
    if s.me.kind != .handler then s.raise .prot 0x01 0
    else
      let t := s.val o.a
      let mask := (s.val o.b).setWidth 16
      let s := s.commit
      let hand := s.me
      if t.toNat % 4 ≠ 0 then s.raise .align 0 t
      else if !s.storesDone hand.own then s.await .retry
      else
        ((s.count s.cur.1 2 1).returnFault s.cur.1 s.cur.2 t mask).gone s.cur.1 s.cur.2 hand)

/-- The faulted strand of a handler and the handler become GONE (05 R135). -/
def State.kill (s : State) : State :=
  ((s.commit.count s.cur.1 2 1).endHeld s.cur.1 s.cur.2).endStrand s.cur.1 s.cur.2

/-- SKILL (05 R135, R136). -/
def execSkill (o : Ops) (s : State) : Host.Outcome State Fault Refusal :=
  .next (s.instr 0x24 0x07 o fun s => if s.me.kind != .handler then s.raise .prot 0x02 0 else s.kill)

/-- EXIT: commits the region and ends the strand; in a fault handler it acts as SKILL (06 R172). -/
def execExit (o : Ops) (s : State) : Host.Outcome State Fault Refusal :=
  .next (s.instr 0x3C 0x00 o fun s =>
    if s.me.kind == .handler then s.kill
    else (s.commit.count s.cur.1 2 1).endStrand s.cur.1 s.cur.2)

/-! ### Time (05 R140) -/

/-- RDTIME: the module's global time (05 R140). -/
def execRdtime (o : Ops) (s : State) : Host.Outcome State Fault Refusal :=
  .next (s.instr 0x27 0x00 o fun s => s.putD o s.spine.time)

/-- RDTIME.CC: the core's cycle count (05 R140). -/
def execRdtimeCc (o : Ops) (s : State) : Host.Outcome State Fault Refusal :=
  .next (s.instr 0x27 0x00 o fun s => s.putD o s.myCore.cc)

end Sys2Proof.Machine
end

