-- ==== Sys2Proof/Machine/System.lean ====
section
/-! DEFINITION. RDSYS and WRSYS, and what every system register reads as (02 R44 to R47; 07 Table 07.7; 10 Table
10.6; 11 Table 11.8; 14 Table 14.7; 17 Table 17.12; 18 Table 18.6; 19 Table 19.6; 23 Table 23.8). -/

namespace Sys2Proof.Machine

/-! ### Places and counts that registers show -/

/-- Class code of a chiplet (10 Table 10.2). -/
def classCode (k : SiteKind) : Nat := if k == .bClass then 1 else 0

/-- GEOM of the strand that executes (10 Table 10.2). -/
def State.geomReg (s : State) : Nat :=
  let c := s.cur.1
  let t := s.site (coreSite c)
  t.lchip.toNat * 2 ^ 48 + s.myCore.lcore.toNat * 2 ^ 32 + s.spine.modNum.toNat * 2 ^ 24 + classCode t.kind * 2 ^ 20 +
    coreCLU c * 2 ^ 18 + coreCIX c * 2 ^ 16 + s.liveMask (coreClu c) * 2 ^ 12 + s.cur.2 % 64

/-- Code of a phase (07 Table 07.8). -/
def Phase.num : Phase → Nat
  | .run => 0
  | .quiesce => 1
  | .saving => 2
  | .saved => 3
  | .restoring => 4

/-- SLOTST of a slot (07 Table 07.7). A presentation that a lane holds leaves its strand WAITING (17 R392, R396). A slot that a
parked strand has taken while its blocks are not back shows as free: PARKED has no code (log 34). -/
def State.slotReg (s : State) (k : Core) (n : Nat) : Nat :=
  match tfind k.slots n with
  | some p => wfld p.sid 0 32 * 2 ^ 32 + Nat.min p.age 1023 * 2 ^ 6 + (if s.presHeld p then 3 else p.st.code)
  | none => 0

/-- PARK of an index (07 Table 07.7). -/
def Core.parkReg (k : Core) (i : Nat) : Nat :=
  match tfind k.park i with
  | some e => wfld e.strand.sid 0 32 * 2 ^ 32 + (e.blocks.any SpillLoc.inArea).toNat * 2 ^ 6 + e.blocks.length * 4 +
      e.restorable.isSome.toNat * 2 + 1
  | none => 0

/-- HOLDER of an index (07 Table 07.7). -/
def Core.holderReg (k : Core) (i : Nat) : Nat :=
  match tfind k.holders i with
  | some (sl, p) => wfld p.sid 0 32 * 2 ^ 32 + sl * 2 + 1
  | none => 0

/-- ACCFREE (07 Table 07.7). -/
def Core.accFree (k : Core) : Nat :=
  (k.park.map fun e => (e.2.blocks.filter fun b => !b.inArea).length).sum * 2 ^ 16 +
    ((List.range 4).map fun i => (vget AccSet.blank k.mtx.acc i).free.toNat * 2 ^ i).sum

/-- Clusters of a site with a live core, a bit for each. -/
def State.liveClusters (s : State) (n : Nat) : Nat :=
  ((List.range 4).map fun i => if s.liveMask (4 * n + i) = 0 then 0 else 2 ^ i).sum

/-- ENGST of a copy engine (11 Table 11.8): the copies it has completed, those queued at it, at most 32, and those suspended
for paging. -/
def State.engReg (s : State) (n e : Nat) : Nat :=
  let here := s.ops.filter fun o => coreSite o.core == n && o.cls == 0 && o.engine == e
  (vget 0 (s.chip n).engDone e).toNat * 2 ^ 32 + Nat.min 32 (here.filter fun o => o.st == .queued).length * 2 ^ 8 +
    (here.filter fun o => o.st == .pageWait).length % 256

/-- HGQ (11 Table 11.8): the HGEMVs queued at the base die of a chiplet. -/
def State.baseQueue (s : State) (n : Nat) : Nat :=
  match stackSites.idxOf? n with
  | some k => ((s.atBaseDie k).filter fun o => o.st == .queued).length
  | none => 0

/-- DISPST of a launch slot (11 Table 11.8). -/
def State.dispReg (s : State) (n i : Nat) : Nat :=
  match (s.chip n).ranges.find? fun r => (s.launch r.asid r.lh.toNat).slot == i with
  | some r => r.s * 2 ^ 32 + r.n
  | none => 0

/-- Watches held at the home atomic unit of a chiplet, and its waiting operations (11 Table 11.8). -/
def State.atuReg (s : State) (n : Nat) : Nat := s.watchesAt (.unit n) * 2 ^ 16 + s.waitingAt (.unit n)

/-- Code of a site state (14 Table 14.2). -/
def SiteState.num : SiteState → Nat
  | .off => 0
  | .clocked => 1
  | .probed => 2
  | .trained => 3
  | .routed => 4
  | .live => 5
  | .isolated => 6
  | .failed => 7

/-- Code of a site kind (14 Table 14.7). -/
def SiteKind.num : SiteKind → Nat
  | .empty => 0
  | .mClass => 1
  | .bClass => 2
  | .link => 3
  | .spine => 4

/-- SITEST of a site (14 Table 14.7). -/
def Site.reg (t : Site) : Nat :=
  t.part.toNat * 2 ^ 56 + t.inc.toNat * 2 ^ 48 + t.lchip.toNat * 2 ^ 32 + t.cores.toNat * 2 ^ 16 +
    t.failedEdges.toNat * 2 ^ 8 + t.kind.num * 2 ^ 4 + t.st.num

/-- POOLCFG of a partition (14 Table 14.7). -/
def poolCfg (p : Partition) (n : Nat) : Word := toWord (p.donors.length * 2 ^ 48 + p.d.toNat * 2 ^ 46 + n)

/-- CHIPMAP of a logical chiplet in a partition (14 Table 14.7); one that is not LIVE reads zero. -/
def State.chipMap (s : State) (p : Partition) (l : Nat) : Nat :=
  match p.chips[l]? with
  | none => 0
  | some t =>
    if (s.site t).st != .live then 0
    else
      let first := (indexWhere (fun c => coreSite c == t) p.cores 0).getD 0
      2 ^ 63 + (s.siteCores t).length * 2 ^ 48 + first * 2 ^ 32 + classCode (s.site t).kind * 2 ^ 16 +
        t / 18 * 2 ^ 8 + t % 18

/-- REGION of a clock region (14 Table 14.7). -/
def Region.reg (r : Region) : Nat := r.mhz.toNat * 2 ^ 32 + r.running.toNat * 2 ^ 4 + r.grade.toNat

/-! ### The Colophon's registers (17 Table 17.12) -/

/-- Code of a mode. -/
def modeNum : ColMode → Nat
  | .off => 0
  | .record => 1
  | .replay => 2

/-- COLCFG of a context. -/
def Ctx.colReg (x : Ctx) : Nat :=
  modeNum x.mode * 2 ^ 62 + x.stop.toNat * 2 ^ 61 + x.endSet.toNat * 2 ^ 60 + x.rb.toNat / 2 ^ 16 % 2 ^ 39 * 2 ^ 16 + x.segLog % 2 ^ 5

/-- The lane at which an operation presents next: the PAS lane until the PAS has sequenced it, then its home's. -/
def State.atomLaneOf (s : State) (a : AtomOp) : Nat :=
  match a.pas, a.stage with
  | true, .toPas | true, .returned => pasLane
  | _, _ => s.homeLane a.home

/-- Presentations held on a lane (17 Table 17.12): strands that wait on one, operations and messages that were returned or
wait where they stand, migrations, and launch packets. -/
def State.heldOn (s : State) (asid lane : Nat) : Nat :=
  ((s.coresOf asid).map fun c => ((s.core c).strandsWhere fun t => t.wait? == some (.held lane)).length).sum +
    (s.atoms.filter fun a => a.asid == asid && a.heldUp && s.atomLaneOf a == lane).length +
    (s.sends.filter fun m => m.msg.asid.toNat == asid && m.stage == .returned && s.coreLane m.dest == lane).length +
    (s.migs.filter fun m => m.strand.asid.toNat == asid && m.heldUp && s.coreLane m.dest == lane).length +
    (if lane = launchLane then (s.spine.hw.filter fun e => e.2.asid == asid && e.2.held).length else 0)

/-- Whether a lane identity names a lane of a partition (17 R402). -/
def State.laneNamed (s : State) (p : Partition) (lane : Nat) : Bool :=
  let i := lane % 0x2000
  match lane / 0x2000 with
  | 0 => decide (i < p.cores.length)
  | 1 =>
    match p.chips[i / 4]? with
    | some t => decide (i % 4 < cluCount (s.site t).kind)
    | none => false
  | 2 | 3 => decide (i < p.chips.length)
  | _ => i == 0

/-! ### Operations in flight (19 R429) -/

/-- Bytes that an engine operation moves, or reads as weights for HGEMV; its SRC and DST as issued. A side that a
circular buffer gives shows the slot's address once it is known, else zero (log 17). -/
def EngOp.shown (k : Core) (e : EngOp) : Nat × Word × Word :=
  let slot (cb : BitVec 4) : Word := match e.slotNo with | some n => (k.cb cb.toNat).slotAddr n | none => 0
  match e.body with
  | .copy src dst planes rows len _ _ _ _ _ _ _ => (planes * rows * len, src, dst)
  | .fill cb addr _ planes rows len _ _ => (planes * rows * len, addr, slot cb)
  | .drain cb addr _ planes rows len _ _ => (planes * rows * len, slot cb, addr)
  | .hgemv x w _ y _ => (x.n.toNat * x.stride.toNat, w, y)
  | .rma op addr off _ _ len _ _ => if op == .read then (len, off, addr) else (len, addr, off)

/-- STATE of an engine operation (19 Table 19.1). -/
def EngSt.num : EngSt → Nat
  | .queued => 1
  | .running | .ended => 2
  | .pageWait => 3

/-- A word of an in-flight entry from its fields. -/
def inflWord (cls st : Nat) (ticket src dst : Word) (left : Nat) (owner : Word) (w : Nat) : Word :=
  match w with
  | 0 => toWord (cls * 2 ^ 61 + st * 2 ^ 58 + wfld ticket 0 48)
  | 1 => src
  | 2 => dst
  | _ => toWord (left % 2 ^ 32 * 2 ^ 32 + wfld owner 0 32)

/-- An engine operation as an in-flight entry; `held` when it is suspended for a pre-emption. -/
def EngOp.infl (k : Core) (e : EngOp) (held : Bool) (w : Nat) : Word :=
  let (total, src, dst) := e.shown k
  let left := match e.body with | .hgemv x _ _ _ _ => x.k.toNat * hfmtBytes x.wfmt * (x.n.toNat - e.pos) | _ => total - e.pos
  inflWord e.cls (if held then 4 else e.st.num) e.ticket src dst left e.owner w

/-- A matrix entry as an in-flight entry: its source, and its destination or accumulator set; `held` when it is suspended for a
pre-emption. -/
def MEntry.infl (e : MEntry) (held : Bool) (w : Nat) : Word :=
  let st := if held then 4 else match e.st with | .queued => 1 | _ => 2
  let (rows, src, dst) : Nat × Word × Word :=
    match e.body with
    | .load _ src _ _ => (96, src, 0)
    | .book a => (1, a, 0)
    | .stream x base _ m => (m, if x.src then e.base else base, x.set.setWidth 64)
    | .drain x base _ m => (m, 0, if x.src then e.base else base)
    | .clear _ set => (256, 0, toWord set)
    | .swap => (1, 0, 0)
  inflWord 2 st e.ticket src dst (rows - e.row) e.owner w

/-- INFLT of an index of core `c`: queue positions of Table 11.2. -/
def State.inflReg (s : State) (c i : Nat) : Word :=
  let k := s.core c
  let e := i / 4
  let pick (cls n : Nat) : Word :=
    match (s.ops.filter fun o => o.core == c && o.cls == cls)[n]? with
    | some o => o.infl k (!s.opRuns o) (i % 4)
    | none => 0
  if e < 16 then pick 0 e
  else if e < 24 then pick 1 (e - 16)
  else if e < 40 then
    match k.mtx.queue[e - 24]? with
    | some m => m.infl (k.phase != .run && !m.mayComplete) (i % 4)
    | none => 0
  else pick 3 (e - 40)

/-! ### RDSYS -/

/-- WPCTL as it reads: the bits that its kind does not assign read zero (19 Table 19.2, 00 R14). -/
def WatchPt.ctlReg (w : WatchPt) : Word :=
  w.ctl &&&
    match wfld w.ctl 62 2 with
    | 0 => 0xF000000000000000
    | 1 => 0xFC00000000FFFFFF
    | 2 => 0xFE00000000C0FFFF
    | _ => if w.ctl.getLsbD 59 then 0xF8000000000001FF else 0xF80000000000000F

/-- WPVAL as it reads (19 Table 19.2). -/
def WatchPt.valReg (w : WatchPt) : Word :=
  w.val &&&
    match wfld w.ctl 62 2 with
    | 0 => 0
    | 1 => 0x1FFFFFF
    | 2 => 0xFFFFFFFF
    | _ => if w.ctl.getLsbD 59 then 0 else 0xFFFFFFFF

/-- What a register of a core whose number an index carries reads as (19 Table 19.6). -/
def State.coreReg (s : State) (num : BitVec 12) (c i : Nat) : Word :=
  let k := s.core c
  let wp := vget { ctl := 0, val := 0, hit := 0 } k.wp (i % 4)
  match num.toNat with
  | 0x430 =>
    let mask := match s.spine.attached with
      | some (a, m) => if k.ctxv && k.asid == a then 2 ^ 63 + m.toNat else 0
      | none => 0
    toWord (mask + wfld k.dbg 4 2 * 16)
  | 0x431 => wp.ctlReg
  | 0x432 => wp.valReg
  | 0x433 => wp.hit.setWidth 64
  | 0x434 => k.dlyCfg
  | 0x435 => tget 0 k.dlyKey (i % 64)
  | 0x436 => tget 0 k.dlyAcc (i % 256)
  | 0x437 => s.inflReg c (i % 256)
  | _ => vget 0 k.perf (i % 16)

/-- Entries that a register of 19 Table 19.6 has for each core; 0 for the other registers. -/
def perCore (num : BitVec 12) : Nat :=
  match num.toNat with
  | 0x430 | 0x434 => 1
  | 0x431 | 0x432 | 0x433 => 4
  | 0x435 => 64
  | 0x436 | 0x437 => 256
  | 0x43A => 16
  | _ => 0

/-- A strand register of the strand that executes (02 Table 02.3). -/
def State.strandReg (s : State) (num i : Nat) : Word :=
  let p := s.me
  match num with
  | 0x000 => p.sid
  | 0x001 => p.lidx
  | 0x002 => s.myCore.lcore.setWidth 64
  | 0x003 => (s.site (coreSite s.cur.1)).lchip.setWidth 64
  | 0x004 => toWord s.geomReg
  | 0x005 => s.seed p
  | 0x006 => p.draw
  | 0x007 => p.flags.setWidth 64
  | 0x008 => p.rmode.setWidth 64
  | 0x009 => p.amax.setWidth 64
  | 0x00A => p.sword s.cur.2
  | 0x00B => toWord (6 * p.rows.length * 2 ^ 8 + p.rows.length)
  | 0x00C => p.sord.setWidth 64
  | 0x00D => p.sdig
  | 0x00E => s.spine.time
  | _ => vget 0 s.myCore.eseq i

/-- A core or cluster supervisor register (07 Table 07.7, 10 Table 10.6). -/
def State.nearReg (s : State) (num i : Nat) : Word :=
  let k := s.myCore
  let u := s.clu (coreClu s.cur.1)
  match num with
  | 0x100 => (k.cb (i / 4)).word (i % 4)
  | 0x101 => tget (toWord (3 * 2 ^ 62)) (s.chip (coreSite s.cur.1)).route i
  | 0x102 => k.cfg
  | 0x103 => k.savea
  | 0x104 => toWord (k.saves.toNat * 2 ^ 32 + k.spillQ.length * 2 ^ 16 + k.phase.num)
  | 0x105 => toWord (s.slotReg k i)
  | 0x106 => toWord (k.atab i)
  | 0x107 => toWord (k.parkReg i)
  | 0x108 => toWord (k.holderReg i)
  | 0x109 => toWord k.fdis.toNat
  | 0x10A => toWord k.accFree
  | 0x200 => u.cfg &&& ~~~(0xF : Word) ||| toWord (s.liveMask (coreClu s.cur.1))
  | 0x201 => vget 0 u.tree i
  | 0x202 => toWord (u.misses.toNat * 2 ^ 32 + Nat.min 8 u.walks.length * 2 ^ 8 + u.mailbox.length)
  | 0x203 =>
    let g := vget Gang.blank u.gangs i
    toWord (g.gen.toNat * 2 ^ 24 + g.mask.toNat * 2 ^ 16 + g.arr.toNat * 2 ^ 12 + g.jm.toNat * 4 + g.mis.toNat * 2 +
      g.opn.toNat)
  | 0x204 =>
    let b := vget { phase := 0, parties := 0, cnt := 0, mis := false } u.bars i
    toWord (b.phase.toNat * 2 ^ 48 + b.parties.toNat % 512 * 2 ^ 32 + b.cnt.toNat % 512 * 2 ^ 16 + b.mis.toNat)
  | _ =>
    let x := vget { next := 0, stop := 0, min := 0, factor := 0, p := 0 } u.ctrs i
    if num = 0x205 then toWord (x.next.toNat * 2 ^ 32 + x.stop.toNat)
    else toWord (x.p.toNat * 2 ^ 32 + x.factor.toNat * 2 ^ 16 + x.min.toNat)

/-- A chiplet supervisor register (11 Table 11.8). -/
def State.chipReg (s : State) (num i : Nat) : Word :=
  let n := coreSite s.cur.1
  let h := s.chip n
  let t := s.site n
  match num with
  | 0x300 => toWord (t.lchip.toNat * 2 ^ 48 + t.inc.toNat * 2 ^ 40 + classCode t.kind * 2 ^ 36 + s.liveClusters n * 2 ^ 32 +
      h.pagerCore.toNat)
  | 0x301 => toWord (s.engReg n i)
  | 0x302 => toWord (s.dispReg n i)
  | 0x303 => toWord h.children.length
  | 0x304 => toWord h.pagerQ.length
  | 0x305 => h.stale.setWidth 64
  | 0x306 => toWord (s.atuReg n)
  | _ => toWord (s.baseQueue n)

/-- A module register that no core number indexes (14 Table 14.7, 17 Table 17.12, 18 Table 18.6, 19 Table 19.6, 23
Table 23.8). -/
def State.modReg (s : State) (num i : Nat) : Word :=
  let n := coreSite s.cur.1
  let part := s.partOf n
  let asid := s.me.asid.toNat
  match num with
  | 0x400 => toWord (s.site i).reg
  | 0x401 => toWord (s.chipMap part i)
  | 0x402 => toWord (s.region i).reg
  | 0x403 => poolCfg part (s.site n).part.toNat
  | 0x404 => tget 0 s.spine.asidRoot i
  | 0x405 => part.repset.setWidth 64
  | 0x406 => toWord (s.spine.modules * 2 ^ 8 + s.spine.modNum.toNat)
  | 0x410 => toWord (s.ctx i).colReg
  | 0x411 => (s.laneOf asid i).p ++ (s.laneOf asid i).q
  | 0x412 => toWord (Nat.min (2 ^ 32 - 1) (s.laneOf asid i).waited * 2 ^ 32 + s.heldOn asid i % 2 ^ 16)
  | 0x413 => s.spine.colTmo.setWidth 64
  | 0x420 =>
    match tfind s.spine.hw i with
    | some w =>
      let prio := ((s.queue? w.queue).map (·.qcb.prio)).getD 0
      toWord (2 ^ 63 + w.sec.toNat * 2 ^ 62 + prio % 8 * 2 ^ 56 + w.queue % 2 ^ 16 * 2 ^ 40 + w.asid % 4096 * 2 ^ 16 +
        (w.fetched.length - 1))
    | none => 0
  | 0x421 => toWord (((List.range 64).map fun j =>
      match s.queue? (64 * i + j) with
      | some q => q.pending.toNat * 2 ^ j
      | none => 0).sum)
  | 0x422 => toWord (s.spine.tokens * 2 ^ 32 + s.spine.wakeQ.length)
  | 0x423 => tget 0 s.spine.worlds i
  | 0x424 => (s.spine.fw.map fun f => toWord (f.version.toNat * 2 ^ 48 + f.serial.toNat)).getD 0
  | 0x438 => (s.ctx i).trcCfg
  | 0x439 => (s.ctx i).trcWritten ++ (s.ctx i).trcLost
  | 0x440 =>
    let l := tget Link.blank s.links (i / 4)
    let p := tget Port.blank l.ports (i % 4)
    toWord (p.resent.toNat * 2 ^ 32 + p.st.toNat)
  | 0x441 => tget 0 s.spine.froute i
  | 0x442 =>
    let l := tget Link.blank s.links i
    toWord (l.lru.length * 2 ^ 32 + l.staged.length * 2 ^ 16 + l.notReady.toNat)
  | _ => (tget Link.blank s.links i).rstale.setWidth 64

/-- What a system register reads as for the strand that executes. -/
def State.readSys (s : State) (num : BitVec 12) (i : Nat) : Word :=
  let n := num.toNat
  if n < 0x100 then s.strandReg n i
  else if n < 0x300 then s.nearReg n i
  else if n < 0x400 then s.chipReg n i
  else if perCore num = 0 then s.modReg n i
  else
    match (s.partOf (coreSite s.cur.1)).cores[i / perCore num]? with
    | some c => s.coreReg num c i
    | none => 0

/-- Whether an index in range names a unit of the strand's partition, or its own context where only that one is
admitted (02 R47, 17 R402, 19 R437). -/
def State.sysNamed (s : State) (num : BitVec 12) (i : Nat) : Bool :=
  let p := s.partOf (coreSite s.cur.1)
  match num.toNat with
  | 0x101 => decide (304 ≤ i) || decide (i < p.chips.length)
  | 0x401 => decide (i < p.chips.length)
  | 0x410 | 0x438 | 0x439 => i == s.me.asid.toNat
  | 0x411 | 0x412 => s.laneNamed p i
  | _ => perCore num == 0 || decide (i / perCore num < p.cores.length)

/-- The index of a system register, checked at step 9 of 01 R38 (02 R47). -/
def State.withIndex (s : State) (num : BitVec 12) (o : Ops) (go : Nat → State → State) : State :=
  match sysReg num with
  | some r =>
    if r.index.isNone then go 0 s
    else
      let i := s.val o.a
      if !r.inRange num i.toNat then s.raise .addr 0x03 i
      else if !s.sysNamed num i.toNat then s.raise .addr 0x04 i
      else go i.toNat s
  | none => go 0 s

/-- RDSYS (02 R45 to R47). -/
def execRdsys (num : BitVec 12) (o : Ops) (s : State) : Host.Outcome State Fault Refusal :=
  .next (s.supInstr (decide (0x100 ≤ num.toNat)) 0x25 0x00 o fun s =>
    s.withIndex num o fun i s => s.putD o (s.readSys num i))

/-! ### WRSYS -/

/-- Whether a physical range lies in an HBM4E range of 14 Table 14.5. -/
def inHbm (pa n : Nat) : Bool :=
  decide (pa + n ≤ 0x24000000000) ||
    (decide (2 ^ 52 ≤ pa) && decide (pa + n ≤ 2 ^ 52 + 48 * 2 ^ 36) && decide ((pa - 2 ^ 52) % 2 ^ 36 + n ≤ 48 * 2 ^ 30))

/-- Writes a supervisor register of the core or the cluster; a reserved bit is discarded (00 R14), and so is a write
that the owning file says is (07 R195, R197; 10 R283). -/
def State.writeNear (s : State) (num : Nat) (i : Nat) (v : Word) : State :=
  let c := s.cur.1
  match num with
  | 0x100 =>
    let d := s.myCore.cb (i / 4)
    if d.claims = d.fills then s.modCb c (i / 4) fun d => d.setWord (i % 4) v else s
  | 0x103 =>
    let pa := wfld v 22 33 * 2 ^ 22
    if s.myCore.ctxv || !inHbm pa (2 ^ 22) then s else s.modMyCore fun k => { k with savea := toWord pa }
  | 0x109 => s.modMyCore fun k => { k with fdis := v.getLsbD 0 }
  | 0x201 =>
    let k := coreClu c
    if (s.clu k).mailbox.isEmpty then s.modClu k fun u => { u with tree := vset u.tree i (v &&& 0x7FFFF) } else s
  | _ => s

/-- Writes a system register (02 R46): FLAGS keeps its seven defined bits, and RMODE discards every value
above 4 (03 R71, R72; 05 R139). -/
def State.writeSys (s : State) (num : BitVec 12) (i : Nat) (v : Word) : State :=
  match num.toNat with
  | 0x007 => s.modMe fun p => { p with flags := v.setWidth 16 &&& 0x7F }
  | 0x008 => if v ≤ 4 then s.modMe fun p => { p with rmode := v.setWidth 3 } else s
  | n => s.writeNear n i v

/-- WRSYS (02 R45 to R47); one of a supervisor register commits the region first (04 R103). -/
def execWrsys (num : BitVec 12) (o : Ops) (s : State) : Host.Outcome State Fault Refusal :=
  .next (s.supInstr (decide (0x100 ≤ num.toNat)) 0x26 0x00 o fun s =>
    s.withIndex num o fun i s =>
      let v := s.val o.b
      let s := if 0x100 ≤ num.toNat then s.commit else s
      (s.writeSys num i v).retire)

end Sys2Proof.Machine
end

