-- ==== Sys2Proof/Machine/Issue.lean ====
section
/-! DEFINITION. The issue opportunity of a core (07 R179 to R187), the ends of PAUSE and YIELD (05 R132, R133), the
commits of a region by time and by count (04 R103), and the delivery of faults (04 R109, R112). -/

namespace Sys2Proof.Machine

/-! ### Lanes wait with the cycles of a core (17 R398) -/

/-- The core of a context whose cycles a lane's unit counts: its own core, else the first of its cluster, of its chiplet,
or of the context (log 5). -/
def State.laneClock (s : State) (asid lane : Nat) : Option Nat :=
  let p := s.partn (s.ctx asid).part
  let i := lane % 0x2000
  let mine := s.coresOf asid
  match lane / 0x2000 with
  | 0 => p.cores[i]?
  | 1 => (p.chips[i / 4]?).bind fun t => mine.find? fun c => coreClu c == 4 * t + i % 4
  | 2 | 3 => (p.chips[i]?).bind fun t => mine.find? fun c => coreSite c == t
  | _ => mine.head?

/-- Whether the unit of a lane counts its wait now: in REPLAY while a record stands at RP and every core of the context
is in RUN and not stopped (17 R398, 19 R426), in RECORD while the lane is full (17 R396). -/
def State.laneWaits (s : State) (asid lane : Nat) : Bool :=
  let x := s.ctx asid
  match x.mode with
  | .off => false
  | .record => s.laneFull asid lane 0
  | .replay =>
    (s.headRec asid lane).isSome && !x.stop &&
      (s.coresOf asid).all fun c => (s.core c).phase == .run && wfld (s.core c).dbg 4 2 == 0

/-- The lanes whose units count the cycles of a core count some. -/
def State.tickLanes (s : State) (c n : Nat) : State :=
  let k := s.core c
  if !k.ctxv then s
  else
    let hit (key : Nat) : Bool :=
      key / 2 ^ 16 == k.asid && s.laneClock k.asid (key % 2 ^ 16) == some c && s.laneWaits k.asid (key % 2 ^ 16)
    { s with lanes := s.lanes.map fun e =>
        if hit e.1 then (e.1, { e.2 with waited := e.2.waited + n }) else e }

/-! ### Registers that an instruction needs (05 R115, 06 R146) -/

/-- Operands of an instruction. -/
def operandsOf (i : Instr) : Ops :=
  match i.shape with
  | some f => f.ops
  | none => { len := .w64, m := 0, d := .none, a := .none, b := .none, c := .none }

/-- The g registers that an instruction of the strand that executes reads: those that its slots name, the second ones of pairs
(06 R151, R158; 11 R289), a payload (16 R363), the copies that SPAWN and SRESUME make (05 R134, 06 R171), and all that a
migration carries (06 R174). -/
def State.readsG (s : State) (i : Instr) : List Nat :=
  let o := operandsOf i
  let named := [o.a, o.b, o.c].filterMap fun x => match x with | .g n => some n.toNat | _ => none
  let copied := numsWhere 16 fun n => (s.val o.b).getLsbD n
  named ++
    match i with
    | .stq _ _ => [o.b.gNum + 1]
    | .acas2 _ _ => [o.b.gNum + 1, o.c.gNum + 1]
    | .acopy x _ => if x.dim = 3 then [o.c.gNum + 1] else []
    | .amsend x _ | .amsendc x _ => locsFrom x.pbase.toNat x.pcnt.toNat
    | .spawn _ | .sresume _ => copied
    | .migrate _ | .migrateC _ => List.range 16
    | _ => []

/-! ### Bank timing (07 R185 to R187) -/

/-- Instructions that read their v destination as well (08 Table 08.1). -/
def readsDest : Instr → Bool
  | .vins _ | .c4enc _ _ => true
  | _ => false

/-- The v registers that an instruction reads, each with the operand slot of its latch; a destination has none. -/
def vreads (i : Instr) : List (Option Nat × Nat) :=
  let o := operandsOf i
  ([(0, o.a), (1, o.b), (2, o.c)].filterMap fun e => match e.2 with | .v n => some (some e.1, n.toNat) | _ => none) ++
    match readsDest i, o.d with
    | true, .v n => [(none, n.toNat)]
    | _, _ => []

/-- Whether every register that an instruction of the strand in a slot reads is available (05 R115): no load has still to deliver
to it. -/
def State.available (s : State) (c sl : Nat) (p : Strand) (i : Instr) : Bool :=
  (({ s with cur := (c, sl) }.readsG i).all fun n => (tfind p.board n).isNone) &&
    (vreads i).all fun e => (p.stream? e.2).isSome || p.vboard.all fun b => b.1 / 64 != e.2

/-- The physical registers that an instruction reads from the file, each with what its latch holds. -/
def Strand.fileReads (p : Strand) (i : Instr) : List (Option Nat × Nat) :=
  (vreads i).filterMap fun e =>
    if e.2 < p.nreg && (p.stream? e.2).isNone then some (e.1.bind fun j => nth none p.latches j, p.phys e.2) else none

/-- Operands that the hold latches serve. -/
def Strand.latchHits (p : Strand) (i : Instr) : Nat := ((p.fileReads i).filter fun e => e.1 == some e.2).length

/-- The bank hold of an instruction (07 R187). -/
def Strand.bankHold (p : Strand) (i : Instr) : Nat :=
  let reads := (((p.fileReads i).filter fun e => e.1 != some e.2).map (·.2)).dedup
  ((List.range 6).map fun b => (reads.filter fun n => n % 6 == b).length - 1).sum

/-! ### Eligible strands (07 R179) -/

/-- What a strand would issue: the bytes of its instruction word, empty where none was fetched, and the instruction, none
for a fetch that faults or misses the TLB. -/
structure Cand where
  slot : Nat
  strand : Strand
  word : List Byte
  instr : Option Instr
  deriving DecidableEq, Repr

/-- Whether an instruction divides (05 R118). -/
def divides : Instr → Bool
  | .div .. | .divu .. | .rem .. | .remu .. => true
  | _ => false

/-- Dividers that are free (05 R118). -/
def Core.freeDividers (k : Core) : Nat := 16 - (k.dividers.filter fun t => decide (k.cc < t)).length

/-- Whether a region commits by time (04 R103): 1,024 cc after its first store, or because a shoot-down asks for it
(10 R280). -/
def Strand.timeUp (p : Strand) (cc : Word) : Bool :=
  p.mustCommit || (p.firstStore.map fun t => decide (t + 1024 ≤ cc)).getD false

/-- Whether a strand may take part in an issue group, its fetch aside. -/
def State.mayIssue (s : State) (c sl : Nat) (p : Strand) : Bool :=
  let k := s.core c
  p.st == .ready && p.walk.isNone && !p.stopped && p.pauseUntil.isNone && p.yielding.isNone && !p.timeUp k.cc &&
    decide (p.retired < 4096) && !k.owesFault p && (k.readUntil ≤ k.cc || k.readSlot != sl)

/-- Whether the units and the operands that an instruction needs are there: registers (05 R115), a divider (05 R118), the
vector read stage (07 R187), and the elements of its streams (08 R232). -/
def State.unitsFree (s : State) (c sl : Nat) (p : Strand) (i : Instr) : Bool :=
  let k := s.core c
  s.available c sl p i && (!divides i || decide (0 < k.freeDividers)) && (k.readUntil ≤ k.cc || (vreads i).isEmpty) &&
    s.streamUse c p (operandsOf i).vsrcs != .absent

/-- A strand as a candidate for the group; none when it is not eligible. -/
def State.cand (s : State) (c sl : Nat) (p : Strand) : Option Cand :=
  if !s.mayIssue c sl p then none
  else
    match s.fetch c p with
    | .ok i => if s.unitsFree c sl p i then some { slot := sl, strand := p, word := s.wordAt c p, instr := some i } else none
    | .absent => none
    | _ => some { slot := sl, strand := p, word := s.wordAt c p, instr := none }

/-- The order in which strands lead: greatest age, then the slot order from P (07 R180). -/
def Core.leads (k : Core) (a b : Cand) : Bool :=
  decide (b.strand.age < a.strand.age) ||
    (a.strand.age == b.strand.age && decide ((a.slot + 64 - k.ptr) % 64 ≤ (b.slot + 64 - k.ptr) % 64))

/-- Largest issue group of a word (07 Table 07.2, R183); a word of which nothing was fetched issues alone. -/
def Core.groupCap (k : Core) (x : Cand) : Nat :=
  let maj := (wordIdOf x.word).maj.toNat
  let size := if k.fdis || x.word.isEmpty then 1 else if maj ≤ 0x3E then 16 else if maj ≤ 0x82 then 4 else 1
  if (x.instr.map divides).getD false then Nat.min size k.freeDividers else size

/-- Bank hold of a candidate. -/
def Cand.hold (x : Cand) : Nat := (x.instr.map x.strand.bankHold).getD 0

/-- The issue group of some candidates, the leader first (07 R180, R181); a stepping strand issues alone (19 R428). The
members of a dividing group are as many as there are free dividers (05 R118; log 18). -/
def Core.group (k : Core) (l : List Cand) : List Cand :=
  match sortBy k.leads l with
  | [] => []
  | a :: rest =>
    let joins (b : Cand) : Bool :=
      b.strand.pc == a.strand.pc && b.word == a.word && b.hold == 0 && !b.strand.stepping
    if a.strand.stepping || a.hold != 0 then [a] else a :: (rest.filter joins).take (k.groupCap a - 1)

/-- What an issue opportunity leaves of the YIELD of a strand (05 R133). -/
def Strand.yielded (p : Strand) (members : List Nat) : Strand :=
  { p with yielding := p.yielding.map fun (y : YieldHold) =>
      { others := y.others.filter fun n => !members.contains n, left := y.left - 1 } }

/-- A strand of a slot that is no member of an issue group is an opportunity older (07 R180). -/
def Strand.older (p : Strand) : Strand := { p with age := Nat.min (p.age + 1) 1023 }

/-- A strand after an issue opportunity of its core (07 R180, 05 R133). -/
def Strand.aged (p : Strand) (sl : Nat) (members : List Nat) (fused : Bool) : Strand :=
  let p := p.yielded members
  if members.contains sl then { p with age := 0, st := .issuing, lastFused := fused } else p.older

/-- What an issue opportunity does to the strands of a core: those in slots, those in holders, whose YIELDs run on, and the
parked ones that have taken a slot (07 R193). -/
def Core.agedAll (k : Core) (members : List Nat) (fused : Bool) : Core :=
  { k with
    slots := k.slots.map fun e => (e.1, e.2.aged e.1 members fused)
    holders := k.holders.map fun e => (e.1, e.2.1, e.2.2.yielded members)
    park := k.park.map fun e => (e.1, if e.2.slot.isSome then { e.2 with strand := e.2.strand.older } else e.2) }

/-- One cycle of a core's clock: its count, its sampling period (19 R435), its lanes, and TIME (05 R140; log 5). -/
def State.cycle (s : State) (c : Nat) : State :=
  let k := s.core c
  let e := wfld (s.ctx k.asid).trcCfg 0 5
  let due := k.ctxv && decide (8 ≤ e) && decide (e ≤ 20) && (k.cc.toNat + 1) % 2 ^ e == 0
  let s := s.tickLanes c 1
  let s := s.modCore c fun k => { k with cc := k.cc + 1, sampleDue := k.sampleDue + if due then 1 else 0 }
  ((s.advanceTime (Config.elapsed (s.fresh + 1))).tick).count c 0 1

/-- Some cycles of the clock of a core that issues nothing: it is not in RUN, or its cluster has no power (05 R140). -/
def State.idle (s : State) (c n : Nat) : State := (s.tickLanes c n).modCore c fun k => { k with cc := k.cc + toWord n }

/-! ### The ends of holds (05 R132, R133) -/

/-- Whether a PAUSE holds a strand no longer at a cycle. -/
def Strand.pauseOver (p : Strand) (cc : Word) : Bool := (p.pauseUntil.map fun t => decide (t ≤ cc)).getD false

/-- Whether a YIELD has ended (05 R133): a strand that is itself held counts for neither condition. -/
def Core.yieldOver (k : Core) (sl : Nat) (y : YieldHold) : Bool :=
  y.left == 0 || (k.readyOthers sl).isEmpty ||
    y.others.all fun n =>
      match tfind k.slots n with
      | some p => p.pauseUntil.isSome || p.yielding.isSome
      | none => true

/-- A strand whose PAUSE has ended. -/
def Strand.endPause (p : Strand) (cc : Word) : Strand := if p.pauseOver cc then { p with pauseUntil := none } else p

/-- A strand of a slot whose YIELD has ended. -/
def Core.endYield (k : Core) (sl : Nat) (p : Strand) : Strand :=
  match p.yielding with
  | some y => if k.yieldOver sl y then { p with yielding := none } else p
  | none => p

/-- The holds of a core's strands that are over end, those of strands in fault holders too. -/
def Core.endHolds (k : Core) : Core :=
  let k : Core :=
    { k with
      slots := k.slots.map fun e => (e.1, e.2.endPause k.cc)
      holders := k.holders.map fun e => (e.1, e.2.1, e.2.2.endPause k.cc) }
  { k with
    slots := k.slots.map fun e => (e.1, k.endYield e.1 e.2)
    holders := k.holders.map fun e => (e.1, e.2.1, k.endYield e.2.1 e.2.2) }

/-- PAUSE_END (05 R132): 32 cc after its PAUSE a strand may issue again. -/
def execPauseEnd (core slot : Nat) (s : State) : Host.Outcome State Fault Refusal :=
  .next (s.modStrand core slot fun p => p.endPause (s.core core).cc)

/-- YIELD_END (05 R133). -/
def execYieldEnd (core slot : Nat) (s : State) : Host.Outcome State Fault Refusal :=
  .next (s.modStrand core slot ((s.core core).endYield slot))

/-! ### Commits of a region (04 R103) -/

/-- Whether a strand stands at an instruction boundary, or waits for a load. -/
def Strand.atBoundary (p : Strand) : Bool :=
  match p.st with
  | .ready | .waiting _ => true
  | _ => false

/-- A region that is due commits at its strand's boundary: by time, or after 4,096 instructions since the checkpoint; that of a
stopped strand only by time (19 R424). -/
def State.commitDue (s : State) (c sl : Nat) (count : Bool) : State :=
  match s.strand? c sl with
  | some p =>
    if p.atBoundary && (if count then decide (4096 ≤ p.retired) && !p.stopped else p.timeUp (s.core c).cc) then s.commitRegion c sl
    else s
  | none => s

/-- REGION_TIMER_COMMIT (04 R103). -/
def execRegionTimerCommit (core slot : Nat) (s : State) : Host.Outcome State Fault Refusal :=
  .next (s.commitDue core slot false)

/-- REGION_COUNT_COMMIT (04 R103): after 4,096 instructions since the checkpoint. -/
def execRegionCountCommit (core slot : Nat) (s : State) : Host.Outcome State Fault Refusal :=
  .next (s.commitDue core slot true)

/-- A deferred fault is raised at the boundary of the strand in a slot, before its next instruction issues (04 R109). -/
def State.deferredAt (s : State) (c sl : Nat) : State :=
  match s.strand? c sl with
  | some p => s.takeDeferred c (.slot sl) p
  | none => s

/-- What is due on a core at an issue opportunity, before its group forms: PAUSEs and YIELDs that have ended, regions that
commit by time or by count, and deferred faults (05 R132, R133; 04 R103, R109). -/
def State.dueAt (s : State) (c : Nat) : State :=
  let s := s.modCore c Core.endHolds
  ((s.core c).slots.map (·.1)).foldl (fun s n => ((s.commitDue c n false).commitDue c n true).deferredAt c n) s

/-! ### The issue opportunity (07 R180) -/

/-- The group issues: the ages, the pointer, the read stage, the dividers and the counters. -/
def State.issueGroup (s : State) (core : Nat) (g : List Cand) : State :=
  let hits := (g.map fun x => (x.instr.map x.strand.latchHits).getD 0).sum
  let hold := (g.map Cand.hold).sum
  let vec := g.any fun x => (x.instr.map fun i => !(vreads i).isEmpty).getD false
  let divs := (g.filter fun x => (x.instr.map divides).getD false).length
  let slots := g.map (·.slot)
  let fused := decide (2 ≤ slots.length)
  let s := s.modCore core fun k =>
    { k.agedAll slots fused with
      ptr := (k.ptr + 1) % 64
      readUntil := if vec then k.cc + toWord (1 + hold) else k.readUntil
      readSlot := if vec then slots.headD 0 else k.readSlot
      dividers := (k.dividers.filter fun t => decide (k.cc < t)) ++ List.replicate divs (k.cc + 34) }
  let walks := g.all fun x => x.instr.isNone && s.fetch core x.strand == .miss
  let s := if walks then s.count core 7 1 else s.count core 1 1
  let s := if fused then (s.count core 3 1).count core 4 (slots.length - 1) else s
  { (s.count core 5 hold).count core 6 hits with
    issuing := (numsWhere 64 slots.contains).map fun n => (core, n) }

/-- ISSUE_GROUP (07 R180): one issue opportunity of a core in RUN. What is due comes first. The members execute in the
steps that follow, in ascending slot order (07 R182). -/
def execIssueGroup (core : Nat) (s : State) : Host.Outcome State Fault Refusal :=
  .next (
    if (s.core core).phase != .run || (s.clu (coreClu core)).power != .up then s
    else
      let s := (s.cycle core).dueAt core
      let k := s.core core
      s.issueGroup core (k.group (k.slots.filterMap fun e => s.cand core e.1 e.2)))

/-! ### Instructions that go on (04 Table 04.7) -/

/-- Whether an instruction of a strand has issued, has not retired, and waits for nothing but its core: for a translation or an
element that has come, or for earlier accesses. -/
def Strand.inHand (p : Strand) : Bool := p.walk.isNone && (p.st == .issuing || p.st == .waiting .retry)

/-- The instruction in hand of the strand in a slot goes on, in RUN and in QUIESCE (04 R113): its word is read again (log 28). -/
def State.goOn (s : State) (c sl : Nat) : State :=
  let k := s.core c
  match tfind k.slots sl with
  | some p =>
    if p.inHand && (k.phase == .run || k.phase == .quiesce) && (s.clu (coreClu c)).power == .up && s.fetch c p != .absent then
      { s with issuing := s.issuing ++ [(c, sl)] }
    else s
  | none => s

/-! ### Faults (04 R109, R111, R112) -/

/-- The lowest free fault holder. -/
def Core.freeHolder (k : Core) : Option Nat := (List.range 4).find? fun n => (tfind k.holders n).isNone

/-- Whether a fault ends the context instead of starting a handler: UNREACHABLE (04 Table 04.9), a fault of a fault
handler (04 R101), or a launch with no fault handler (18 R412). -/
def State.endsContext (s : State) (p : Strand) (f : FaultRec) : Bool :=
  f.code == .unreachable || p.kind == .handler || (s.launchOf p).fault == 0

/-- Whether the fault of the strand in a slot may be delivered: a divergence and the fault of a stopped strand are
delivered to nobody (17 R395, 19 R427). -/
def State.deliverable (s : State) (c : Nat) (p : Strand → FaultRec → Bool) (sl : Nat) : Bool :=
  match s.strand? c sl with
  | some q => !q.stopped && match q.st with | .faulted f => f.code != .replayDiverge && p q f | _ => false
  | none => false

/-- The strand whose fault is delivered next: one that ends the context, which needs no holder, else the oldest, in the
order in which they were raised. -/
def State.nextFault (s : State) (c : Nat) : Option Nat :=
  let q := (s.core c).faultQ
  match q.find? (s.deliverable c s.endsContext) with
  | some sl => some sl
  | none => q.find? (s.deliverable c fun _ _ => true)

/-- FAULT_DELIVERY (04 R111, R112): the oldest fault of a core takes a free holder once the faulted strand's stores have
been performed (15 R358) and its loads have returned. -/
def execFaultDelivery (core : Nat) (s : State) : Host.Outcome State Fault Refusal :=
  .next (
    let k := s.core core
    match s.nextFault core with
    | none => s
    | some sl =>
      if k.phase != .run then s
      else
        match s.strand? core sl with
        | none => s
        | some p =>
          match p.st with
          | .faulted f =>
            if s.endsContext p f then s.endContext p.asid.toNat f.code.num p.sid
            else if !s.storesDone p.own || !s.loadsBack p.own then s
            else
              match k.freeHolder with
              | none => s
              | some h => (s.takeFault core sl h p f).faultGangs core p.own
          | _ => s)

/-- DEFERRED_FAULT (04 R109): at the next boundary of its owner a deferred fault is raised, before the next instruction
issues. A number of 64 and above names a park entry. -/
def execDeferredFault (core slot : Nat) (s : State) : Host.Outcome State Fault Refusal :=
  .next (
    let pl := placeOf slot
    match s.strandIn core pl with
    | some p => if (s.core core).phase != .run then s else s.takeDeferred core pl p
    | none => s)

end Sys2Proof.Machine
end

