-- ==== Sys2Proof/Machine/Dispatcher.lean ====
section
/-! DEFINITION. The dispatcher of a chiplet: placements and steals (11 R303 to R305; 17 Tables 17.5 to 17.7). -/

namespace Sys2Proof.Machine

/-! ### Where a strand may be placed (11 R304) -/

/-- Whether a core has a free slot that no earlier claimant takes (07 Table 07.1). -/
def State.openSlot (s : State) (c : Nat) : Bool :=
  let k := s.core c
  k.freeSlot.isSome && (s.firstClaims c).isEmpty && k.migQ.isEmpty && k.spillQ.isEmpty && k.inbuf.isEmpty

/-- Live strands of a launch on a core. -/
def Core.strandsOf (k : Core) (asid : Nat) (lh : BitVec 32) : Nat :=
  (k.allStrands.filter fun p => p.asid.toNat == asid && p.lh == lh).length

/-- Whether the dispatcher of a site may place strands of a context on a core. -/
def State.mayPlace (s : State) (asid c : Nat) : Bool :=
  let k := s.core c
  s.liveCore c && !s.isPager c && k.running && k.ctxv && k.asid == asid && (s.clu (coreClu c)).power == .up

/-- Best core of a site for a strand of a launch: a free slot, the fewest strands of the launch, the lowest logical number;
`cap` limits the strands of the launch. -/
def State.bestCore (s : State) (site asid : Nat) (lh : BitVec 32) (cap : Option Nat) : Option Nat :=
  let n (c : Nat) : Nat := (s.core c).strandsOf asid lh
  let ok (c : Nat) : Bool :=
    s.mayPlace asid c && s.openSlot c && match cap with | some m => decide (n c < m) | none => true
  ((s.siteCores site).filter ok).foldl (fun (r : Option Nat) c =>
    match r with
    | some b =>
      if n c < n b || (n c == n b && decide ((s.core c).lcore.toNat < (s.core b).lcore.toNat)) then some c else some b
    | none => some c) none

/-! ### Records -/

/-- Op digest of a PLACE, a STEAL or a LAUNCH (17 R389). -/
def launchDigest (type : Nat) (ln : BitVec 30) (more : List Word) : BitVec 32 := opDigest type 0 (ln.setWidth 64 :: more)

/-- The presentation of a placement (17 Table 17.5, PLACE); `ix` is none for a SPAWN child. -/
def State.placePresent (s : State) (site c : Nat) (p : Strand) (ix : Option Nat) : Present :=
  let l := s.launchOf p
  { asid := p.asid.toNat, lane := s.dispLane site, type := 0x0C, sid := p.sid, ord := 0, opd := launchDigest 0x0C l.ln [],
    aux := toWord ((s.core c).lcore.toNat * 2 ^ 48 + l.slot * 2 ^ 32 + (ix.getD 0xFFFFFFFF) % 2 ^ 32), kind := .decision, val := 0 }

/-- The presentation of a steal's answer (17 Table 17.5, STEAL). -/
def State.stealPresent (s : State) (t : Steal) (first count : Nat) : Present :=
  { asid := t.asid, lane := s.dispLane t.victim, type := 0x0D, sid := 0,
    ord := (s.site t.thief).lchip.setWidth 32, opd := launchDigest 0x0D t.ln [],
    aux := toWord (first * 2 ^ 32 + count), kind := .decision, val := 0 }

/-! ### Placements -/

/-- A launch's range at a dispatcher. -/
def Chiplet.range (h : Chiplet) (asid : Nat) (lh : BitVec 32) : Option DispRange :=
  h.ranges.find? fun r => r.asid == asid && r.lh == lh

/-- Changes a range of a dispatcher. -/
def State.modRange (s : State) (site asid : Nat) (lh : BitVec 32) (f : DispRange → DispRange) : State :=
  s.modChip site fun h => { h with ranges := mapWhere (fun r => r.asid == asid && r.lh == lh) f h.ranges }

/-- A strand is placed on a core whose slot is free, with its record. -/
def State.place (s : State) (site c sl : Nat) (p : Strand) (ix : Option Nat) : State :=
  (s.logged (s.placePresent site c p ix) 0).occupy c sl p

/-- Indices placed before the first leave the front of a range; the count bounds them. -/
def DispRange.skip : Nat → DispRange → DispRange
  | 0, r => r
  | k + 1, r => if r.n != 0 && r.out.contains r.s then DispRange.skip k { r with s := r.s + 1, n := r.n - 1, out := r.out.erase r.s } else r

/-- A range after one of its indices is placed. -/
def DispRange.take (r : DispRange) (i : Nat) : DispRange :=
  if i = r.s then DispRange.skip r.out.length { r with s := r.s + 1, n := r.n - 1 } else { r with out := i :: r.out }

/-- Whether a range holds an index. -/
def DispRange.holds (r : DispRange) (i : Nat) : Bool := decide (r.s ≤ i) && decide (i < r.s + r.n) && !r.out.contains i

/-- Places a launch index of a range on a core. -/
def State.placeIndex (s : State) (site c sl : Nat) (r : DispRange) (i : Nat) : State :=
  let p := s.launchedStrand r.asid r.lh i
  (s.place site c sl p (some i)).modRange site r.asid r.lh fun r => r.take i

/-- Places a queued child on a core; a SPAWN that waits for room in the queue executes again (06 R171). -/
def State.placeQueued (s : State) (site c sl : Nat) (p : Strand) : State :=
  let s := s.modChip site fun h => { h with children := h.children.erase p }
  let s := s.place site c sl p none
  (s.siteCores site).foldl (fun (s : State) c => s.retryWhere c fun w => w == .spawn) s

/-- What a dispatcher places next outside REPLAY: the first queued child that a core can take, else the first index of the
oldest launch that a core can take (11 R304). A full lane places nothing (17 R396). -/
def State.nextPlacement (s : State) (site : Nat) : Option (Nat × Sum Strand DispRange) :=
  let h := s.chip site
  let free (asid : Nat) : Bool :=
    match (s.ctx asid).mode with
    | .off => true
    | .record => !s.laneFull asid (s.dispLane site) 0
    | .replay => false
  let kid (p : Strand) : Option (Nat × Sum Strand DispRange) :=
    if free p.asid.toNat then (s.bestCore site p.asid.toNat p.lh none).map fun c => (c, .inl p) else none
  let ix (r : DispRange) : Option (Nat × Sum Strand DispRange) :=
    if r.n != 0 && free r.asid then
      (s.bestCore site r.asid r.lh (some (s.launch r.asid r.lh.toNat).cap)).map fun c => (c, .inr r)
    else none
  match h.children.findSome? kid with
  | some x => some x
  | none => h.ranges.findSome? ix

/-- The gated cluster with a core that could take what a dispatcher has to place: the dispatcher requests its wake (18 R416). -/
def State.wanted (s : State) (site : Nat) : Option Nat :=
  let h := s.chip site
  let asks (asid : Nat) : Bool := h.children.any (fun p => p.asid.toNat == asid) || h.ranges.any fun r => r.asid == asid && r.n != 0
  ((s.siteCores site).find? fun c =>
    let k := s.core c
    !s.isPager c && k.running && k.ctxv && (s.clu (coreClu c)).power == .gated && asks k.asid).map coreClu

/-- A dispatcher that can place nothing requests the wake of such a cluster. -/
def State.wakeWanted (s : State) (site : Nat) : State := match s.wanted site with | some k => s.wake k | none => s

/-! ### REPLAY (17 Table 17.7) -/

/-- Whether some dispatcher, or a steal on its way, holds an index of a launch. -/
def State.indexHeld (s : State) (asid : Nat) (lh : BitVec 32) (i : Nat) : Bool :=
  (s.chiplets.any fun e => e.2.ranges.any fun r => r.asid == asid && r.lh == lh && r.holds i) ||
    s.steals.any fun t => t.asid == asid && t.lh == lh &&
      match t.ans with | some (a, n) => decide (a ≤ i) && decide (i < a + n) | none => false

/-- A divergence of a dispatcher: no strand presents, and the decision it computed is not given (log 18). -/
def State.divergeUnit (s : State) (asid lane type sub : Nat) (opd : BitVec 32) : State :=
  let p : Present :=
    { asid, lane, type, sid := 0, ord := 0, opd, aux := Config.freeWord s.fresh, kind := .decision, val := Config.freeWord s.fresh }
  s.tick.diverge p sub 0xFFFF 0 WordId.none

/-- Whether REPLAY still waits for an index that a dispatcher does not hold: another dispatcher's range or a steal holds it, or
its launch has not issued (17 Table 17.7). `opd` is the op digest of a record of a type. -/
def State.awaitsIndex (s : State) (asid type : Nat) (opd : BitVec 32) (i : Nat) : Bool :=
  let x := s.ctx asid
  match x.launches.find? fun e => launchDigest type e.2.ln [] == opd with
  | some e => s.indexHeld asid (BitVec.ofNat 32 e.1) i
  | none => !(List.range x.nextLn.toNat).any fun n => launchDigest type (BitVec.ofNat 30 n) [] == opd

/-- Places the strand of a PLACE record on the core that the record names, when a slot is free there. LN names the launch: a
replay may give it another launch slot (18 R412; log 26). -/
def State.replayPlace (s : State) (site asid e : Nat) : State :=
  let lane := s.dispLane site
  let opd := BitVec.ofNat 32 (bitsOf e 160 32)
  let aux := bitsOf e 192 64
  let i := aux % 2 ^ 32
  match s.coreOfL site (bitsOf aux 48 16) with
  | none => s.divergeUnit asid lane 0x0C 0x83 opd
  | some c =>
    if !s.mayPlace asid c then s
    else if i = 0xFFFFFFFF then
      match (s.chip site).children.find? fun p => p.asid.toNat == asid && p.sid.toNat == bitsOf e 64 64 with
      | none => s
      | some p =>
        if launchDigest 0x0C (s.launchOf p).ln [] ≠ opd then s.divergeUnit asid lane 0x0C 0x81 opd
        else
          let (s, sl) := s.claimSlot c
          match sl with
          | some n => s.placeQueued site c n p
          | none => s
    else
      let mine (r : DispRange) : Bool := r.asid == asid && launchDigest 0x0C (s.launch r.asid r.lh.toNat).ln [] == opd
      match (s.chip site).ranges.find? mine with
      | none => if s.awaitsIndex asid 0x0C opd i then s else s.divergeUnit asid lane 0x0C 0x83 opd
      | some r =>
        if r.holds i then
          if (s.launchedStrand asid r.lh i).sid.toNat ≠ bitsOf e 64 64 then s.divergeUnit asid lane 0x0C 0x83 opd
          else
            let (s, sl) := s.claimSlot c
            match sl with
            | some n => s.placeIndex site c n r i
            | none => s
        else if s.indexHeld asid r.lh i then s
        else s.divergeUnit asid lane 0x0C 0x83 opd

/-- A STEAL record: the recorded range leaves for the thief, or an empty reply; a range that is still on its way to the victim is
waited for. -/
def State.replaySteal (s : State) (site asid e : Nat) : State :=
  let lane := s.dispLane site
  let opd := BitVec.ofNat 32 (bitsOf e 160 32)
  let first := bitsOf e 224 32
  let count := bitsOf e 192 32
  let mine (r : DispRange) : Bool := r.asid == asid && launchDigest 0x0D (s.launch r.asid r.lh.toNat).ln [] == opd
  let empty : Present := { asid, lane, type := 0x0D, sid := 0, ord := 0, opd, aux := 0, kind := .decision, val := 0 }
  if count = 0 then s.logged empty fFail
  else
  match (s.chip site).ranges.find? mine, s.chipOfL site (bitsOf e 128 32) with
  | some r, some thief =>
    let t : Steal := { id := s.fresh, asid, lh := r.lh, ln := (s.launch asid r.lh.toNat).ln, thief, victim := site, ans := some (first, count) }
    if !r.holds first && s.indexHeld asid r.lh first then s
    else if first < r.s || first + count ≠ r.s + r.n || r.out.any (fun i => decide (first ≤ i)) then s.divergeUnit asid lane 0x0D 0x83 opd
    else
      let s := (s.logged (s.stealPresent t first count) 0).modRange site asid r.lh fun r => { r with n := first - r.s }
      State.tick { s with steals := s.steals ++ [t] }
  | none, _ => if s.awaitsIndex asid 0x0D opd first then s else s.divergeUnit asid lane 0x0D 0x83 opd
  | _, none => s.divergeUnit asid lane 0x0D 0x83 opd

/-- The contexts in REPLAY that have cores on a site. -/
def State.replayContexts (s : State) (site : Nat) : List Nat :=
  (((s.siteCores site).filter fun c => (s.core c).ctxv && (s.ctx (s.core c).asid).mode == .replay).map
    fun c => (s.core c).asid).dedup

/-- The record that directs a dispatcher in REPLAY: that at RP of its lane, when it is a PLACE or a STEAL. -/
def State.directed (s : State) (site : Nat) : Option (Nat × Nat) :=
  (s.replayContexts site).findSome? fun asid =>
    if (s.ctx asid).stop then none
    else
      match s.headRec asid (s.dispLane site) with
      | some e => if bitsOf e 0 8 = 0x0C || bitsOf e 0 8 = 0x0D then some (asid, e) else none
      | none => none

/-- DISPATCHER_PLACEMENT (11 R304): one placement; in REPLAY the dispatcher follows its records. -/
def execDispatcherPlacement (site : Nat) (s : State) : Host.Outcome State Fault Refusal :=
  .next (
    match s.nextPlacement site with
    | some (c, x) =>
      match (s.core c).freeSlot, x with
      | some sl, .inl p => s.placeQueued site c sl p
      | some sl, .inr r => s.placeIndex site c sl r r.s
      | none, _ => s
    | none =>
      match s.directed site with
      | some (asid, e) =>
        if bitsOf e 0 8 = 0x0C then (s.wakeWanted site).replayPlace site asid e else s.replaySteal site asid e
      | none => s.wakeWanted site)

/-! ### Steals (11 R305) -/

/-- The chiplet that the next request of a thief asks: the set in the order of ranks after its own. -/
def State.victim (s : State) (site : Nat) (r : DispRange) : Option Nat :=
  let chips := (s.launch r.asid r.lh.toNat).chips
  match indexWhere (fun l => l == (s.site site).lchip.toNat) chips 0 with
  | none => none
  | some rank => if r.asked + 1 < chips.length then (chips[(rank + 1 + r.asked) % chips.length]?).bind (s.chipOfL site) else none

/-- STEAL_REQUEST (11 R305): a dispatcher whose range of a launch is empty, and which has a free slot below the cap, asks
its victim. In REPLAY none is sent (17 Table 17.7). -/
def execStealRequest (site asid lh : Nat) (s : State) : Host.Outcome State Fault Refusal :=
  .next (
    let lh := BitVec.ofNat 32 lh
    match (s.chip site).range asid lh with
    | none => s
    | some r =>
      let cap := (s.launch asid lh.toNat).cap
      if r.n != 0 || r.asking || (s.ctx asid).mode == .replay || (s.bestCore site asid lh (some cap)).isNone then s
      else
        match s.victim site r with
        | none => s
        | some v =>
          let t : Steal := { id := s.fresh, asid, lh, ln := (s.launch asid lh.toNat).ln, thief := site, victim := v, ans := none }
          (State.tick { s with steals := s.steals ++ [t] }).modRange site asid lh fun r => { r with asking := true })

/-- STEAL_ANSWER (11 R305): the victim gives up the upper half of its range, with its record. -/
def execStealAnswer (id : Nat) (s : State) : Host.Outcome State Fault Refusal :=
  .next (
    match s.steals.find? fun t => t.id == id && t.ans.isNone with
    | none => s
    | some t =>
      let (a, n) := match (s.chip t.victim).range t.asid t.lh with | some r => (r.s, r.n) | none => (0, 0)
      let h := n / 2
      let p := s.stealPresent t (a + n - h) h
      if s.verdict p != .go then s
      else
        let s := (s.logged p (if h = 0 then fFail else 0)).modRange t.victim t.asid t.lh fun r => { r with n := r.n - h }
        { s with steals := mapWhere (fun t => t.id == id) (fun t => { t with ans := some (a + n - h, h) }) s.steals })

/-- STEAL_REPLY (11 R305): the thief receives a range, or asks the next rank after an empty reply. -/
def execStealReply (id : Nat) (s : State) : Host.Outcome State Fault Refusal :=
  .next (
    match s.steals.find? fun t => t.id == id with
    | none => s
    | some t =>
      match t.ans, (s.chip t.thief).range t.asid t.lh with
      | some (a, h), some r =>
        if r.n != 0 then s
        else
          let s := { s with steals := s.steals.filter fun t => t.id != id }
          s.modRange t.thief t.asid t.lh fun r =>
            if h = 0 then { r with asked := r.asked + 1, asking := false } else { r with s := a, n := h, asked := 0, asking := false }
      | some _, none => { s with steals := s.steals.filter fun t => t.id != id }
      | none, _ => s)

end Sys2Proof.Machine
end

