-- ==== Sys2Proof/Machine/Spine.lean ====
section
/-! DEFINITION. The Spine: contexts, firmware's register writes, kicks and slot mapping, packets and launches, and
attestation (16 R380, R381; 17 R382, R386; 18 R404 to R419). -/

namespace Sys2Proof.Machine

/-! ### Assignments (07 R196, 10 R262, 11 R286) -/

/-- A core as the assignment of a context leaves it: firmware's settings and the counts that no rule clears stay (07 R196;
19 R422, R436; log 6). -/
def Core.assigned (k : Core) (asid : Nat) (sec : Bool) (quota : Nat) : Core :=
  { Core.blank with
    lcore := k.lcore, cfg := coreCfg asid sec (wfld k.cfg 0 2), savea := k.savea, saves := k.saves, fdis := k.fdis,
    ptr := k.ptr, cc := k.cc, quota, wp := k.wp, dlyCfg := k.dlyCfg, dlyKey := k.dlyKey }

/-- A core is assigned to a context: the writes of its last context and those to it have landed, and its scratchpad is zero
outside its donation. -/
def State.assignCore (s : State) (c asid : Nat) (sec : Bool) : State :=
  let s := s.landWrites fun w => w.core == c || w.cells.any fun e => locTag e.1 == 1 && locUnit e.1 == c
  let s := s.stash c
  let s := s.modCore c fun k => k.assigned asid sec (s.ctx asid).quota
  { s with mem := memClear s.mem (locCore c 0) (s.coreWin c) }

/-- A cluster is assigned to a context; its TLB keeps its entries. A gated cluster is woken (18 R416). -/
def State.assignClu (s : State) (k asid : Nat) (sec : Bool) : State :=
  let s := s.landWrites fun w => w.cells.any fun e => locTag e.1 == 2 && locUnit e.1 == k
  let s := s.modClu k fun u =>
    { u with cfg := coreCfg asid sec 0, icache := [], gangs := Cluster.blank.gangs, bars := Cluster.blank.bars,
             ctrs := Cluster.blank.ctrs }
  State.wake { s with mem := memClear s.mem (locClu k 0) cluBytes } k

/-- The first context of a chiplet: its scratchpad is zero. -/
def State.assignChip (s : State) (n : Nat) (sec : Bool) : State :=
  if s.siteBusy n then s
  else
    let s := s.landWrites fun w => w.cells.any fun e => locTag e.1 == 3 && locUnit e.1 == n
    { s.modChip n (fun h => { h with sec }) with mem := memClear s.mem (locChip n 0) chipBytes }

/-- Whether a cluster has no assignment. -/
def State.cluFree (s : State) (k : Nat) : Bool :=
  !(s.clu k).cfg.getLsbD 29 && (locsFrom (4 * k) 4).all fun c => !(s.core c).ctxv

/-- A context is assigned to every free cluster of its partition, and to its cores but for the pager core, which is
firmware's (11 R306; log 20). -/
def State.assignAll (s : State) (asid : Nat) : State :=
  let x := s.ctx asid
  let p := s.partn x.part
  let clus := p.chips.flatMap fun n => (locsFrom (4 * n) (cluCount (s.site n).kind)).filter s.cluFree
  let s := (clus.map cluSite).dedup.foldl (fun (s : State) n => s.assignChip n x.sec) s
  clus.foldl (fun (s : State) k =>
    let s := s.assignClu k asid x.sec
    ((locsFrom (4 * k) 4).filter fun c => s.liveCore c && !s.isPager c && p.cores.contains c).foldl
      (fun (s : State) c => s.assignCore c asid x.sec) s) s

/-! ### Creation and end of a context (18 R404; 17 R382, R386) -/

/-- Items of the shape digest (17 R386). -/
def State.shapeItems (s : State) (p : Partition) : List Word :=
  let chip (l : Nat) : List Word :=
    [toWord (s.chipMap p l / 2 ^ 13 * 2 ^ 13), toWord ((s.site (nth 0 p.chips l)).cores.toNat)]
  toWord p.chips.length :: ((List.range p.chips.length).flatMap chip ++ [toWord p.donors.length, toWord p.donated])

/-- The shape digest of a partition (17 R386). -/
def State.shapeDigest (s : State) (p : Partition) : Word :=
  (s.shapeItems p).foldl (fun x y => round3 x y 0x96D34E2B71A5C80F) 0

/-- Locations of `n` physical bytes. -/
def State.physLocs (s : State) (pa n : Nat) : List Nat := (List.range n).map fun i => (s.physLoc (pa + i)).getD 0

/-- Bytes of a ring: its header and a segment for each lane (17 R385). -/
def ringBytes (p : Partition) (segLog : Nat) : Nat := 0x10000 + (2 + 6 * p.chips.length + p.cores.length) * 32 * 2 ^ segLog

/-- Whether a ring lies on HBM4E pages of a partition, at a 64 KiB boundary (17 R385): the stack of its last byte and every one
before it are the partition's. -/
def State.ringOk (s : State) (part : Nat) (rb : Word) (segLog : Nat) : Bool :=
  let n := ringBytes (s.partn part) segLog
  decide (12 ≤ segLog) && decide (segLog ≤ 20) && rb.toNat % 0x10000 == 0 && inHbm rb.toNat n &&
    s.inPartition part (rb.toNat + n - 1) &&
    (List.range (n / 2 ^ 36 + 1)).all fun i => s.inPartition part (rb.toNat + i * 2 ^ 36)

/-- The ring header as firmware sets it up (17 Table 17.3), line by line, where its stacks hold it: the digest is written in RECORD,
and every byte behind it is zero. -/
def State.setRing (s : State) (asid : Nat) : State :=
  let x := s.ctx asid
  let p := s.partn x.part
  if x.mode = .off then s
  else
    let head := modeNum x.mode * 2 ^ 62 + x.segLog * 2 ^ 32 + (2 + 6 * p.chips.length + p.cores.length)
    let rb := x.rb.toNat
    let first := cellsOf (s.physLocs rb 8) head ++
      (if x.mode = .record then cellsOf (s.physLocs (rb + 8) 8) (s.shapeDigest p).toNat else []) ++
      cellsOf (s.physLocs (rb + 16) 48) 0
    let rest := (locsFrom 1 1023).map fun i => (s.physLoc (rb + 64 * i)).getD 0
    State.poke { s with
      mem := rest.foldl (fun m l => memClear m l 64) s.mem
      uncorr := s.uncorr.filter fun n => !rest.contains (64 * n) } first

/-- Whether firmware accepts a request for a context (18 R404): the ASID is free and not firmware's, the partition exists,
the quotas are in range, and the ring and, in REPLAY, its shape digest fit. -/
def State.accepts (s : State) (r : CtxReq) : Bool :=
  let p := s.partn r.part
  decide (0 < r.asid) && decide (r.asid < 4096) && (tfind s.ctxs r.asid).isNone && !p.chips.isEmpty &&
    decide (1 ≤ r.quota) && decide (r.quota ≤ 32) && decide (1 ≤ r.slotQuota) && decide (r.slotQuota ≤ 256) &&
    (r.mode == .off ||
      (s.ringOk r.part r.rb r.segLog &&
        (r.mode != .replay || memVal s.mem (s.physLocs (r.rb.toNat + 8) 8) == (s.shapeDigest p).toNat)))

/-- The record of a new context. -/
def newCtx (r : CtxReq) : Ctx :=
  { Ctx.blank with part := r.part, sec := r.sec, mode := r.mode, rb := r.rb, segLog := r.segLog, quota := r.quota,
                   slotQuota := r.slotQuota }

/-- Whether a control block is one that 18 R405 allows. -/
def qcbOk (b : Qcb) : Bool := decide (b.queue < 65536) && decide (4 ≤ b.n) && decide (b.n ≤ 16) && decide (b.prio ≤ 7)

/-- System software writes the control block of a queue of a context (18 R405): a queue number in use stays its context's, and
while the queue is mapped firmware keeps to what it has saved (log 41). -/
def State.writeQcb (s : State) (asid : Nat) (b : Qcb) : State :=
  if !qcbOk b || (tfind s.ctxs asid).isNone then s
  else
    match s.queue? b.queue with
    | none =>
      let q : Queue :=
        { asid, qcb := b, pending := false, comps := 0, open_ := [], writing := none, runnable := false, since := s.spine.time }
      s.modSpine fun z => { z with queues := tput z.queues b.queue q }
    | some x =>
      if x.asid = asid ∧ !s.spine.hw.any (fun e => e.2.queue == b.queue) then s.modQueue b.queue fun x => { x with qcb := b } else s

/-- The queues of a new context. -/
def State.addQueues (s : State) (r : CtxReq) : State := r.qcbs.foldl (fun (s : State) b => s.writeQcb r.asid b) s

/-- A strand with SUP or PAGER that firmware creates in a context (04 R92, 11 R306; log 20): on a core of the context, or with
PAGER on a pager core of its partition, which then serves the context. Its identity is not given, and it has a handle of its
own for its fault handler. -/
def State.createPrivileged (s : State) (asid : Nat) (f : FwStrand) : State :=
  let x := s.ctx asid
  match (s.partn x.part).cores[f.core]? with
  | none => s
  | some c =>
    let s := if s.isPager c && f.pager && !(s.core c).ctxv && s.liveCore c then s.assignCore c asid x.sec else s
    match (s.core c).freeSlot with
    | none => s
    | some sl =>
      if !(s.core c).ctxv || (s.core c).asid != asid || f.pager != s.isPager c then s
      else
        let l : Launch := { Launch.blank with slot := 16, entry := f.pc, fault := f.fault, ptype := 2 }
        let p : Strand :=
          { Strand.blank with
            pc := pcOf f.pc, asid := BitVec.ofNat 12 asid, sec := x.sec, sup := f.sup, pager := f.pager,
            g := vset (Vector.replicate 16 0) 0 f.arg, sid := Config.freeWord s.fresh, lidx := 0xFFFFFFFFFFFFFFFF, lh := x.nextLh }
        let s := s.modCtx asid fun x => { x with nextLh := x.nextLh + 1, launches := tput x.launches x.nextLh.toNat l }
        s.tick.occupy c sl p

/-- The bits that ASIDROOT holds (14 Table 14.7). -/
def rootMask : Word := toWord (2 ^ 55 - 2 ^ 16 + 3)

/-- CONTEXT_CREATE (18 R404): a request that firmware accepts makes a context; one that it refuses leaves nothing but the
report (17 R386). The request is answered (23 R453). -/
def execContextCreate (req : CtxReq) (s : State) : Host.Outcome State Fault Refusal :=
  .next (
    if !s.accepts req then State.respond { s with events := s.events ++ [.contextRefused req.asid] } false 0
    else
      let s := { s with ctxs := tput s.ctxs req.asid (newCtx req) }
      let s := s.modSpine fun z => { z with asidRoot := tput z.asidRoot req.asid (req.root &&& rootMask) }
      (req.privileged.foldl (fun (s : State) f => s.createPrivileged req.asid f)
        (((s.addQueues req).setRing req.asid).assignAll req.asid)).respond true 0)

/-- CONTEXT_END (18 R404): at system software's request, which is answered (23 R453), there is no fault code and no SID. -/
def execContextEnd (asid : Nat) (s : State) : Host.Outcome State Fault Refusal :=
  .next (if (tfind s.ctxs asid).isSome then (s.endContext asid 0 0).respond true 0 else s.respond false 0)

/-! ### Firmware's register writes (07 R197, 11 R312, 14 R343, 17 R402, 18 R420, 19 R437, 23 R470) -/

/-- Whether a value of CORECFG or CLUCFG assigns a secure block to a secure context only (18 R417). -/
def State.worldFits (s : State) (v : Word) : Bool := !v.getLsbD 28 || (s.ctx (wfld v 16 12)).sec

/-- CORECFG: an assignment, or its removal; the donation is the partition's (14 R336). -/
def State.writeCoreCfg (s : State) (c : Nat) (v : Word) : State :=
  let k := s.core c
  if v.getLsbD 29 then
    if !s.worldFits v || k.ctxv && k.asid == wfld v 16 12 then s
    else if k.ctxv && k.phase != .saved then s
    else (s.assignChip (coreSite c) (v.getLsbD 28)).assignCore c (wfld v 16 12) (v.getLsbD 28)
  else if k.phase == .saved then (s.stash c).modCore c Core.unassign
  else s.modCore c Core.unassign

/-- CLUCFG. -/
def State.writeCluCfg (s : State) (k : Nat) (v : Word) : State :=
  if v.getLsbD 29 then
    if !s.worldFits v || (s.clu k).cfg.getLsbD 29 && wfld (s.clu k).cfg 16 12 == wfld v 16 12 then s
    else s.assignClu k (wfld v 16 12) (v.getLsbD 28)
  else s.modClu k fun u => { u with cfg := 0 }

/-- SAVEA: only of a core that holds no assignment, or whose context is saved (07 R197, R200). -/
def State.writeSavea (s : State) (c : Nat) (v : Word) : State :=
  let pa := wfld v 22 33 * 2 ^ 22
  let k := s.core c
  if (k.ctxv && k.phase != .saved) || !inHbm pa (2 ^ 22) then s
  else (s.stash c).modCore c fun k => { k with savea := toWord pa }

/-- FIRMWARE_REGISTER_WRITE (14 R343): firmware writes a register of a unit: a core for 0x102, 0x103, 0x431 to 0x436
and 0x43A, a cluster for 0x200 and 0x201, a site for 0x300, a partition for 0x405, an ASID for 0x404, 0x438 and 0x439. A register that no rule lets
firmware write keeps its content; in recovery no firmware runs (18 R418). -/
def execFirmwareRegisterWrite (num : BitVec 12) (unit idx : Nat) (val : Word) (s : State) :
    Host.Outcome State Fault Refusal :=
  .next (
    if s.spine.recovery then s
    else
    match num.toNat with
    | 0x102 => s.writeCoreCfg unit val
    | 0x103 => s.writeSavea unit val
    | 0x200 => s.writeCluCfg unit val
    | 0x201 => if idx < 5 then s.modClu unit fun u => { u with tree := vset u.tree idx (val &&& 0x7FFFF) } else s
    | 0x300 => s.modChip unit fun h => { h with pagerCore := val.setWidth 16 }
    | 0x404 =>
      if unit < 4096 then
        s.modSpine fun z => { z with asidRoot := tput z.asidRoot unit (val &&& rootMask) }
      else s
    | 0x405 =>
      let p := s.partn unit
      let own := BitVec.ofNat 48 ((numsWhere 48 fun k => p.chips.contains (nth 0 stackSites k)).map (2 ^ ·)).sum
      { s with parts := tput s.parts unit { p with repset := val.setWidth 48 &&& own } }
    | 0x406 => s.modSpine fun z => { z with modules := wfld val 8 9, modNum := val.setWidth 8 }
    | 0x413 => s.modSpine fun z => { z with colTmo := val.setWidth 24 }
    | 0x423 => if idx < 36864 then s.modSpine fun z => { z with worlds := tput z.worlds idx val } else s
    | 0x431 => s.modCore unit fun k => { k with wp := vset k.wp idx { vget { ctl := 0, val := 0, hit := 0 } k.wp idx with ctl := val } }
    | 0x432 => s.modCore unit fun k => { k with wp := vset k.wp idx { vget { ctl := 0, val := 0, hit := 0 } k.wp idx with val := val } }
    | 0x433 =>
      s.modCore unit fun k =>
        { k with wp := vset k.wp idx { vget { ctl := 0, val := 0, hit := 0 } k.wp idx with hit := val.setWidth 32 } }
    | 0x434 => s.modCore unit fun k => { k with dlyCfg := val &&& toWord (2 ^ 64 - 2 ^ 32 + 1) }
    | 0x435 => if idx < 64 then s.modCore unit fun k => { k with dlyKey := tput k.dlyKey idx (val &&& 0x1FFFF) } else s
    | 0x436 => if idx < 256 then s.modCore unit fun k => { k with dlyAcc := tput k.dlyAcc idx val } else s
    | 0x438 =>
      if (tfind s.ctxs unit).isSome then s.modCtx unit fun x => { x with trcCfg := val &&& toWord (2 ^ 55 - 2 ^ 16 + 0x1F1F) }
      else s
    | 0x439 =>
      if (tfind s.ctxs unit).isSome then
        s.modCtx unit fun x => { x with trcWritten := val.extractLsb' 32 32, trcLost := val.setWidth 32 }
      else s
    | 0x43A => s.modCore unit fun k => { k with perf := vset k.perf idx val }
    | 0x441 =>
      if idx < 256 then
        s.modSpine fun z => { z with froute := tput z.froute idx (val &&& toWord (2 ^ 63 + 0xFF * 2 ^ 48 + 0xF3)) }
      else s
    | _ => s)

/-! ### Slot mapping (18 R413, R414) -/

/-- The hardware slot that a queue is mapped on. -/
def State.slotOf (s : State) (q : Nat) : Option Nat := (s.spine.hw.find? fun e => e.2.queue == q).map (·.1)

/-- The ns between two values of TIME. -/
def nsBetween (a b : Word) : Nat := (b - a).toNat

/-- Effective priority of an unmapped runnable queue that has waited some ns (18 R414). -/
def effPrio (p ns : Nat) : Nat := if p = 0 then 0 else p - Nat.min (ns / 20000) (p - 1)

/-- Unmaps a hardware slot: a timed launch that has not fired leaves it (16 R381). -/
def State.unmapSlot (s : State) (h : Nat) : State :=
  match tfind s.spine.hw h with
  | none => s
  | some w =>
    let now := s.spine.time
    (s.modQueue w.queue fun x => { x with since := now }).modSpine fun z => { z with hw := tdel z.hw h }

/-- Maps a queue on a hardware slot: its pending bit is served. -/
def State.mapSlot (s : State) (h q : Nat) : State :=
  match s.queue? q with
  | none => s
  | some x =>
    let w : HwSlot :=
      { queue := q, asid := x.asid, sec := (s.ctx x.asid).sec, fetched := [], mappedAt := s.spine.time, timed := none,
        held := false }
    (s.modQueue q fun x => { x with pending := false }).modSpine fun z => { z with hw := tput z.hw h w }

/-- The unmapped runnable queue of a context that comes first: lowest e, longest wait, lowest number. -/
def State.firstWaiting (s : State) (asid : Nat) : Option (Nat × Nat) :=
  let now := s.spine.time
  let l := (s.spine.queues.filter fun e => e.2.asid == asid && (s.slotOf e.1).isNone && e.2.runnable).map fun e =>
    (e.1, effPrio e.2.qcb.prio (nsBetween e.2.since now), nsBetween e.2.since now)
  (l.foldl (fun (r : Option (Nat × Nat × Nat)) a =>
    match r with
    | some b => if a.2.1 < b.2.1 || (a.2.1 == b.2.1 && decide (b.2.2 < a.2.2)) then some a else some b
    | none => some a) none).map fun a => (a.1, a.2.1)

/-- Whether a queue is within a packet, so that it stays mapped (18 R414). -/
def State.midPacket (s : State) (q : Nat) : Bool := ((s.queue? q).map fun x => x.writing.isSome).getD false

/-- The mapped queue that a queue of effective priority `e` and priority `p` displaces: highest e, longest mapped, highest
number. -/
def State.displaced (s : State) (asid p e : Nat) : Option Nat :=
  let now := s.spine.time
  let l := (s.spine.hw.filter fun h => h.2.asid == asid && !s.midPacket h.2.queue).filterMap fun h =>
    (s.queue? h.2.queue).map fun x => (h.1, x.qcb.prio, nsBetween h.2.mappedAt now, h.2.queue)
  let ok (a : Nat × Nat × Nat × Nat) : Bool := decide (e < a.2.1) && (if p = 0 then decide (1 ≤ a.2.1) else decide (20000 ≤ a.2.2.1))
  ((l.filter ok).foldl (fun (r : Option (Nat × Nat × Nat × Nat)) a =>
    match r with
    | some b =>
      if b.2.1 < a.2.1 || (a.2.1 == b.2.1 && (decide (b.2.2.1 < a.2.2.1) || (a.2.2.1 == b.2.2.1 && decide (b.2.2.2 < a.2.2.2))))
      then some a else some b
    | none => some a) none).map (·.1)

/-- Maps queues of a context until no swap qualifies; the count bounds the swaps. -/
def State.mapQueues (asid : Nat) : Nat → State → State
  | 0, s => s
  | n + 1, s =>
    match s.firstWaiting asid with
    | none => s
    | some (q, e) =>
      let mapped := (s.spine.hw.filter fun h => h.2.asid == asid).length
      let free := (List.range 256).find? fun h => (tfind s.spine.hw h).isNone
      let prio := ((s.queue? q).map (·.qcb.prio)).getD 7
      match (if mapped < (s.ctx asid).slotQuota then free else none) with
      | some h => State.mapQueues asid n (s.mapSlot h q)
      | none =>
        match s.displaced asid prio e with
        | some h => State.mapQueues asid n ((s.unmapSlot h).mapSlot h q)
        | none => s

/-- EPOCH (18 R414): a mapped queue that is no longer runnable is unmapped, and then each context's queues are mapped. -/
def execEpoch (s : State) : Host.Outcome State Fault Refusal :=
  .next (
    let s := s.markRunnable
    let idle := (s.spine.hw.filter fun h => !s.midPacket h.2.queue && !((s.queue? h.2.queue).map (·.runnable)).getD false).map (·.1)
    let s := idle.foldl (fun (s : State) h => s.unmapSlot h) s
    let s := s.ctxs.foldl (fun (s : State) e => State.mapQueues e.1 s.spine.queues.length s) s
    s.modSpine fun z => { z with lastEpoch := z.time })

/-- Firmware takes the control block that system software has written for a queue (18 R405). -/
def State.takeBlock (s : State) (queue : Nat) : State :=
  match tfind s.spine.blocks queue with
  | some (asid, b) =>
    let s := s.modSpine fun z => { z with blocks := tdel z.blocks queue }
    if b.queue = queue then s.writeQcb asid b else s
  | none => s

/-- KICK (18 R405, R413): a kick to an unmapped queue sets its pending bit, with the control block that system software wrote
before it, and an epoch follows; one to a mapped queue wakes its queue core, which fetches. -/
def execKick (queue : Nat) (s : State) : Host.Outcome State Fault Refusal :=
  .next (
    if (s.slotOf queue).isSome then s
    else
      let s := s.takeBlock queue
      match s.queue? queue with
      | none => s
      | some _ => { s.modQueue queue (fun x => { x with pending := true }) with agenda := .epoch :: s.agenda })

/-- DOORBELL_WRITE (23 R452): an 8-byte write of its own queue number to a doorbell is a kick; any other is dropped and
counted. -/
def execDoorbellWrite (offset bytes : Nat) (val : Word) (s : State) : Host.Outcome State Fault Refusal :=
  if bytes = 8 ∧ offset % 8 = 0 ∧ offset < 0x80000 ∧ val = toWord (offset / 8) then execKick (offset / 8) s
  else .next (s.modSpine fun z => { z with dropped := z.dropped + 1 })

/-! ### Packets (18 R406 to R408) -/

/-- A hardware slot with its queue. -/
def State.slotQueue (s : State) (h : Nat) : Option (HwSlot × Queue) :=
  match tfind s.spine.hw h with
  | some w => (s.queue? w.queue).map fun x => (w, x)
  | none => none

/-- Changes a hardware slot. -/
def State.modSlot (s : State) (h : Nat) (f : HwSlot → HwSlot) : State :=
  match tfind s.spine.hw h with
  | some w => s.modSpine fun z => { z with hw := tput z.hw h (f w) }
  | none => s

/-- PACKET_FETCH (18 R408): a mapped slot fetches the next valid packet, up to 16 ahead of the one at issue, which is the first
fetched. -/
def execPacketFetch (slot : Nat) (s : State) : Host.Outcome State Fault Refusal :=
  .next (
    match s.slotQueue slot with
    | none => s
    | some (w, x) =>
      let pos := x.qcb.readPos + w.fetched.length
      if 17 ≤ w.fetched.length || !s.packetValid x pos then s
      else
        let v := s.spineRead x.asid (x.qcb.ring + toWord (128 * (pos % 2 ^ x.qcb.n))) 128
        s.modSlot slot fun w => { w with fetched := w.fetched ++ [{ pos, bytes := BitVec.ofNat 1024 v }] })

/-- A field of a packet: `n` bytes from byte `i`. -/
def Packet.fld (p : Packet) (i n : Nat) : Nat := bitsOf p.bytes.toNat (8 * i) (8 * n)

/-- TYPE of a packet. -/
def Packet.type (p : Packet) : Nat := p.fld 0 1

/-- The packet at issue in a slot, when its header is unchanged and its FENCE holds (18 R406, R408). -/
def State.atIssue (s : State) (h : Nat) : Option (HwSlot × Queue × Packet) :=
  match s.slotQueue h with
  | none => none
  | some (w, x) =>
    match w.fetched with
    | [] => none
    | p :: _ =>
      if s.ringHeader x p.pos ≠ p.fld 0 8 then none
      else if bitsOf (p.fld 0 8) 9 1 = 1 && !x.open_.isEmpty then none
      else some (w, x, p)

/-- A packet whose header has changed is discarded with every later one (18 R408). -/
def State.refetch (s : State) (h : Nat) : State :=
  match s.slotQueue h with
  | none => s
  | some (w, x) =>
    match w.fetched with
    | [] => s
    | p :: _ => if s.ringHeader x p.pos ≠ p.fld 0 8 then s.modSlot h fun w => { w with fetched := [], timed := none, held := false } else s

/-- An issue of the packet of a slot: `go` when there is one of a type that it takes, else the fetched packets are checked. -/
def State.issuePacket (s : State) (h : Nat) (types : Nat → Bool) (go : HwSlot → Queue → Packet → State) : State :=
  match s.atIssue h with
  | some (w, x, p) => if types p.type then go w x p else s
  | none => s.refetch h

/-- A packet leaves its slot as issued; it stays unfinished until its completion. -/
def State.issued (s : State) (h : Nat) (w : HwSlot) (p : Packet) : State :=
  (s.modSlot h fun w => { w with fetched := w.fetched.drop 1, timed := none, held := false }).modQueue w.queue fun x =>
    { x with qcb := { x.qcb with readPos := p.pos + 1 }, writing := none,
             open_ := x.open_ ++ [{ pos := p.pos, tag := BitVec.ofNat 32 (p.fld 4 4), type := BitVec.ofNat 8 p.type }] }

/-- What the completion of a packet says. -/
def Packet.completion (p : Packet) (w : HwSlot) (status : Nat) (late : Bool) : Completion where
  asid := w.asid
  queue := w.queue
  pos := toWord p.pos
  tag := BitVec.ofNat 32 (p.fld 4 4)
  type := BitVec.ofNat 8 p.type
  status := status
  code := 0
  late := late
  notify := bitsOf (p.fld 0 8) 10 1 == 1

/-- A packet issues and completes at once. -/
def State.finishPacket (s : State) (h : Nat) (w : HwSlot) (p : Packet) (status : Nat) (late : Bool) : State :=
  (s.issued h w p).completePacket (p.completion w status late)

/-! ### Launches (18 R409 to R412) -/

/-- The lowest free launch slot of a context. -/
def Ctx.freeLaunch (x : Ctx) : Option Nat := (List.range 16).find? fun i => !(x.launches.any fun l => l.2.slot == i)

/-- Chiplet set of a launch packet. -/
def Packet.chips (p : Packet) : List Nat := numsWhere 304 fun j => (p.fld 16 38).testBit j

/-- Circular buffers for which a launch packet has an image, with the address of each. -/
def Packet.images (p : Packet) : List (Nat × Word) :=
  let cbs := numsWhere 16 fun i => (p.fld 14 2).testBit i
  (cbs.zip (List.range cbs.length)).map fun c => (c.1, toWord (p.fld 72 8) + toWord (512 + 32 * c.2))

/-- The descriptor that an image at an address gives (07 Table 07.6), with nobody waiting. -/
def State.imageAt (s : State) (asid : Nat) (a : Word) : CbDesc :=
  let w (i : Nat) : Word := toWord (s.spineRead asid (a + toWord (8 * i)) 8)
  { ((((CbDesc.blank.setWord 0 (w 0)).setWord 1 (w 1)).setWord 2 (w 2)).setWord 3 (w 3)) with waiters := 0, ready := [] }

/-- Cores of a context on some chiplets of its partition, as far as they are available to launches: a pager core is not (11 Table
11.1, R304; log 20). -/
def State.launchCores (s : State) (asid : Nat) (chips : List Nat) : List Nat :=
  let p := s.partn (s.ctx asid).part
  (s.coresOf asid).filter fun c => !s.isPager c && chips.any fun l => p.chips[l]? == some (coreSite c)

/-- Whether a saved image is one of a core of a launch that does other work meanwhile. -/
def State.launchLent (s : State) (asid : Nat) (chips : List Nat) (v : Saved) : Bool :=
  v.stashed && v.asid.toNat == asid && !s.isPager v.core &&
    chips.any fun l => (s.partn (s.ctx asid).part).chips[l]? == some (coreSite v.core)

/-- Whether some core of a launch is not in RUN (16 R381); one that does other work while its context is saved is not. -/
def State.launchAway (s : State) (asid : Nat) (chips : List Nat) : Bool :=
  ((s.launchCores asid chips).any fun c => (s.core c).phase != .run) || s.saved.any (s.launchLent asid chips)

/-- The cores of a launch with the descriptors that they have; those that do other work have them in their images. -/
def State.launchBuffers (s : State) (asid : Nat) (chips : List Nat) : List (Nat × Vector CbDesc 16) :=
  ((s.launchCores asid chips).map fun c => (c, (s.core c).cbd)) ++
    (s.saved.filter (s.launchLent asid chips)).map fun v => (v.core, v.image.cbd)

/-- The words of a descriptor as a save area holds them (07 Tables 07.6, 07.9). -/
def CbDesc.bits (d : CbDesc) : Nat := ((List.range 4).map fun i => (d.word i).toNat * 2 ^ (64 * i)).sum

/-- A descriptor goes to its place in a save area. -/
def State.areaCb (s : State) (savea : Word) (n : Nat) (d : CbDesc) : State :=
  s.poke (cellsOf (s.areaFrom savea (0x810 + 32 * n) 32) d.bits)

/-- A descriptor is set up on a core; one whose state lies in its save area has it there too, to be restored. -/
def State.setUpCore (s : State) (c n : Nat) (d : CbDesc) : State :=
  let k := s.core c
  let t := s.modCb c n fun _ => d
  if k.phase == .saved || k.phase == .restoring then t.areaCb k.savea n d else t

/-- The same in the images of a launch's cores that do other work. -/
def State.setUpLent (s : State) (asid : Nat) (chips : List Nat) (n : Nat) (d : CbDesc) : State :=
  let put (v : Saved) : Saved := { v with image := { v.image with cbd := vset v.image.cbd n d } }
  (s.saved.filter (s.launchLent asid chips)).foldl (fun (s : State) v => s.areaCb v.image.savea n d)
    { s with saved := mapWhere (s.launchLent asid chips) put s.saved }

/-- The descriptors of a launch are set up on every core of its chiplet set (02 R61, 18 R410). -/
def State.setUp (s : State) (asid : Nat) (chips : List Nat) (imgs : List (Nat × CbDesc)) : State :=
  imgs.foldl (fun (s : State) i =>
    ((s.launchCores asid chips).foldl (fun (s : State) c => s.setUpCore c i.1 i.2) s).setUpLent asid chips i.1 i.2) s

/-- Whether CBINIT would accept a descriptor on a core (08 R233, 18 R410). -/
def State.imageOk (s : State) (c : Nat) (d : CbDesc) : Bool :=
  d.level.toNat ≤ 2 && d.prod.toNat ≤ 3 && d.cons.toNat ≤ 2 && d.base.toNat % 64 == 0 && d.slotb != 0 && d.nslot != 0 &&
    decide (d.base.toNat + 64 * d.slotb.toNat * d.nslot.toNat ≤ s.levelSize c d.level)

/-- Colophon mode of a code (18 Table 18.2). -/
def colMode (n : Nat) : Option ColMode :=
  match n with
  | 0 => some .off
  | 1 => some .record
  | 2 => some .replay
  | _ => none

/-- Whether an address that a packet gives, 0 for none, is of a context's world. -/
def State.orNone (s : State) (asid v : Nat) : Bool := v == 0 || s.spineWorldOk asid (toWord v)

/-- Status of the first check that a launch packet fails, 0 when it fails none (18 R410). -/
def State.launchCheck (s : State) (x : Queue) (p : Packet) : Nat :=
  let a := x.asid
  let n := (s.partn (s.ctx a).part).chips.length
  let cap := p.fld 12 1
  let mode := colMode (p.fld 13 1 % 4)
  let cores := s.launchBuffers a p.chips
  let imgs := p.images.map fun i => (i.1, s.imageAt a i.2)
  let area := s.spineRangeOk a (toWord (p.fld 72 8)) (512 + 32 * p.images.length)
  if p.fld 8 4 = 0 || cap = 0 || 64 < cap || p.chips.isEmpty || p.chips.any (fun l => decide (n ≤ l)) || mode.isNone then 2
  else if mode ≠ some (s.ctx a).mode then 3
  else if !(s.spineWorldOk a (toWord (p.fld 56 8)) && s.orNone a (p.fld 64 8) && area && s.spineWorldOk a x.qcb.addr) then 4
  else if imgs.any (fun i => cores.any fun c => !s.imageOk c.1 i.2) then 2
  else if imgs.any (fun i => cores.any fun c =>
      let d := vget CbDesc.blank c.2 i.1
      d.valid && (d.waiters != 0 || d.claims != d.fills)) then 7
  else 0

/-- The words of a packet that its op digest folds (17 Table 17.6). -/
def Packet.digestWords (p : Packet) : List Word :=
  (List.range 16).map fun i =>
    let v := p.fld (8 * i) 8
    toWord (if i = 0 then v - bitsOf v 8 1 * 2 ^ 8 else if i = 1 then v - bitsOf v 40 2 * 2 ^ 40 else v)

/-- The presentation of a launch packet (17 Table 17.5, LAUNCH). -/
def State.launchPresent (s : State) (w : HwSlot) (p : Packet) : Present :=
  let ln := (s.ctx w.asid).nextLn
  { asid := w.asid, lane := launchLane, type := 0x0E, sid := 0, ord := ln.setWidth 32,
    opd := launchDigest 0x0E ln p.digestWords, aux := toWord (w.queue % 2 ^ 16 + p.pos % 2 ^ 32 * 2 ^ 16), kind := .other, val := 0 }

/-- Whether the launch lane lets a packet issue: a packet out of turn waits at its slot (17 Table 17.7). -/
def State.launchAdmit (s : State) (q : Present) : Admit :=
  match (s.ctx q.asid).mode, s.headRec q.asid launchLane with
  | .replay, some e => if bitsOf e 192 64 = q.aux.toNat then s.verdict q else .hold
  | _, _ => s.verdict q

/-- Loads a constant bank. -/
def State.loadBank (s : State) (asid : Nat) (lh : BitVec 32) (v : Nat) : State :=
  { s with mem := memWrite s.mem (cellsOf (locsFrom (locConst asid lh.toNat 0) 512) v) }

/-- A launch packet takes its number and handle, with its record. -/
def State.takeLaunch (s : State) (h : Nat) (w : HwSlot) (p : Packet) (l : Launch) : State :=
  let q := s.launchPresent w p
  let s := (s.issued h w p).logged q (if l.late then fLate else 0)
  s.modCtx w.asid fun x =>
    { x with nextLn := x.nextLn + 1, nextLh := x.nextLh + 1, launches := tput x.launches x.nextLh.toNat l }

/-- Every cluster of a context drops its instruction cache (01 R22, 10 R264). -/
def State.dropIcaches (s : State) (asid : Nat) : State :=
  { s with clusters := s.clusters.map fun e =>
      if e.2.cfg.getLsbD 29 && wfld e.2.cfg 16 12 == asid then (e.1, { e.2 with icache := [] }) else e }

/-- A ranged or timed launch that has passed its checks: its bank and descriptors are loaded, and each chiplet of its set
takes its share of the indices (11 R303). -/
def State.startLaunch (s : State) (h : Nat) (w : HwSlot) (p : Packet) (slot : Nat) (late : Bool) : State :=
  let a := w.asid
  let x := s.ctx a
  let lh := x.nextLh
  let chips := p.chips
  let count := p.fld 8 4
  let l : Launch :=
    { slot, ln := x.nextLn, entry := toWord (p.fld 56 8), fault := toWord (p.fld 64 8), seed := toWord (p.fld 80 8), chips,
      cap := p.fld 12 1, count, queue := w.queue, pos := toWord p.pos, tag := BitVec.ofNat 32 (p.fld 4 4),
      ptype := BitVec.ofNat 8 p.type, notify := bitsOf (p.fld 0 8) 10 1 == 1, late }
  let bank := s.spineRead a (toWord (p.fld 72 8)) 512
  let imgs := p.images.map fun i => (i.1, s.imageAt a i.2)
  let sites := (s.partn x.part).chips
  let s := (((s.takeLaunch h w p l).loadBank a lh bank).dropIcaches a).setUp a chips imgs
  (chips.zip (List.range chips.length)).foldl (fun (s : State) c =>
    let (st, n) := share count chips.length c.2
    let r : DispRange := { asid := a, lh, s := st, n, out := [], asked := 0, asking := false }
    s.modChip (nth 0 sites c.1) fun d => { d with ranges := d.ranges ++ [r] }) s

/-- A launch packet at issue: it completes with the status of the check that fails, waits for a launch slot or its lane, or
starts. -/
def State.launchPacket (s : State) (h : Nat) (w : HwSlot) (x : Queue) (p : Packet) (late : Bool) : State :=
  let st := s.launchCheck x p
  if st ≠ 0 then s.finishPacket h w p st late
  else
    match (s.ctx w.asid).freeLaunch with
    | none => s
    | some slot =>
      let q := s.launchPresent w p
      match s.launchAdmit q with
      | .hold => s.modSlot h fun w => { w with held := true }
      | .diverge sub => s.diverge q sub 0xFFFF 0 WordId.none
      | .go =>
        let late := if (s.ctx w.asid).mode = .replay then bitsOf (s.headFlags w.asid launchLane) 3 1 == 1 else late
        s.startLaunch h w p slot late

/-- Types that no rule knows complete with status 1 (18 R411). -/
def unknownType (t : Nat) : Bool := t == 0 || decide (6 < t)

/-- RANGED_LAUNCH (18 R410): the packet at issue in a slot, a ranged launch, or one of an unknown type. -/
def execRangedLaunch (slot : Nat) (s : State) : Host.Outcome State Fault Refusal :=
  .next (s.issuePacket slot (fun t => t == 1 || unknownType t) fun w x p =>
    if unknownType p.type then s.finishPacket slot w p 1 false else s.launchPacket slot w x p false)

/-- TIMED_LAUNCH (16 R380): the fetcher reaches a timed launch and holds it at the head of its slot. -/
def execTimedLaunch (slot : Nat) (s : State) : Host.Outcome State Fault Refusal :=
  .next (s.issuePacket slot (fun t => t == 3) fun w _ p =>
    let t := toWord (p.fld 96 8)
    if w.timed.isSome then s else s.modSlot slot fun w => { w with timed := some (t, decide (t < s.spine.time)) })

/-- TIMED_LAUNCH_FIRE (16 R380, R381): at its time, and while every core of its chiplet set is in RUN. In REPLAY the launch
lane alone says when. -/
def execTimedLaunchFire (slot : Nat) (s : State) : Host.Outcome State Fault Refusal :=
  .next (s.issuePacket slot (fun t => t == 3) fun w x p =>
    match w.timed with
    | none => s
    | some (t, past) =>
      let now := s.spine.time
      let replay := (s.ctx w.asid).mode == .replay
      if (now < t && !replay) || s.launchAway w.asid p.chips then s
      else s.launchPacket slot w x p (past || decide (t + 2000 < now)))

/-! ### The other packets (18 Table 18.3) -/

/-- Home core of a data address for an active-message launch (06 Table 06.3): global memory, or a scratchpad that the
address names by a logical number. -/
def State.dataHome (s : State) (asid : Nat) (a : Word) : Option Nat :=
  let first := ((s.partn (s.ctx asid).part).cores).headD 0
  match wfld a 56 8 with
  | 0x00 => (((s.spineLocs asid a 1).headD none).bind fun l => s.homeCore first l)
  | 0xF4 | 0xF5 =>
    match s.window first asid 0 (s.ctx asid).sec true a 1 with
    | .ok (.direct base _ _) => s.homeCore first (base + wfld a 0 24)
    | _ => none
  | _ => none

/-- The message of an active-message launch packet (18 Table 18.3, 04 R96). -/
def State.packetMsg (s : State) (asid : Nat) (x : Ctx) (p : Packet) : ActMsg where
  handler := toWord (p.fld 8 8)
  payload := Vector.ofFn fun i => if i.val < p.fld 72 1 then toWord (p.fld (24 + 8 * i.val) 8) else 0
  sid := toWord (x.nextLn.toNat * 2 ^ 32 + 0xFFFFFFFF)
  sent := s.spine.time
  ord := 0
  lh := x.nextLh
  lcore := 0xFFFF
  urg := p.fld 73 1 % 2 == 1
  pcnt := BitVec.ofNat 3 (p.fld 72 1)
  arrived := 0
  asid := BitVec.ofNat 12 asid
  sec := x.sec
  sup := false
  pager := false

/-- Whether a data address, global or in a scratchpad that it names by a logical number, is of a context's world (18 R417). -/
def State.dataWorldOk (s : State) (asid : Nat) (a : Word) : Bool :=
  let sec := (s.ctx asid).sec
  match s.window (((s.partn (s.ctx asid).part).cores).headD 0) asid 0 sec true a 1 with
  | .ok (.direct _ _ w) => w == sec
  | _ => s.spineWorldOk asid a

/-- Whether what an active-message packet names lies in the context's world: its handlers, its bank and its data address. -/
def State.msgWorldOk (s : State) (asid : Nat) (p : Packet) : Bool :=
  s.spineWorldOk asid (toWord (p.fld 8 8)) && s.orNone asid (p.fld 80 8) &&
    (p.fld 88 8 == 0 || s.spineRangeOk asid (toWord (p.fld 88 8)) 512) && s.dataWorldOk asid (toWord (p.fld 16 8))

/-- ACTIVE_MESSAGE_LAUNCH (18 Table 18.3, R412): the packet takes a launch number and handle, its bank is loaded, and its
message leaves the Spine. One whose handler is misaligned, whose PCNT exceeds 6 or whose address has no home core completes
with status 2 (log 20). -/
def execActiveMessageLaunch (slot : Nat) (s : State) : Host.Outcome State Fault Refusal :=
  .next (s.issuePacket slot (fun t => t == 2) fun w _ p =>
    let a := w.asid
    let x := s.ctx a
    match s.dataHome a (toWord (p.fld 16 8)) with
    | none => s.finishPacket slot w p 2 false
    | some dest =>
      if 6 < p.fld 72 1 || p.fld 8 8 % 4 ≠ 0 then s.finishPacket slot w p 2 false
      else if !s.msgWorldOk a p then s.finishPacket slot w p 4 false
      else
        let q := s.launchPresent w p
        match x.freeLaunch, s.launchAdmit q with
        | none, _ => s
        | _, .hold => s.modSlot slot fun w => { w with held := true }
        | _, .diverge sub => s.diverge q sub 0xFFFF 0 WordId.none
        | some n, .go =>
          let m := s.packetMsg a x p
          let l : Launch :=
            { Launch.blank with slot := n, ln := x.nextLn, fault := toWord (p.fld 80 8), queue := w.queue, pos := toWord p.pos,
                                tag := BitVec.ofNat 32 (p.fld 4 4), ptype := 2, notify := bitsOf (p.fld 0 8) 10 1 == 1 }
          let bank := if p.fld 88 8 = 0 then 0 else s.spineRead a (toWord (p.fld 88 8)) 512
          let code := 0xC0 * 2 ^ 19 + m.urg.toNat * 2 ^ 7 + m.pcnt.toNat * 2 ^ 4
          let op : SendOp :=
            { id := s.fresh, core := 0, slot := 0, packet := some p.pos, dest, msg := m, d := .none, opd := sendDigest code m,
              stage := .toDest, pc := 0, word := WordId.none, route := 0, sent := s.fresh, rsp := (0, 0) }
          let s := (s.takeLaunch slot w p l).loadBank a x.nextLh bank
          State.tick { s with sends := s.sends ++ [op] })

/-- BARRIER (18 Table 18.3): issues when every earlier packet of its queue has completed. -/
def execBarrier (slot : Nat) (s : State) : Host.Outcome State Fault Refusal :=
  .next (s.issuePacket slot (fun t => t == 4) fun w x p => if x.open_.isEmpty then s.finishPacket slot w p 0 false else s)

/-- Whether every byte of a range of a context's memory is mapped. -/
def State.spineMapped (s : State) (asid : Nat) (a : Word) (n : Nat) : Bool := (s.spineLocs asid a n).all Option.isSome

/-- A packet that writes memory completes when its writes are performed: those to replicated pages take two steps (15 R359). -/
def State.finishWrites (s : State) (h : Nat) (w : HwSlot) (p : Packet) (agent : Nat) : State :=
  if s.agentWriting agent then s.modQueue w.queue fun x => { x with writing := some agent } else s.finishPacket h w p 0 false

/-- SIGNAL (18 Table 18.3): after every earlier packet, writes 8 bytes; it waits while the page is not mapped (log 20). -/
def execSignal (slot : Nat) (s : State) : Host.Outcome State Fault Refusal :=
  .next (s.issuePacket slot (fun t => t == 5) fun w x p =>
    let a := toWord (p.fld 8 8)
    if !x.open_.isEmpty then s
    else if let some n := x.writing then s.finishWrites slot w p n
    else if 2 ^ 55 < a.toNat + 8 then s.finishPacket slot w p 2 false
    else if !s.spineRangeOk w.asid a 8 then s.finishPacket slot w p 4 false
    else if !s.spineMapped w.asid a 8 then s
    else (s.spineWrite w.asid a 8 (p.fld 16 8)).finishWrites slot w p s.fresh)

/-- Whether an address lies in host memory (23 R454). -/
def isHost (a : Word) : Bool := wfld a 56 8 == 0xF8

/-- Whether `n` bytes from an address stay in global memory or in the host window. -/
def copyRange (a : Word) (n : Nat) : Bool :=
  if isHost a then decide (wfld a 0 56 + n ≤ 2 ^ 56) else decide (a.toNat + n ≤ 2 ^ 55)

/-- Bytes that a COPY reads; host memory is outside the module. -/
def State.copyRead (s : State) (asid : Nat) (a : Word) (n : Nat) : Nat :=
  if isHost a then leNat ((List.range n).map fun i => Config.hostByte s.fresh (a + toWord i)) else s.spineRead asid a n

/-- The watchpoints of what a COPY reads in the module. -/
def State.copyWatch (s : State) (asid : Nat) (a : Word) (n : Nat) : State := if isHost a then s else s.watchRead asid a n

/-- The writes of a COPY. -/
def State.copyWrite (s : State) (asid : Nat) (a : Word) (n v : Nat) : State :=
  if isHost a then { s with events := s.events ++ [.hostWrite a (leBytes n v)] } else s.spineWrite asid a n v

/-- COPY (18 Table 18.3, 23 R454): a 1-D copy by the Spine's engine, after every earlier packet. It waits while a page is
not mapped; an uncorrectable error in its source ends the context (log 20). -/
def execCopy (slot : Nat) (s : State) : Host.Outcome State Fault Refusal :=
  .next (s.issuePacket slot (fun t => t == 6) fun w x p =>
    let src := toWord (p.fld 8 8)
    let dst := toWord (p.fld 16 8)
    let n := p.fld 24 8
    let ok (a : Word) : Bool := isHost a || s.spineRangeOk w.asid a n
    let there (a : Word) : Bool := isHost a || s.spineMapped w.asid a n
    if !x.open_.isEmpty then s
    else if let some k := x.writing then s.finishWrites slot w p k
    else if !copyRange src n || !copyRange dst n then s.finishPacket slot w p 2 false
    else if !ok src || !ok dst then s.finishPacket slot w p 4 false
    else if !there src || !there dst then s
    else if !isHost src && (s.readLocs spineSite w.asid src n).any fun l => (l.map s.bad).getD false then
      s.endContext w.asid Code.memUncorr.num 0
    else (((s.copyWatch w.asid src n).copyWrite w.asid dst n (s.copyRead w.asid src n)).tick).finishWrites slot w p s.fresh)

/-! ### Status of a send (16 R365, 18 Table 18.3) -/

/-- The status of an active-message launch packet: accepted it completes, refused it is sent again, and a destination that
does not take it completes it with status 6. -/
def State.packetStatus (s : State) (m : SendOp) (st : BitVec 8) : State :=
  let a := m.msg.asid.toNat
  if st = 1 then s.modSend m.id fun m => { m with stage := .toDest }
  else
    let l := s.launch a m.msg.lh.toNat
    let s := { s with sends := s.sends.filter fun b => b.id != m.id }
    let s := s.completePacket
      { asid := a, queue := l.queue, pos := l.pos, tag := l.tag, type := l.ptype, status := if st = 0 then 0 else 6, code := 0,
        late := false, notify := l.notify }
    s.settleLaunch a m.msg.lh

/-- SEND_STATUS (16 R364, R365): the status of a send reaches its sender: the send retires, and its ordinal counts. -/
def execSendStatus (id : Nat) (s : State) : Host.Outcome State Fault Refusal :=
  .next (
    match s.sends.find? fun m => m.id == id with
    | none => s
    | some m =>
      match m.stage with
      | .status st =>
        if m.packet.isSome then s.packetStatus m st
        else
          match s.waiter m.core fun w => w == .reply id with
          | none => { s with sends := s.sends.filter fun b => b.id != id }
          | some (pl, _) =>
            if s.statusLost m || s.statusStuck m || s.behindRsp m.dest m.core m.msg.urg m.rsp then s
            else
            let s := { s with sends := s.sends.filter fun b => b.id != id }
            ((s.modPlace m.core pl Strand.countOp).endWait m.core pl m.d (st.setWidth 64)).settleLaunch m.msg.asid.toNat m.msg.lh
      | _ => s)

/-! ### Attestation (18 R419) -/

/-- What the measurement of the firmware image covers, as far as the model knows it: its version and serial. -/
def fwMeasured (f : FwImage) : List Word := [f.version.setWidth 64, f.serial.setWidth 64]

/-- What the route measurement covers: the ROUTE table of every core, in the order of partitions and logical numbers. -/
def State.routesMeasured (s : State) : List Word :=
  s.parts.flatMap fun e => e.2.cores.flatMap fun c => (List.range 320).map fun i => tget (toWord (3 * 2 ^ 62)) (s.chip (coreSite c)).route i

/-- What the partition measurement covers: SITEST of every site, CHIPMAP, POOLCFG and REPSET of every partition, and the world
table. -/
def State.partsMeasured (s : State) : List Word :=
  (List.range 324).map (fun n => toWord (s.site n).reg) ++
    (s.parts.flatMap fun e =>
      (List.range e.2.chips.length).map (fun l => toWord (s.chipMap e.2 l)) ++
        [poolCfg e.2 e.1, e.2.repset.setWidth 64]) ++
    (s.spine.worlds.flatMap fun e => [toWord e.1, e.2])

/-- ATTESTATION (18 R419): the secure element signs the report of Table 18.5. A measurement is a digest of what it covers, whose
writes make it anew; digests and signature are free values (log 14). In recovery nothing is signed (18 R418). -/
def execAttestation (nonce : BitVec 512) (s : State) : Host.Outcome State Fault Refusal :=
  .next (
    match s.spine.recovery, s.spine.fw with
    | false, some f =>
      let bits : BitVec 2304 :=
        Config.serial () ++ (0 : BitVec 48) ++ f.version ++ s.spine.time ++ Config.measurement s.partsMeasured ++
          Config.measurement s.routesMeasured ++ Config.measurement (fwMeasured f) ++ nonce
      State.tick { s with events := s.events ++ [.report bits (Config.signature s.fresh)] }
    | _, _ => s)

/-! ### Host ports and time (23 R455; 17 R403) -/

/-- HOST_PORT_FAILOVER (23 R455): a host port goes down; what was in flight on it is sent again once on the other. -/
def execHostPortFailover (port : Bool) (s : State) : Host.Outcome State Fault Refusal :=
  .next (s.modSpine fun z => if port then { z with port1 := false } else { z with port0 := false })

/-- HOST_PORT_UP (23 R455). -/
def execHostPortUp (port : Bool) (s : State) : Host.Outcome State Fault Refusal :=
  .next (s.modSpine fun z => if port then { z with port1 := true } else { z with port0 := true })

/-- TIME_DISCIPLINE (18 R403): the time unit corrects TIME; while a context is live only by slewing, never by a step (05 R141). -/
def execTimeDiscipline (delta : Int) (s : State) : Host.Outcome State Fault Refusal :=
  .next (s.modSpine fun z =>
    if s.ctxs.isEmpty then { z with time := z.time + wordInt delta, slew := 0 } else { z with slew := delta })

end Sys2Proof.Machine
end

