-- ==== Sys2Proof/Machine/Lanes.lean ====
section
/-! DEFINITION. Colophon lanes over time: held presentations, stalls, draining, filling and END (17 R391, R392, R396 to
R398). -/

namespace Sys2Proof.Machine

/-! ### Held presentations (17 R391, R392) -/

/-- The strands of a context that wait on a presentation at a lane: core, place, strand. -/
def State.heldStrands (s : State) (asid lane : Nat) : List (Nat × Place × Strand) :=
  (s.coresOf asid).flatMap fun c =>
    ((s.core c).strandsWhere fun t => t.wait? == some (.held lane)).map fun e => (c, e.1, e.2)

/-- How far behind RP the record of a presentation at a lane may stand: the arrivals of a gang that is open match the records from
RP on (10 R273). -/
def State.openArrivals (s : State) (asid lane : Nat) : List Nat :=
  let p := s.partn (s.ctx asid).part
  let i := lane % 0x2000
  0 :: if lane / 0x2000 = 1 then
    match p.chips[i / 4]? with
    | some t => (List.range 4).map fun g => (s.gang (4 * t + i % 4) g).arrived.length
    | none => []
  else []

/-- Whether a strand held at a lane may present again: in REPLAY at its record, or past the end of the recording; in
RECORD when the lane has room. -/
def State.mayPresent (s : State) (asid lane : Nat) (t : Strand) : Bool :=
  let x := s.ctx asid
  match x.mode with
  | .off => true
  | .record => !s.laneFull asid lane 0
  | .replay =>
    !x.stop &&
      (s.openArrivals asid lane).any fun k =>
        match s.recordAt asid lane k with
        | some e => bitsOf e 64 64 == t.sid.toNat && bitsOf e 128 32 == t.sord.toNat
        | none => x.endSet

/-- PRESENTATION (17 R391): the held presentations of a lane are examined again in arrival order; the first that the lane
lets on presents again, its strand executing its instruction. `id` is the number of its wait. -/
def execPresentation (id : Nat) (s : State) : Host.Outcome State Fault Refusal :=
  .next (
    let held (k : Core) : Option (Place × Strand × Nat) :=
      (k.strandsWhere fun t => t.waitNo == id).findSome? fun e =>
        match e.2.wait? with
        | some (.held lane) => some (e.1, e.2, lane)
        | _ => none
    match s.cores.findSome? fun e => (held e.2).map fun x => (e.1, x) with
    | none => s
    | some (c, pl, t, lane) =>
      let asid := t.asid.toNat
      let ahead := (s.heldStrands asid lane).any fun e => decide (e.2.2.waitNo < id) && s.mayPresent asid lane e.2.2
      if (s.core c).phase != .run || !s.mayPresent asid lane t || ahead then s else s.modPlace c pl Strand.again)

/-- PRESENTATION_RESEND (17 R392): an operation that came back unperformed leaves its core again. -/
def execPresentationResend (id : Nat) (s : State) : Host.Outcome State Fault Refusal :=
  .next (
    (s.resendAtom id fun _ => true).modSend id fun m =>
      if m.stage == .returned && (m.packet.isSome || (s.core m.core).phase == .run) then
        { m with stage := .toDest, sent := s.fresh, route := if m.packet.isSome then m.route else s.route (coreSite m.core) (coreSite m.dest) }
      else m)

/-- Whether the presentation for which a parked strand waits is the next on its lane. -/
def State.nextOnLane (s : State) (t : Strand) : Bool :=
  match t.wait? with
  | some (.reply id) =>
    (s.atoms.any fun a => a.id == id && (a.heldUp || a.stage == .returned) && s.mayPresent a.asid (s.atomLaneOf a) t) ||
      s.sends.any fun m => m.id == id && m.stage == .returned && s.mayPresent m.msg.asid.toNat (s.coreLane m.dest) t
  | _ => false

/-- Parked strands whose presentation has become the next on its lane become restorable, and wait on in their slots (17 R394). -/
def State.readyParked (s : State) (c : Nat) : State :=
  (s.core c).park.foldl (fun (s : State) e =>
    if e.2.restorable.isNone && s.replayHeld e.2.strand && s.nextOnLane e.2.strand then
      (s.modCore c fun k => { k with park := tput k.park e.1 { e.2 with restorable := some s.fresh } }).tick
    else s) s

/-! ### Stalls (17 R396, R398) -/

/-- COLTMO in cycles of the core whose clock a lane counts (17 R402). -/
def State.stallLimit (s : State) (asid lane : Nat) : Nat :=
  let r := match s.laneClock asid lane with | some c => siteRegion (coreSite c) | none => siteRegion spineSite
  s.spine.colTmo.toNat * (s.region r).mhz.toNat

/-- REPLAY_STALL (17 R398): the record at RP has waited longer than COLTMO. No operation presents: the fields of one are
zero (17 Table 17.9), and the digests are not given (log 18). -/
def execReplayStall (asid lane : Nat) (s : State) : Host.Outcome State Fault Refusal :=
  .next (
    if (s.ctx asid).mode != .replay || !s.laneWaits asid lane || (s.laneOf asid lane).waited ≤ s.stallLimit asid lane
    then s
    else
      let p : Present :=
        { asid, lane, type := 0, sid := 0, ord := 0, opd := (Config.freeWord s.fresh).setWidth 32,
          aux := 0, kind := .other, val := Config.freeWord (s.fresh + 1) }
      s.tick.tick.diverge p 0x85 0xFFFF 0 WordId.none)

/-- LANE_STALL_REPORT (17 R396): a lane that has been full for longer than COLTMO is reported once. -/
def execLaneStallReport (asid lane : Nat) (s : State) : Host.Outcome State Fault Refusal :=
  .next (
    let l := s.laneOf asid lane
    if (s.ctx asid).mode != .record || !s.laneFull asid lane 0 || l.warned || l.waited ≤ s.stallLimit asid lane then s
    else
      let s := s.modLaneOf asid lane fun l => { l with warned := true }
      { s with events := s.events ++ [.laneStall asid lane] })

/-! ### Draining and filling (17 R396, R397) -/

/-- Records of a lane that firmware may drain: those that have reached the ring (17 R383), and on the PAS lane none from the first
whose lock is not yet answered, for its FAIL flag may still be set (16 R375; log 36). -/
def State.drainable (s : State) (asid lane : Nat) : Nat :=
  let l := s.laneOf asid lane
  let open_ := s.atoms.filterMap fun a =>
    match a.stage with | .locking _ r => if a.asid = asid ∧ lane = pasLane then some (r - l.q).toNat else none | _ => none
  open_.foldl Nat.min ((l.p - l.q).toNat - l.buf.length)

/-- LANE_DRAIN (17 R396): firmware copies up to `n` written records to the host and advances DP. -/
def execLaneDrain (asid lane n : Nat) (s : State) : Host.Outcome State Fault Refusal :=
  .next (
    if (s.ctx asid).mode != .record then s
    else
      let l := s.laneOf asid lane
      let k := Nat.min n (s.drainable asid lane)
      let recs := (List.range k).map fun i => BitVec.ofNat 256 (memVal s.mem (s.recordLocs asid lane (l.q.toNat + i)))
      let s := s.modLaneOf asid lane fun l => { l with q := l.q + BitVec.ofNat 32 k, waited := if k = 0 then l.waited else 0, warned := k = 0 && l.warned }
      { s with events := s.events ++ [.drained asid lane recs] })

/-- LANE_FILL (17 R397): firmware writes records from the host behind FP, as far as the segment has room, and advances FP. -/
def execLaneFill (asid lane : Nat) (recs : List (BitVec 256)) (s : State) : Host.Outcome State Fault Refusal :=
  .next (
    let x := s.ctx asid
    if x.mode != .replay then s
    else
      let l := s.laneOf asid lane
      let recs := recs.take (2 ^ x.segLog - (l.q - l.p).toNat)
      let cells := (recs.zip (List.range recs.length)).flatMap fun r =>
        cellsOf (s.recordLocs asid lane (l.q.toNat + r.2)) r.1.toNat
      (s.modLaneOf asid lane fun l => { l with q := l.q + BitVec.ofNat 32 recs.length }).poke cells)

/-- END_SET (17 R397): firmware sets END; from then on a presentation at RP = FP diverges. -/
def execEndSet (asid : Nat) (s : State) : Host.Outcome State Fault Refusal :=
  .next (
    match tfind s.ctxs asid with
    | some x => if x.mode == .replay then s.modCtx asid fun x => { x with endSet := true } else s
    | none => s)

end Sys2Proof.Machine
end

