-- ==== Sys2Proof/Machine/Debug.lean ====
section
/-! DEFINITION. The debugger and the profiler: attach, stops, resumption, steps, writes of a stopped strand, memory, samples
and the debug channel (19 R422 to R428, R435; 23 R453). Every command is answered with a response (23 R453). -/

namespace Sys2Proof.Machine

/-- DEBUG_ATTACH (19 R423): the debugger attaches to one context; a secure context needs an authorisation. -/
def execDebugAttach (asid : Nat) (authorised : Bool) (trapmask : BitVec 2) (s : State) : Host.Outcome State Fault Refusal :=
  .next (
    match tfind s.ctxs asid with
    | some x =>
      if x.sec && !authorised then s.respond false 0
      else (s.modSpine fun z => { z with attached := some (asid, trapmask) }).respond true 0
    | none => s.respond false 0)

/-! ### The core that a command names -/

/-- The saved image to which a command for a core goes: that of the attached context, where the core does other work (19 R423,
R426). -/
def State.imageAsked (s : State) (core : Nat) : Option Saved :=
  match s.spine.attached with
  | some (asid, _) =>
    if (s.core core).serves (BitVec.ofNat 12 asid) then none
    else s.saved.find? fun v => v.stashed && v.core == core && v.asid.toNat == asid
  | none => none

/-- The core that a command names, as it stands or as it was saved. -/
def State.askedCore (s : State) (core : Nat) : Core := ((s.imageAsked core).map (·.image)).getD (s.core core)

/-- Changes it. -/
def State.onCore (s : State) (core : Nat) (f : Core → Core) : State :=
  match s.imageAsked core with
  | some v => { s with saved := mapWhere (fun w => w == v) (fun w => { w with image := f w.image }) s.saved }
  | none => s.modCore core f

/-- A stop that a command asks for: that of a saved image waits with it (19 R426). -/
def State.askStop (s : State) (core : Nat) (a : StopAsk) (go : State → State) : State :=
  if (s.imageAsked core).isSome then s.onCore core fun k => { k with stopAsks := k.stopAsks ++ [a] } else go s

/-! ### Stops (19 R424, R425, R426) -/

/-- STRAND_STOP (19 R424): the strands of a core with a SID stop at their boundaries; outside RUN the stop takes effect when the
core is back in RUN (19 R426). -/
def execStrandStop (core : Nat) (sid : Word) (s : State) : Host.Outcome State Fault Refusal :=
  .next ((s.askStop core (.strand sid) fun s => s.stopSid core sid).respond true 0)

/-- CORE_STOP (19 R425). -/
def execCoreStop (core : Nat) (s : State) : Host.Outcome State Fault Refusal :=
  .next ((s.askStop core .core fun s => s.stopCore core).respond true 0)

/-- CONTEXT_STOP (19 R425): a core stop of every core of the context, those too that are saved while their silicon does other
work. -/
def execContextStop (asid : Nat) (s : State) : Host.Outcome State Fault Refusal :=
  .next (
    let mine (v : Saved) : Bool := v.stashed && v.asid.toNat == asid
    let ask (v : Saved) : Saved := { v with image := { v.image with stopAsks := v.image.stopAsks ++ [.core] } }
    let s := { s with saved := mapWhere mine ask s.saved }
    ((s.coresOf asid).foldl (fun (s : State) c => s.stopCore c) s).respond true 0)

/-- FORCE (19 R425). -/
def execForce (core : Nat) (s : State) : Host.Outcome State Fault Refusal :=
  .next ((s.askStop core .force fun s => s.forceCore core).respond true 0)

/-! ### Resumption, delivery and steps (19 R427, R428) -/

/-- Whether a strand holds a BREAK or a TRAP for the debugger: its fault waits for no holder. -/
def Core.heldTrap (k : Core) (sl : Option Nat) (p : Strand) : Bool :=
  match sl, p.st with
  | some n, .faulted f => (f.code == .brk || f.code == .trap) && !k.faultQ.contains n
  | _, _ => false

/-- Whether a SID names a stopped strand of a core. -/
def Core.stopped? (k : Core) (sid : Word) : Bool := k.located.any fun e => e.2.sid == sid && e.2.stopped

/-- The stopped strands of a core that satisfy a predicate leave their waits, whose instructions execute again. -/
def State.rewait (s : State) (core : Nat) (p : Strand → Bool) : State :=
  if (s.imageAsked core).isSome then s
  else ((s.core core).strandsWhere fun q => q.stopped && p q).foldl (fun s e => s.dropWait core e.1 Strand.again) s

/-- A strand that runs again. -/
def Strand.go (p : Strand) : Strand := { p with stopped := false, stepWait := false }

/-- The strands of a core with a SID run again; one that holds a BREAK or a TRAP is READY at the PC given, and FCNT does not
change. -/
def Core.resumeSid (sid : Word) (pc : Word) (k : Core) : Core :=
  k.mapStrands fun sl p =>
    if p.sid != sid || !p.stopped then p
    else if k.heldTrap sl p then { p.go with st := .ready, pc := pcOf pc }
    else p.go

/-- A core runs again: its strands too, but for those that hold a BREAK or a TRAP. -/
def Core.resumeAll (k : Core) : Core :=
  { (k.setDst 0).mapStrands fun sl p => if k.heldTrap sl p then p else p.go with stopAsks := [] }

/-- RESUME (19 R427): of a strand, at a given PC when it holds a BREAK or a TRAP, or of a core. A wait instruction that a step
reported executes again (19 R428). -/
def execResume (core : Nat) (sid : Option Word) (pc : Word) (s : State) : Host.Outcome State Fault Refusal :=
  .next (
    let t := s.rewait core fun p => p.stepWait && (sid.all fun n => p.sid == n)
    (t.onCore core (match sid with | some n => Core.resumeSid n pc | none => Core.resumeAll)).respond true 0)

/-- DELIVER (19 R427): a held BREAK or TRAP goes to the fault handler. -/
def execDeliver (core : Nat) (sid : Word) (s : State) : Host.Outcome State Fault Refusal :=
  .next (
    let k := s.askedCore core
    let hit (e : Nat × Strand) : Bool := e.2.sid == sid && e.2.stopped && k.heldTrap (some e.1) e.2
    if k.slots.any hit then
      (s.onCore core fun k =>
        { k with slots := k.slots.map fun e => if hit e then (e.1, { e.2 with stopped := false }) else e
                 faultQ := k.faultQ ++ (k.slots.filter hit).map (·.1) }).respond true 0
    else s.respond false 0)

/-- STEP (19 R428): the stopped strands of a core with a SID may issue one instruction each; a wait instruction whose condition did
not hold executes again. -/
def execStep (core : Nat) (sid : Word) (s : State) : Host.Outcome State Fault Refusal :=
  .next (
    if (s.askedCore core).stopped? sid then
      ((s.rewait core fun p => p.sid == sid).onCore core fun k => k.mapStrands fun _ p =>
        if p.sid == sid && p.stopped then { p.go with stepping := true } else p).respond true 0
    else s.respond false 0)

/-! ### State and memory (19 R422, R427) -/

/-- A strand with what the debugger writes; the PC stays a multiple of 4 (01 R19; log 33), FLAGS keeps its defined bits and RMODE discards a reserved code (02 R46). -/
def dbgApply (w : DbgWrite) (p : Strand) : Strand :=
  match w with
  | .read => p
  | .g n v => p.setG n v
  | .pc v => { p with pc := pcOf v }
  | .flags v => { p with flags := v.setWidth 16 &&& 0x7F }
  | .rmode v => if v.setWidth 3 ≤ 4#3 then { p with rmode := v.setWidth 3 } else p

/-- The records of a core's strands in its save area (07 Table 07.9): offset, slot number and strand. -/
def Core.records (k : Core) : List (Nat × Nat × Strand) :=
  k.slots.map (fun e => (0x1000 + 256 * e.1, e.1, e.2)) ++ k.holders.map (fun e => (0x400 + 256 * e.1, e.2.1, e.2.2)) ++
    k.park.map fun e => (0x5000 + 256 * e.1, parkSlot, e.2.strand)

/-- The records of the strands with a SID, where a core has been saved and not restored, stand in its save area. -/
def State.putRecords (s : State) (core : Nat) (sid : Word) : State :=
  let k := s.askedCore core
  let away := (s.imageAsked core).isSome || (s.core core).phase == .saved || (s.core core).phase == .restoring
  if away then
    s.poke ((k.records.filter fun e => e.2.2.sid == sid).flatMap fun e =>
      (List.range 192).filterMap fun i =>
        (s.areaAt k.savea (e.1 + i)).bind fun l => (e.2.2.recordByte e.2.1 i).map fun b => (l, b))
  else s

/-- The allotment registers of a strand of a core: those of its rows, or of its blocks when it is parked. -/
def State.regsOf (s : State) (core : Nat) (p : Strand) : List VReg :=
  let k := s.askedCore core
  match k.park.find? fun e => e.2.strand == p with
  | some e => e.2.blocks.flatMap ((s.setCore core k).blockAt core)
  | none => p.rows.flatMap fun r => (locsFrom (6 * r) 6).map k.vreg

/-- What the debugger reads of the stopped strands with a SID. -/
def State.showStrands (s : State) (core : Nat) (sid : Word) : List HostEvent :=
  ((s.askedCore core).located.filter fun e => e.2.sid == sid && e.2.stopped).map fun e => .stateRead e.2 (s.regsOf core e.2)

/-- STATE_WRITE (19 R427): only while the strand is stopped. The debugger reads the state of a stopped strand by it too. -/
def execStateWrite (core : Nat) (sid : Word) (w : DbgWrite) (s : State) : Host.Outcome State Fault Refusal :=
  .next (
    if !(s.askedCore core).stopped? sid then s.respond false 0
    else if w = .read then State.respond { s with events := s.events ++ s.showStrands core sid } true 0
    else
      ((s.onCore core fun k => k.mapStrands fun _ p => if p.sid == sid && p.stopped then dbgApply w p else p).putRecords
        core sid).respond true 0)

/-- DEBUG_MEMORY_ACCESS (19 R427): a read, or a write of given bytes, as a .sys access in the context's world; one that meets
a page that is not mapped, or is of the other world, is refused (log 21). A write is answered once it has been performed, at
every replica of a replicated page (15 R359). -/
def execDebugMemoryAccess (asid : Nat) (va : Word) (n : Nat) (data : Option (List Byte)) (s : State) :
    Host.Outcome State Fault Refusal :=
  .next (
    let n := match data with | some l => l.length | none => n
    let ok := ((s.spineLocs asid va n).all Option.isSome) && s.spineRangeOk asid va n
    if !((s.spine.attached.map fun a => a.1 == asid).getD false) || !ok then s.respond false 0
    else
      match data with
      | some l =>
        let t := s.ctxWrite s.fresh asid va l
        if t.agentWriting s.fresh then t.modSpine fun z => { z with debugging := some s.fresh } else t.respond true 0
      | none =>
        let bytes := leBytes n (s.spineRead asid va n)
        let s := s.watchRead asid va n
        State.respond { s with events := s.events ++ [.debugRead bytes] } true 0)

/-- A debugger's write to replicated pages has been performed at every replica: it is answered (15 R359). -/
def State.debugWritten (s : State) : State :=
  match s.spine.debugging with
  | some n => if s.agentWriting n then s else (s.modSpine fun z => { z with debugging := none }).respond true 0
  | none => s

/-- DEBUG_CLEAR (19 R422, R436): the performance counters, or the delay accumulators, of a core. -/
def execDebugClear (core : Nat) (perf : Bool) (s : State) : Host.Outcome State Fault Refusal :=
  .next ((s.modCore core fun k => if perf then { k with perf := Vector.replicate 16 0 } else { k with dlyAcc := [] }).respond true 0)

/-! ### Samples (19 R435) -/

/-- The occupied slot that is sampled next: the first after the last, with wrap-around. -/
def Core.sampleSlot (k : Core) : Option Nat :=
  ((List.range 64).map fun i => (k.sampled + 1 + i) % 64).find? fun n => (tfind k.slots n).isSome

/-- SAMPLE (19 R435): one strand is recorded for each sampling period that has ended. -/
def execSample (core : Nat) (s : State) : Host.Outcome State Fault Refusal :=
  .next (
    let k := s.core core
    if k.sampleDue == 0 || k.phase != .run then s
    else
      let s := s.modCore core fun k => { k with sampleDue := k.sampleDue - 1 }
      match k.sampleSlot with
      | none => s
      | some n =>
        let p := s.strandAt core n
        let code := if s.presHeld p then 3 else p.st.code
        let aux := match p.msg with | some f => s.activationName core n f | none => toWord (code * 2 ^ 61)
        (s.modCore core fun k => { k with sampled := n }).trace core
          { type := 1, handler := p.handler, fused := p.lastFused, ret := p.lastRet, sid := p.sid, pc := p.pc, aux })

/-! ### The debug channel (23 R453) -/

/-- The commands of the debug channel: those of the debugger, requests about contexts (18 R404), and those of 23 Table 23.4. -/
def isCommand : Instr → Bool
  | .debugAttach .. | .strandStop .. | .coreStop _ | .contextStop _ | .force _ | .resume .. | .deliver .. | .step ..
  | .stateWrite .. | .debugMemoryAccess .. | .debugClear .. | .qpCreate .. | .qpInit .. | .qpConnect .. | .qpReset _
  | .qpDestroy _ | .reg .. | .revoke _ | .contextCreate .. | .contextEnd .. => true
  | _ => false

/-- DEBUG_COMMAND (23 R453): the RV64GC core reads the oldest command of the ring, whose act comes next, once the one before
has been answered, and in recovery none (18 R418). -/
def execDebugCommand (s : State) : Host.Outcome State Fault Refusal :=
  .next (
    match s.spine.commands with
    | [] => s
    | e :: rest =>
      if s.spine.debugging.isSome || s.spine.recovery then s
      else
      let s := s.modSpine fun z => { z with commands := rest }
      if isCommand e then { s with agenda := e :: s.agenda } else s.respond false 0)

end Sys2Proof.Machine
end

