-- ==== Sys2Proof/Machine/Integer.lean ====
section
/-! DEFINITION. The integer instructions: IALU, IMUL, IBIT, compare and select, moves (05 R119 to R125). -/

namespace Sys2Proof.Machine

/-! ### IALU (05 Table 05.2) -/

/-- ADD: a + b (05 R119). -/
def execAdd (w : Bool) (o : Ops) (s : State) : Host.Outcome State Fault Refusal :=
  .next (s.instr 0x01 0x00 o fun s => s.putD o (alu w (fun _ a b => a + b) (s.val o.a) (s.val o.b)))

/-- SUB: a − b (05 R119). -/
def execSub (w : Bool) (o : Ops) (s : State) : Host.Outcome State Fault Refusal :=
  .next (s.instr 0x01 0x01 o fun s => s.putD o (alu w (fun _ a b => a - b) (s.val o.a) (s.val o.b)))

/-- AND: bitwise AND, literals zero-extended (05 R119). -/
def execAnd (w : Bool) (o : Ops) (s : State) : Host.Outcome State Fault Refusal :=
  .next (s.instr 0x01 0x02 o fun s => s.putD o (alu w (fun _ a b => a &&& b) (s.valZ o.a) (s.valZ o.b)))

/-- OR: bitwise OR, literals zero-extended (05 R119). -/
def execOr (w : Bool) (o : Ops) (s : State) : Host.Outcome State Fault Refusal :=
  .next (s.instr 0x01 0x03 o fun s => s.putD o (alu w (fun _ a b => a ||| b) (s.valZ o.a) (s.valZ o.b)))

/-- XOR: bitwise XOR, literals zero-extended (05 R119). -/
def execXor (w : Bool) (o : Ops) (s : State) : Host.Outcome State Fault Refusal :=
  .next (s.instr 0x01 0x04 o fun s => s.putD o (alu w (fun _ a b => a ^^^ b) (s.valZ o.a) (s.valZ o.b)))

/-- ANDN: a AND NOT b, literals zero-extended (05 R119). -/
def execAndn (w : Bool) (o : Ops) (s : State) : Host.Outcome State Fault Refusal :=
  .next (s.instr 0x01 0x05 o fun s => s.putD o (alu w (fun _ a b => a &&& ~~~b) (s.valZ o.a) (s.valZ o.b)))

/-- SHL: a shifted left (05 R119). -/
def execShl (w : Bool) (o : Ops) (s : State) : Host.Outcome State Fault Refusal :=
  .next (s.instr 0x01 0x06 o fun s => s.putD o (alu w (fun n a b => a <<< amount n b) (s.val o.a) (s.val o.b)))

/-- SHR: a shifted right logically (05 R119). -/
def execShr (w : Bool) (o : Ops) (s : State) : Host.Outcome State Fault Refusal :=
  .next (s.instr 0x01 0x07 o fun s => s.putD o (alu w (fun n a b => a >>> amount n b) (s.val o.a) (s.val o.b)))

/-- SAR: a shifted right arithmetically (05 R119). -/
def execSar (w : Bool) (o : Ops) (s : State) : Host.Outcome State Fault Refusal :=
  .next (s.instr 0x01 0x08 o fun s => s.putD o (alu w (fun n a b => a.sshiftRight (amount n b)) (s.val o.a) (s.val o.b)))

/-- ROL: a rotated left (05 R119). -/
def execRol (w : Bool) (o : Ops) (s : State) : Host.Outcome State Fault Refusal :=
  .next (s.instr 0x01 0x09 o fun s => s.putD o (alu w (fun n a b => a.rotateLeft (amount n b)) (s.val o.a) (s.val o.b)))

/-- MIN: signed minimum (05 R119). -/
def execMin (w : Bool) (o : Ops) (s : State) : Host.Outcome State Fault Refusal :=
  .next (s.instr 0x01 0x0A o fun s => s.putD o (alu w minS (s.val o.a) (s.val o.b)))

/-- MAX: signed maximum (05 R119). -/
def execMax (w : Bool) (o : Ops) (s : State) : Host.Outcome State Fault Refusal :=
  .next (s.instr 0x01 0x0B o fun s => s.putD o (alu w maxS (s.val o.a) (s.val o.b)))

/-- MINU: unsigned minimum (05 R119). -/
def execMinu (w : Bool) (o : Ops) (s : State) : Host.Outcome State Fault Refusal :=
  .next (s.instr 0x01 0x0C o fun s => s.putD o (alu w minU (s.val o.a) (s.val o.b)))

/-- MAXU: unsigned maximum (05 R119). -/
def execMaxu (w : Bool) (o : Ops) (s : State) : Host.Outcome State Fault Refusal :=
  .next (s.instr 0x01 0x0D o fun s => s.putD o (alu w maxU (s.val o.a) (s.val o.b)))

/-! ### IMUL (05 R121) -/

/-- MUL: low half of the product (05 R121). -/
def execMul (w : Bool) (o : Ops) (s : State) : Host.Outcome State Fault Refusal :=
  .next (s.instr 0x02 0x00 o fun s => s.putD o (mulS w (fun a b => a * b) (s.val o.a) (s.val o.b)))

/-- MULH: high half of the signed product (05 R121). -/
def execMulh (w : Bool) (o : Ops) (s : State) : Host.Outcome State Fault Refusal :=
  .next (s.instr 0x02 0x01 o fun s => s.putD o (mulS w (fun a b => a * b / 2 ^ wBits w) (s.val o.a) (s.val o.b)))

/-- MULHU: high half of the unsigned product (05 R121). -/
def execMulhu (w : Bool) (o : Ops) (s : State) : Host.Outcome State Fault Refusal :=
  .next (s.instr 0x02 0x02 o fun s => s.putD o (mulU w (fun a b => a * b / 2 ^ wBits w) (s.val o.a) (s.val o.b)))

/-- DIV: signed quotient, truncated (05 R121). -/
def execDiv (w : Bool) (o : Ops) (s : State) : Host.Outcome State Fault Refusal :=
  .next (s.instr 0x02 0x03 o fun s => s.putD o (mulS w quot (s.val o.a) (s.val o.b)))

/-- DIVU: unsigned quotient (05 R121). -/
def execDivu (w : Bool) (o : Ops) (s : State) : Host.Outcome State Fault Refusal :=
  .next (s.instr 0x02 0x04 o fun s => s.putD o (mulU w quotU (s.val o.a) (s.val o.b)))

/-- REM: signed remainder (05 R121). -/
def execRem (w : Bool) (o : Ops) (s : State) : Host.Outcome State Fault Refusal :=
  .next (s.instr 0x02 0x05 o fun s => s.putD o (mulS w remn (s.val o.a) (s.val o.b)))

/-- REMU: unsigned remainder (05 R121). -/
def execRemu (w : Bool) (o : Ops) (s : State) : Host.Outcome State Fault Refusal :=
  .next (s.instr 0x02 0x06 o fun s => s.putD o (mulU w remU (s.val o.a) (s.val o.b)))

/-! ### IBIT (05 Table 05.4) -/

/-- CLZ: leading zero bits (05 R122). -/
def execClz (o : Ops) (s : State) : Host.Outcome State Fault Refusal :=
  .next (s.instr 0x03 0x00 o fun s => s.putD o (toWord (clz (s.val o.a))))

/-- CTZ: trailing zero bits (05 R122). -/
def execCtz (o : Ops) (s : State) : Host.Outcome State Fault Refusal :=
  .next (s.instr 0x03 0x01 o fun s => s.putD o (toWord (ctz (s.val o.a))))

/-- POPC: one bits (05 R122). -/
def execPopc (o : Ops) (s : State) : Host.Outcome State Fault Refusal :=
  .next (s.instr 0x03 0x02 o fun s => s.putD o (toWord (popc (s.val o.a))))

/-- BREV: bits reversed (05 R122). -/
def execBrev (o : Ops) (s : State) : Host.Outcome State Fault Refusal :=
  .next (s.instr 0x03 0x03 o fun s => s.putD o (brev (s.val o.a)))

/-- BSWAP: bytes reversed (05 R122). -/
def execBswap (o : Ops) (s : State) : Host.Outcome State Fault Refusal :=
  .next (s.instr 0x03 0x04 o fun s => s.putD o (bswap (s.val o.a)))

/-- SEXT: sign extension from bit b (05 R122). -/
def execSext (o : Ops) (s : State) : Host.Outcome State Fault Refusal :=
  .next (s.instr 0x03 0x05 o fun s => s.putD o (sextFrom (s.val o.a) (wfld (s.val o.b) 0 6)))

/-- EXTB: field extraction (05 R122). -/
def execExtb (o : Ops) (s : State) : Host.Outcome State Fault Refusal :=
  .next (s.instr 0x03 0x06 o fun s => s.putD o (extb (s.val o.a) (wfld (s.val o.b) 0 6) (fieldLen (s.val o.c))))

/-- INSB: field insertion into g[D] (05 R122). -/
def execInsb (o : Ops) (s : State) : Host.Outcome State Fault Refusal :=
  .next (s.instr 0x03 0x07 o fun s => s.putD o (insb (s.me.getG o.d.ix) (s.val o.a) (wfld (s.val o.b) 0 6) (fieldLen (s.val o.c))))

/-! ### Compare and select (05 R124) -/

/-- CMP_EQ: equal gives 1, else 0 (05 R124). -/
def execCmpEq (o : Ops) (s : State) : Host.Outcome State Fault Refusal :=
  .next (s.instr 0x04 0x00 o fun s => s.putD o (boolWord (s.val o.a == s.val o.b)))

/-- CMP_NE: not equal gives 1, else 0 (05 R124). -/
def execCmpNe (o : Ops) (s : State) : Host.Outcome State Fault Refusal :=
  .next (s.instr 0x04 0x01 o fun s => s.putD o (boolWord (s.val o.a != s.val o.b)))

/-- CMP_LT: signed less gives 1, else 0 (05 R124). -/
def execCmpLt (o : Ops) (s : State) : Host.Outcome State Fault Refusal :=
  .next (s.instr 0x04 0x02 o fun s => s.putD o (boolWord ((s.val o.a).slt (s.val o.b))))

/-- CMP_GE: signed not less gives 1, else 0 (05 R124). -/
def execCmpGe (o : Ops) (s : State) : Host.Outcome State Fault Refusal :=
  .next (s.instr 0x04 0x03 o fun s => s.putD o (boolWord (!(s.val o.a).slt (s.val o.b))))

/-- CMP_LTU: unsigned less gives 1, else 0 (05 R124). -/
def execCmpLtu (o : Ops) (s : State) : Host.Outcome State Fault Refusal :=
  .next (s.instr 0x04 0x04 o fun s => s.putD o (boolWord ((s.val o.a).ult (s.val o.b))))

/-- CMP_GEU: unsigned not less gives 1, else 0 (05 R124). -/
def execCmpGeu (o : Ops) (s : State) : Host.Outcome State Fault Refusal :=
  .next (s.instr 0x04 0x05 o fun s => s.putD o (boolWord (!(s.val o.a).ult (s.val o.b))))

/-- SEL: b when a is not zero, else c (05 R124). -/
def execSel (o : Ops) (s : State) : Host.Outcome State Fault Refusal :=
  .next (s.instr 0x05 0x00 o fun s => s.putD o (if s.val o.a != 0 then s.val o.b else s.val o.c))

/-! ### Moves and addresses (05 Table 05.5) -/

/-- MOV (05 R125). -/
def execMov (o : Ops) (s : State) : Host.Outcome State Fault Refusal :=
  .next (s.instr 0x06 0x00 o fun s => s.putD o (s.val o.a))

/-- MOVI (05 R125). -/
def execMovi (o : Ops) (s : State) : Host.Outcome State Fault Refusal :=
  .next (s.instr 0x06 0x01 o fun s => s.putD o (s.val o.a))

/-- MOVI.H: the literal above the low half of g[D] (05 R125). -/
def execMoviH (o : Ops) (s : State) : Host.Outcome State Fault Refusal :=
  .next (s.instr 0x06 0x01 o fun s => s.putD o ((s.val o.a).setWidth 32 ++ (s.me.getG o.d.ix).setWidth 32))

/-- LEA: the effective address of 01 R33; nothing is read (05 R125). -/
def execLea (x : MemX) (o : Ops) (s : State) : Host.Outcome State Fault Refusal :=
  .next (s.instr 0x06 0x02 o fun s => s.putD o (s.ea x o))

/-- ADDPC: PC + offset in bytes (05 R125). -/
def execAddpc (o : Ops) (s : State) : Host.Outcome State Fault Refusal :=
  .next (s.instr 0x06 0x03 o fun s => s.putD o (s.me.pc + s.val o.a))

end Sys2Proof.Machine
end

