-- ==== Sys2Proof/Machine/Vector.lean ====
section
/-! DEFINITION. Vector instructions, vector memory, streams and circular buffers (08). -/

namespace Sys2Proof.Machine

/-! ### Allotment (08 R209) -/

/-- VGROW (08 R209): rows that its parkings leave over go to the VGROWs that wait (07 R193). -/
def execVgrow (o : Ops) (s : State) : Host.Outcome State Fault Refusal :=
  .next (s.instr 0x50 0x00 o fun s =>
    let s := s.commit
    let n := (s.val o.a).toNat
    let have_ := s.me.rows.length
    if 11 < n then s.raise .regAllot 0x05 0
    else if s.me.handler && decide (0 < n) then s.raise .handlerWait 0 0
    else if n ≤ have_ then s.retire
    else
      let s := State.parkFor s.cur.1 (n - have_) 64 s
      let free := s.myCore.rowsLeft
      if n - have_ ≤ free.length then ((s.giveRows s.cur.1 s.cur.2 (free.take (n - have_))).retire).settleRows s.cur.1
      else (s.wait (.rows n)).settleRows s.cur.1)

/-- VSHRINK (08 R209). -/
def execVshrink (o : Ops) (s : State) : Host.Outcome State Fault Refusal :=
  .next (s.instr 0x50 0x01 o fun s =>
    let s := s.commit
    let n := (s.val o.a).toNat
    if 11 < n then s.raise .regAllot 0x05 0
    else if s.me.rows.length ≤ n then s.retire
    else if s.me.streams.any fun b => decide (6 * n ≤ b.reg) then s.raise .regAllot 0x04 0
    else
      let s := s.modMe fun p =>
        { p with rows := p.rows.take n, vboard := p.vboard.filter fun e => decide (e.1 < 384 * n) }
      s.retire.settleRows s.cur.1)

/-! ### Moves (08 Table 08.3) -/

/-- VMOV (08 R210). -/
def execVmov (o : Ops) (s : State) : Host.Outcome State Fault Refusal :=
  .next (s.vinstr 0x51 0x00 o true fun s =>
    let a := s.vec o.a
    s.putLanes o fun i => lane a i)

/-- VBCAST: one lane to every lane (08 R210). -/
def execVbcast (o : Ops) (s : State) : Host.Outcome State Fault Refusal :=
  .next (s.vinstr 0x51 0x01 o true fun s =>
    let a := s.vec o.a
    let x := lane a (wfld (s.val o.b) 0 4)
    s.putLanes o fun _ => x)

/-- VEXT: one lane to a g register (08 R210). -/
def execVext (o : Ops) (s : State) : Host.Outcome State Fault Refusal :=
  .next (s.vinstr 0x51 0x02 o false fun s =>
    let a := s.vec o.a
    (s.setD o.d ((lane a (wfld (s.val o.b) 0 4)).setWidth 64)).retireV o)

/-- VINS: one lane from a scalar (08 R210). -/
def execVins (o : Ops) (s : State) : Host.Outcome State Fault Refusal :=
  .next (s.vinstr 0x51 0x03 o true fun s =>
    let a := (s.val o.a).setWidth 32
    let n := wfld (s.val o.b) 0 4
    let old := s.myCore.vreg (s.me.phys o.d.ix)
    s.putLanes o fun i => if i = n then a else lane old i)

/-- VIOTA: a + i × b (08 R210). -/
def execViota (o : Ops) (s : State) : Host.Outcome State Fault Refusal :=
  .next (s.vinstr 0x51 0x04 o true fun s =>
    let a := (s.val o.a).setWidth 32
    let b := (s.val o.b).setWidth 32
    s.putLanes o fun i => a + BitVec.ofNat 32 i * b)

/-! ### Masks (08 R211 to R213) -/

/-- A 16-bit mask from its bits. -/
def ofBits16 (f : Nat → Bool) : BitVec 16 := BitVec.ofNat 16 (((List.range 16).map fun i => if f i then 2 ^ i else 0).sum)

/-- VCMP: a bit for each enabled lane (08 R211). -/
def execVcmp (cond : VCond) (o : Ops) (s : State) : Host.Outcome State Fault Refusal :=
  .next (s.vinstr 0x52 0x00 o false fun s =>
    let f := condFloat cond
    let a := if f then s.vecF o.a else s.vec o.a
    let b := if f then s.vecF o.b else s.vec o.b
    let mk := s.maskOf o
    let s := s.undoD o.d
    let old := s.myCore.mask o.d.ix
    let m := ofBits16 fun i => if mk.getLsbD i then condHolds cond (lane a i) (lane b i) else old.getLsbD i
    (s.setM o.d.ix m).retireV o)

/-- MLOG: mask logic (08 R212). -/
def execMlog (op : MLogOp) (ma mb : BitVec 3) (o : Ops) (s : State) : Host.Outcome State Fault Refusal :=
  .next (s.instr 0x52 0x01 o fun s =>
    let a := s.myCore.mask ma.toNat
    let b := s.myCore.mask mb.toNat
    let v : BitVec 16 :=
      match op with
      | .and => a &&& b
      | .or => a ||| b
      | .xor => a ^^^ b
      | .andn => a &&& ~~~b
      | .not => ~~~a
      | .mov => a
      | .fromg => (s.val o.a).setWidth 16
    ((s.undoD o.d).setM o.d.ix v).retire)

/-- MPOP: count, first set bit or content of a mask (08 R213). -/
def execMpop (mode : MPopMode) (ma : BitVec 3) (o : Ops) (s : State) : Host.Outcome State Fault Refusal :=
  .next (s.instr 0x52 0x02 o fun s =>
    let m := s.myCore.mask ma.toNat
    let v : Nat :=
      match mode with
      | .cnt => (enabled m).length
      | .first => (enabled m).headD 16
      | .raw => m.toNat
    s.putD o (toWord v))

/-! ### Permutes (08 R214) -/

/-- VPERM (08 R214). -/
def execVperm (o : Ops) (s : State) : Host.Outcome State Fault Refusal :=
  .next (s.vinstr 0x53 0x00 o true fun s =>
    let a := s.vec o.a
    let b := s.vec o.b
    s.putLanes o fun i => lane a ((lane b i).toNat % 16))

/-- VSLIDE (08 R214). -/
def execVslide (up : Bool) (o : Ops) (s : State) : Host.Outcome State Fault Refusal :=
  .next (s.vinstr 0x53 0x01 o true fun s =>
    let a := s.vec o.a
    let c := s.vec o.c
    let n := wfld (s.val o.b) 0 5
    s.putLanes o fun i =>
      if up then (if n ≤ i then lane a (i - n) else lane c i) else if i + n ≤ 15 then lane a (i + n) else lane c i)

/-! ### Reductions and scans (08 R215) -/

/-- The lanes that enter a tree: a disabled lane is the identity. -/
def State.redLanes (s : State) (op : RedOp) (o : Ops) : List (BitVec 32) :=
  let a := s.vec o.a
  let mk := s.maskOf o
  (List.range 16).map fun i => if mk.getLsbD i then lane a i else redIdentity op

/-- VRED (08 R215). -/
def execVred (op : RedOp) (o : Ops) (s : State) : Host.Outcome State Fault Refusal :=
  .next (s.vinstr 0x54 0x00 o true fun s =>
    let (x, fl) := redTree op 4 (s.redLanes op o)
    let put (s : State) : State := s.setFp (s.fpAcc.raise fl)
    match o.d with
    | .g _ => (put (s.setD o.d (x.setWidth 64))).retireV o
    | _ => State.putLanes (put (s.undoD o.d)) o fun _ => x)

/-- VSCAN (08 R215). -/
def execVscan (op : RedOp) (o : Ops) (s : State) : Host.Outcome State Fault Refusal :=
  .next (s.vinstr 0x54 0x01 o true fun s =>
    let l := redScan op (s.redLanes op o)
    let fl := redFlags (s.maskOf o) l
    let s := s.undoD o.d
    State.putLanes (s.setFp (s.fpAcc.raise fl)) o fun i => (nth (0, 0) l i).1)

/-! ### VIALU (08 Table 08.6) -/

/-- VADD: a + b (08 R216). -/
def execVadd (o : Ops) (s : State) : Host.Outcome State Fault Refusal :=
  .next (s.vinstr 0x60 0x00 o true fun s =>
    let a := s.vec o.a
    let b := s.vec o.b
    s.putLanes o fun i => lane a i + lane b i)

/-- VSUB: a − b (08 R216). -/
def execVsub (o : Ops) (s : State) : Host.Outcome State Fault Refusal :=
  .next (s.vinstr 0x60 0x01 o true fun s =>
    let a := s.vec o.a
    let b := s.vec o.b
    s.putLanes o fun i => lane a i - lane b i)

/-- VMUL: low half of the product (08 R216). -/
def execVmul (o : Ops) (s : State) : Host.Outcome State Fault Refusal :=
  .next (s.vinstr 0x60 0x02 o true fun s =>
    let a := s.vec o.a
    let b := s.vec o.b
    s.putLanes o fun i => lane a i * lane b i)

/-- VMAD: low half of a × b + c (08 R216). -/
def execVmad (o : Ops) (s : State) : Host.Outcome State Fault Refusal :=
  .next (s.vinstr 0x60 0x03 o true fun s =>
    let a := s.vec o.a
    let b := s.vec o.b
    let c := s.vec o.c
    s.putLanes o fun i => lane a i * lane b i + lane c i)

/-- VAND: bitwise AND (08 R216). -/
def execVand (o : Ops) (s : State) : Host.Outcome State Fault Refusal :=
  .next (s.vinstr 0x60 0x04 o true fun s =>
    let a := s.vec o.a
    let b := s.vec o.b
    s.putLanes o fun i => lane a i &&& lane b i)

/-- VOR: bitwise OR (08 R216). -/
def execVor (o : Ops) (s : State) : Host.Outcome State Fault Refusal :=
  .next (s.vinstr 0x60 0x05 o true fun s =>
    let a := s.vec o.a
    let b := s.vec o.b
    s.putLanes o fun i => lane a i ||| lane b i)

/-- VXOR: bitwise XOR (08 R216). -/
def execVxor (o : Ops) (s : State) : Host.Outcome State Fault Refusal :=
  .next (s.vinstr 0x60 0x06 o true fun s =>
    let a := s.vec o.a
    let b := s.vec o.b
    s.putLanes o fun i => lane a i ^^^ lane b i)

/-- VSHL: left shift by b[4:0] (08 R216). -/
def execVshl (o : Ops) (s : State) : Host.Outcome State Fault Refusal :=
  .next (s.vinstr 0x60 0x07 o true fun s =>
    let a := s.vec o.a
    let b := s.vec o.b
    s.putLanes o fun i => lane a i <<< amount 32 (lane b i))

/-- VSHR: logical right shift by b[4:0] (08 R216). -/
def execVshr (o : Ops) (s : State) : Host.Outcome State Fault Refusal :=
  .next (s.vinstr 0x60 0x08 o true fun s =>
    let a := s.vec o.a
    let b := s.vec o.b
    s.putLanes o fun i => lane a i >>> amount 32 (lane b i))

/-- VSAR: arithmetic right shift by b[4:0] (08 R216). -/
def execVsar (o : Ops) (s : State) : Host.Outcome State Fault Refusal :=
  .next (s.vinstr 0x60 0x09 o true fun s =>
    let a := s.vec o.a
    let b := s.vec o.b
    s.putLanes o fun i => (lane a i).sshiftRight (amount 32 (lane b i)))

/-- VMIN: signed, or unsigned with U (08 R216). -/
def execVmin (u : Bool) (o : Ops) (s : State) : Host.Outcome State Fault Refusal :=
  .next (s.vinstr 0x60 0x0A o true fun s =>
    let a := s.vec o.a
    let b := s.vec o.b
    s.putLanes o fun i => if u then minU 32 (lane a i) (lane b i) else minS 32 (lane a i) (lane b i))

/-- VMAX: signed, or unsigned with U (08 R216). -/
def execVmax (u : Bool) (o : Ops) (s : State) : Host.Outcome State Fault Refusal :=
  .next (s.vinstr 0x60 0x0B o true fun s =>
    let a := s.vec o.a
    let b := s.vec o.b
    s.putLanes o fun i => if u then maxU 32 (lane a i) (lane b i) else maxS 32 (lane a i) (lane b i))

/-! ### VFALU (08 R217, R218) -/

/-- The rounding environment of an instruction with a rounding selector. -/
def State.fpSel (s : State) (r : RSel) : FpEnv := s.fpEnv (roundMode r s.me.rmode)

/-- Operand A, B or C with its modifiers. -/
def modA (md : FMods) (x : BitVec 32) : BitVec 32 := modify md.negA md.absA x
/-- Operand B with its modifiers. -/
def modB (md : FMods) (x : BitVec 32) : BitVec 32 := modify md.negB md.absB x
/-- Operand C with its modifiers. -/
def modC (md : FMods) (x : BitVec 32) : BitVec 32 := modify md.negC md.absC x

/-- FADD: a + b, rounded (08 R217). -/
def execFadd (md : FMods) (r : RSel) (o : Ops) (s : State) : Host.Outcome State Fault Refusal :=
  .next (s.vinstr 0x61 0x00 o true fun s =>
    let a := s.vecF o.a
    let b := s.vecF o.b
    let e := s.fpSel r
    s.putFpLanes o fun i t =>
      let x := fv32 (modA md (lane a i))
      let y := fv32 (modB md (lane b i))
      e.result (x.add e.down y) t)

/-- FSUB: a − b, rounded (08 R217). -/
def execFsub (md : FMods) (r : RSel) (o : Ops) (s : State) : Host.Outcome State Fault Refusal :=
  .next (s.vinstr 0x61 0x01 o true fun s =>
    let a := s.vecF o.a
    let b := s.vecF o.b
    let e := s.fpSel r
    s.putFpLanes o fun i t =>
      let x := fv32 (modA md (lane a i))
      let y := fv32 (modB md (lane b i))
      e.result (x.add e.down y.negate) t)

/-- FMUL: a × b, rounded (08 R217). -/
def execFmul (md : FMods) (r : RSel) (o : Ops) (s : State) : Host.Outcome State Fault Refusal :=
  .next (s.vinstr 0x61 0x02 o true fun s =>
    let a := s.vecF o.a
    let b := s.vecF o.b
    let e := s.fpSel r
    s.putFpLanes o fun i t =>
      let x := fv32 (modA md (lane a i))
      let y := fv32 (modB md (lane b i))
      e.result (x.mul y) t)

/-- FFMA: a × b + c, one rounding (08 R217). -/
def execFfma (md : FMods) (r : RSel) (o : Ops) (s : State) : Host.Outcome State Fault Refusal :=
  .next (s.vinstr 0x61 0x03 o true fun s =>
    let a := s.vecF o.a
    let b := s.vecF o.b
    let c := s.vecF o.c
    let e := s.fpSel r
    s.putFpLanes o fun i t =>
      e.result (fmaV e.down (fv32 (modA md (lane a i))) (fv32 (modB md (lane b i))) (fv32 (modC md (lane c i)))) t)

/-- FMIN (08 R218). -/
def execFmin (md : FMods) (o : Ops) (s : State) : Host.Outcome State Fault Refusal :=
  .next (s.vinstr 0x61 0x04 o true fun s =>
    let a := s.vecF o.a
    let b := s.vecF o.b
    s.putLanes o fun i => fminmax false (modA md (lane a i)) (modB md (lane b i)))

/-- FMAX (08 R218). -/
def execFmax (md : FMods) (o : Ops) (s : State) : Host.Outcome State Fault Refusal :=
  .next (s.vinstr 0x61 0x05 o true fun s =>
    let a := s.vecF o.a
    let b := s.vecF o.b
    s.putLanes o fun i => fminmax true (modA md (lane a i)) (modB md (lane b i)))

/-! ### VFSPEC (08 R219, R220) -/

/-- FRCP (03 R83). -/
def execFrcp (o : Ops) (s : State) : Host.Outcome State Fault Refusal :=
  .next (s.vinstr 0x62 0x00 o true fun s =>
    let a := s.vecF o.a
    s.putFpLanes o fun i t => let (x, fl) := frcp (lane a i); (x, t.raise fl))

/-- FRSQ (03 R83). -/
def execFrsq (o : Ops) (s : State) : Host.Outcome State Fault Refusal :=
  .next (s.vinstr 0x62 0x01 o true fun s =>
    let a := s.vecF o.a
    s.putFpLanes o fun i t => let (x, fl) := frsq (lane a i); (x, t.raise fl))

/-- FRCPN (03 R84). -/
def execFrcpn (o : Ops) (s : State) : Host.Outcome State Fault Refusal :=
  .next (s.vinstr 0x62 0x02 o true fun s =>
    let a := s.vecF o.a
    let b := s.vecF o.b
    s.putFpLanes o fun i t => let (x, fl) := frcpn (lane a i) (lane b i); (x, t.raise fl))

/-- FRSQN (03 R84). -/
def execFrsqn (o : Ops) (s : State) : Host.Outcome State Fault Refusal :=
  .next (s.vinstr 0x62 0x03 o true fun s =>
    let a := s.vecF o.a
    let b := s.vecF o.b
    s.putFpLanes o fun i t => let (x, fl) := frsqn (lane a i) (lane b i); (x, t.raise fl))

/-- FEXP2, correctly rounded (08 R220; log 10). -/
def execFexp2 (r : RSel) (o : Ops) (s : State) : Host.Outcome State Fault Refusal :=
  .next (s.vinstr 0x62 0x04 o true fun s =>
    let a := s.vecF o.a
    let e := s.fpSel r
    s.putFpLanes o fun i t =>
      let (v, fl) := exp2V (fv32 (lane a i))
      e.result (v, false) (t.raise fl))

/-- FLOG2, correctly rounded (08 R220; log 10). -/
def execFlog2 (r : RSel) (o : Ops) (s : State) : Host.Outcome State Fault Refusal :=
  .next (s.vinstr 0x62 0x05 o true fun s =>
    let a := s.vecF o.a
    let e := s.fpSel r
    s.putFpLanes o fun i t =>
      let (v, fl) := log2V (fv32 (lane a i))
      e.result (v, false) (t.raise fl))

/-- FTANH, correctly rounded (08 R220; log 10). -/
def execFtanh (r : RSel) (o : Ops) (s : State) : Host.Outcome State Fault Refusal :=
  .next (s.vinstr 0x62 0x06 o true fun s =>
    let a := s.vecF o.a
    let e := s.fpSel r
    s.putFpLanes o fun i t =>
      let (v, fl) := tanhV (fv32 (lane a i))
      e.result (v, false) (t.raise fl))

/-! ### Conversions and block scales (08 R221 to R224) -/

/-- Writes a `w`-bit element for each enabled lane, from element `off` of the destination, with roundings. -/
def State.putFpElems (s : State) (o : Ops) (w off : Nat) (f : Nat → FpAcc → Nat × FpAcc) : State :=
  let mk := s.maskOf o
  let s := s.undoD o.d
  let i := o.d.ix
  let (v, t) := (enabled mk).foldl (fun (r : VReg × FpAcc) j =>
    let (x, t) := f j r.2
    (setElem w r.1 (off + j) x, t)) (s.myCore.vreg (s.me.phys i), s.fpAcc)
  ((s.setFp t).setV i ((enabled mk).flatMap fun j => elemBytes w (off + j)) v).retireV o

/-- FCVT and ICVT (08 R222). -/
def State.cvt (s : State) (sf df : EFmt) (r : RSel) (part : BitVec 2) (sat amx : Bool) (o : Ops) : State :=
  let a := s.vec o.a
  let e := s.fpSel r
  let src := sf.width
  let dst := df.width
  s.putFpElems o dst (if dst < 32 then 16 * part.toNat else 0) fun i t =>
    let v := elemValue sf (elem src a (if src < 32 then 16 * part.toNat + i else i))
    e.convert df sat v (if amx then t.amaxOf v else t)

/-- FCVT (08 R222). -/
def execFcvt (sf df : EFmt) (r : RSel) (part : BitVec 2) (sat amx : Bool) (o : Ops) (s : State) :
    Host.Outcome State Fault Refusal :=
  .next (s.vinstr 0x63 0x00 o true fun s => s.cvt sf df r part sat amx o)

/-- ICVT (08 R222). -/
def execIcvt (sf df : EFmt) (r : RSel) (part : BitVec 2) (o : Ops) (s : State) : Host.Outcome State Fault Refusal :=
  .next (s.vinstr 0x63 0x01 o true fun s => s.cvt sf df r part false false o)

/-- C4ENC: the nearest of 16 codebook entries (08 R224). -/
def execC4enc (pos : BitVec 3) (o : Ops) (s : State) : Host.Outcome State Fault Refusal :=
  .next (s.vinstr 0x63 0x02 o true fun s =>
    let a := s.vec o.a
    let b := s.vec o.b
    let book := (List.range 16).map (elem 16 b)
    s.putFpElems o 4 (16 * pos.toNat) fun i t =>
      let (x, fl) := c4code book (lane a i)
      (x, t.raise fl))

/-- BSCALE DERIVE (08 R223). -/
def execBscaleDerive (tf : EFmt) (o : Ops) (s : State) : Host.Outcome State Fault Refusal :=
  .next (s.vinstr 0x63 0x03 o true fun s =>
    let a := s.vec o.a
    s.putLanes o fun i => scaleCode tf (lane a i))

/-- BSCALE APPLY: a × 2^(127 − E) (08 R223). -/
def execBscaleApply (r : RSel) (o : Ops) (s : State) : Host.Outcome State Fault Refusal :=
  .next (s.vinstr 0x63 0x03 o true fun s =>
    let a := s.vec o.a
    let b := s.vec o.b
    let e := s.fpSel r
    s.putFpLanes o fun i t =>
      let x := (lane b i).toNat % 256
      if x = 0xFF then e.result (.nan, true) t
      else e.result ((fv32 (lane a i)).scale (127 - (x : Int)), false) t)

/-- AMAXRD: AMAX to a g register, or to every enabled lane (08 R225). -/
def execAmaxrd (o : Ops) (s : State) : Host.Outcome State Fault Refusal :=
  .next (s.vinstr 0x64 0x00 o true fun s =>
    let x := s.me.amax
    match o.d with
    | .g _ => s.putD o (x.setWidth 64)
    | _ => s.putLanes o fun _ => x)

/-- AMAXCLR (08 R225). -/
def execAmaxclr (o : Ops) (s : State) : Host.Outcome State Fault Refusal :=
  .next (s.instr 0x64 0x01 o fun s => (s.modMe fun p => { p with amax := 0 }).retire)

/-! ### Vector memory (08 R226 to R228) -/

/-- The checks of the enabled lanes in ascending order (08 R227): the first that fails, or the pieces of each. -/
def State.laneAccs (s : State) (nd : Need) : List (Nat × Word) → Except Acc (List (Nat × List Piece))
  | [] => .ok []
  | (i, ea) :: l =>
    let p := s.me
    match s.access s.cur.1 p.asid p.lh.toNat p.sec nd ea 4 with
    | .ok ps =>
      match s.laneAccs nd l with
      | .ok r => .ok ((i, ps) :: r)
      | .error e => .error e
    | e => .error e

/-- A lane-wise access: its checks, then `go`. -/
def State.withLanes (s : State) (kind : ReqKind) (nd : Need) (eas : List (Nat × Word))
    (go : List (Nat × List Piece) → State → State) : State :=
  match s.laneAccs nd eas with
  | .error (.fault code sub a) => s.raise code sub a
  | .error (.miss va) => s.startWalk s.cur.1 s.cur.2 kind va
  | .error (.ok _) => s
  | .ok l => go l (s.touch (l.flatMap (·.2)))

/-- Addresses of the enabled lanes of VLD and VST. -/
def State.rowEas (s : State) (x : MemX) (o : Ops) : List (Nat × Word) :=
  (enabled (s.maskOf o)).map fun i => (i, s.ea x o + toWord (4 * i))

/-- Addresses of the enabled lanes of VGATH and VSCAT. -/
def State.indexEas (s : State) (x : MemX) (o : Ops) : List (Nat × Word) :=
  let v := s.vec o.c
  (enabled (s.maskOf o)).map fun i =>
    (i, s.val o.a + (lane v i).signExtend 64 <<< x.shift.toNat + x.off.signExtend 64)

/-- Whether a row access is performed as four 16-byte parts (08 R226). -/
def State.rowWhole (s : State) (x : MemX) (o : Ops) (l : List (Nat × List Piece)) : Bool :=
  (s.ea x o).toNat % 64 == 0 && decide (((l.flatMap (·.2)).map (·.entry)).dedup.length ≤ 1)

/-- The 16-byte parts of a whole row: the enabled lanes of each, with the pieces as one. -/
def wholeParts (l : List (Nat × List Piece)) : List (List Nat × Piece) :=
  (List.range 4).filterMap fun k =>
    let q := l.filter fun e => e.1 / 4 == k
    match q.flatMap (·.2) with
    | [] => none
    | p :: ps =>
      some (q.map (·.1), { p with locs := (p :: ps).flatMap (·.locs), mapped := (p :: ps).flatMap (·.mapped) })

/-- Parts of a row load: 16 bytes each when it is whole, else one for each lane or piece of a lane. -/
def State.rowParts (s : State) (whole : Bool) (l : List (Nat × List Piece)) : List RUnit :=
  if whole then (wholeParts l).map fun e => s.runit e.2 else (l.flatMap (·.2)).map s.runit

/-- A vector load issues: its parts, and its lanes as they return. -/
def State.loadLanes (s : State) (o : Ops) (lanes : List Nat) (parts : List RUnit) : State :=
  let s := s.undoD o.d
  if lanes.isEmpty then s.retireV o
  else (s.issueLoad false (.lanes o.d.ix lanes) parts).retireV o

/-- VLD (08 R226). -/
def execVld (x : MemX) (o : Ops) (s : State) : Host.Outcome State Fault Refusal :=
  .next (s.vinstr 0x80 0x00 o true fun s =>
    s.withLanes .load Need.load (s.rowEas x o) fun l s =>
      s.loadLanes o (l.map (·.1)) (s.rowParts (s.rowWhole x o l) l))

/-- VGATH (08 R226). -/
def execVgath (x : MemX) (o : Ops) (s : State) : Host.Outcome State Fault Refusal :=
  .next (s.vinstr 0x80 0x02 o true fun s =>
    s.withLanes .load Need.load (s.indexEas x o) fun l s => s.loadLanes o (l.map (·.1)) (s.rowParts false l))

/-- The buffered writes of a vector store: each lane folds as a 4-byte store; `entries` is what the first takes
for all of them, and each takes `each`. -/
def laneStores (l : List (Nat × List Piece)) (v : VReg) (entries each : Nat) (pc : Word) : List (List BufStore) :=
  (l.zip (List.range l.length)).map fun e =>
    let bs := bufStores e.1.2 4 (lane v e.1.1).toNat pc
    (bs.zip (List.range bs.length)).map fun b =>
      { b.1 with entries := if b.2 = 0 then (if e.2 = 0 then entries else 0) + each else 0 }

/-- The buffered writes of a whole row (08 R226): each lane folds as a 4-byte store, and the bytes of each 16-byte part go
to memory as one write. -/
def rowStores (l : List (Nat × List Piece)) (v : VReg) (entries : Nat) (pc : Word) : List (List BufStore) :=
  ((wholeParts l).zip (List.range 4)).map fun e =>
    let p := e.1.2
    let fold (i : Nat) : BufStore :=
      { ea := p.ea + toWord (4 * (i - e.1.1.headD 0)), n := 4, val := (lane v i).setWidth 128, cells := [], ord := p.ord,
        repl := p.repl, entries := 0, pc, seq := 0 }
    let bytes := leNat (e.1.1.flatMap fun i => leBytes 4 (lane v i).toNat)
    e.1.1.map fold ++
      [{ ea := p.ea, n := 0, val := 0, cells := cellsOf p.locs bytes, ord := p.ord, repl := p.repl,
         entries := if e.2 = 0 then entries else 0, pc, seq := 0 }]

/-- Stores of the lanes: buffered together, or in lane order when some page is SO (08 R228). When only some pages are SO the spec
does not say how the others are stored; the model stores every lane one by one, and a VST's region entries are all
counted at its first lane (DESIGN CHOICE, log 22). -/
def State.storeLanes (s : State) (o : Ops) (ls : List (List BufStore)) : State :=
  let s := if ls.flatten.any fun b => b.ord == .so then ls.foldl (fun s bs => s.store bs) s
    else if ls.isEmpty then s else s.buffer ls.flatten
  s.retireV o

/-- Aligned 16-byte spans that some lanes touch. -/
def spans (eas : List (Nat × Word)) : Nat :=
  (eas.flatMap fun e => [e.2.toNat / 16, (e.2 + 3).toNat / 16]).dedup.length

/-- VST (08 R228). An aligned one of one SO page is performed lane by lane, as 08 R228 says of an SO page, and not as the four parts
of 08 R226 (DESIGN CHOICE, log 22). -/
def execVst (x : MemX) (o : Ops) (s : State) : Host.Outcome State Fault Refusal :=
  .next (s.vinstr 0x80 0x01 o false fun s =>
    let v := s.vec o.b
    let eas := s.rowEas x o
    s.withLanes .store Need.store eas fun l s =>
      s.storeLanes o (if s.rowWhole x o l && !(l.any fun e => e.2.any fun p => p.ord == .so) then rowStores l v (spans eas) s.me.pc else laneStores l v (spans eas) 0 s.me.pc))

/-- VSCAT (08 R228). -/
def execVscat (x : MemX) (o : Ops) (s : State) : Host.Outcome State Fault Refusal :=
  .next (s.vinstr 0x80 0x03 o false fun s =>
    let v := s.vec o.b
    s.withLanes .store Need.store (s.indexEas x o) fun l s => s.storeLanes o (laneStores l v 0 1 s.me.pc))

/-! ### Streams (08 R229) -/

/-- Whether a base lies in a window that streams may read (08 R229, check 1). -/
def State.streamWindow (s : State) (base : Word) : Bool :=
  let p := s.me
  [0xF0, 0xF1, 0xF2, 0xF4].contains (wfld base 56 8) &&
    match s.window s.cur.1 p.asid.toNat p.lh.toNat p.sec false base 1 with
    | .ok _ => true
    | .error _ => false

/-- Whether every element of a stream lies in the window of its base: the first and the last do. -/
def State.streamFits (s : State) (base stride : Word) (count : Nat) : Bool :=
  let size := match wfld base 56 8 with
    | 0xF0 => s.coreWin s.cur.1
    | 0xF1 => cluBytes
    | 0xF2 => chipBytes
    | _ => match s.coreOfL (coreSite s.cur.1) (wfld base 40 16) with
      | some k => s.coreWin k
      | none => 0
  let off : Int := wfld base 0 24
  let last := off + (count - 1 : Nat) * stride.toInt
  decide (1 ≤ count) && decide (count < 2 ^ 32) && decide (off + 64 ≤ size) && decide (0 ≤ last) && decide (last + 64 ≤ size)

/-- STREAM_READ_AHEAD (08 R231): the core reads the next element of a stream of the strand in a slot, at any time after
its SBIND has retired. -/
def State.readAhead (s : State) (c sl reg : Nat) : State :=
  match s.strand? c sl with
  | none => s
  | some p =>
    match (p.stream? reg).bind (s.readElement c p) with
    | none => s
    | some (v, locs) =>
      let push (b : Stream) : Stream := if b.reg = reg then { b with ahead := b.ahead ++ [v] } else b
      (s.putStrand c sl { p with streams := p.streams.map push }).watchRange false locs (some (c, p.own)) p.sid p.pc 0

/-- SBIND (08 R229). The spec names no address for ADDR with SUB 0x05: g3 is the base (log 22). -/
def execSbind (o : Ops) (s : State) : Host.Outcome State Fault Refusal :=
  .next (s.instr 0x81 0x00 o fun s =>
    let s := s.commit
    let base := s.val o.a
    let stride := s.val o.b
    let count := s.val o.c
    if !s.streamWindow base then s.raise .addr 0x01 base
    else if base.toNat % 64 ≠ 0 || stride.toNat % 64 ≠ 0 then s.raise .align 0 base
    else if !s.streamFits base stride count.toNat then s.raise .addr 0x05 base
    else if 2 ≤ s.me.streams.length && (s.me.stream? o.d.ix).isNone then s.raise .regAllot 0x03 0
    else
      let b : Stream := { reg := o.d.ix, base, stride, count := count.toNat, pos := 0, ahead := [] }
      (s.modMe fun p => { p with streams := p.streams.filter (fun x => x.reg != b.reg) ++ [b] }).retire)

/-- SUNBIND (08 R229). -/
def execSunbind (o : Ops) (s : State) : Host.Outcome State Fault Refusal :=
  .next (s.instr 0x81 0x01 o fun s =>
    (s.commit.modMe fun p => { p with streams := p.streams.filter fun x => x.reg != o.d.ix }).retire)

/-! ### Circular buffers (08 R233 to R236) -/

/-- CBINIT (08 R233). -/
def execCbinit (cb : BitVec 4) (level : BitVec 2) (prod cons : BitVec 3) (o : Ops) (s : State) :
    Host.Outcome State Fault Refusal :=
  .next (s.instr 0x82 0x00 o fun s =>
    let s := s.commit
    let d := s.myCore.cb cb.toNat
    let base := s.val o.a
    let sb := (s.val o.b).toNat
    let ns := (s.val o.c).toNat
    if d.valid && (d.waiters != 0 || d.claims != d.fills) then s.raise .prot 0x22 base
    else if base.toNat % 64 ≠ 0 then s.raise .align 0 base
    else if sb = 0 || 65535 < sb || ns = 0 || 65535 < ns then s.raise .addr 0x06 base
    else if s.levelSize s.cur.1 level < base.toNat + sb * 64 * ns then s.raise .addr 0x03 base
    else
      (s.modCb s.cur.1 cb.toNat fun _ =>
        { CbDesc.blank with valid := true, level, base := base.setWidth 24, slotb := BitVec.ofNat 16 sb,
                            nslot := BitVec.ofNat 16 ns, prod := prod.setWidth 8, cons := cons.setWidth 8 }).retire)

/-- The checks of the strand forms on their descriptor (08 R235). -/
def State.withCb (s : State) (cb : BitVec 4) (producer : Bool) (body : CbDesc → State → State) : State :=
  let d := s.myCore.cb cb.toNat
  if !d.valid then s.raise .prot 0x20 0
  else if (if producer then d.prod else d.cons) != 0 then s.raise .prot 0x21 0
  else body d s

/-- CBWAITF: its descriptor is checked first; then it waits for a full slot (08 R235, R236). -/
def execCbwaitf (cb : BitVec 4) (o : Ops) (s : State) : Host.Outcome State Fault Refusal :=
  .next (s.instr 0x82 0x01 o fun s => s.withCb cb false fun d s => s.noHandler fun s =>
      let s := s.commit.acquire
      if 1 ≤ d.full then s.putD o (d.slotAddr d.pops)
      else if d.err then s.faultAt s.cur.1 s.cur.2 (cbFault s.me)
      else s.waitCb cb.toNat (.cbFull cb o.d))

/-- CBWAITE: claims a slot (08 R235). A claim is given in the order of the waits. -/
def execCbwaite (cb : BitVec 4) (o : Ops) (s : State) : Host.Outcome State Fault Refusal :=
  .next (s.instr 0x82 0x02 o fun s => s.withCb cb true fun d s => s.noHandler fun s =>
      let s := s.commit
      if d.claimable then (s.modCb s.cur.1 cb.toNat fun x => { x with claims := x.claims + 1 }).putD o (d.slotAddr d.claims)
      else s.waitCb cb.toNat (.cbClaim cb o.d))

/-- CBPOP (08 R235). -/
def execCbpop (cb : BitVec 4) (o : Ops) (s : State) : Host.Outcome State Fault Refusal :=
  .next (s.instr 0x82 0x03 o fun s =>
    let s := s.commit
    s.withCb cb false fun d s =>
      if d.fills = d.pops then s.raise .prot 0x23 0
      else if !s.loadsRead s.me.own then s.await .retry
      else (s.pop s.cur.1 cb.toNat).retire)

/-- CBPUSH: a fill, in claim order, after the strand's stores (08 R234, R235). The spec names no address for PROT with SUB
0x24: g3 is 0 (log 22). -/
def execCbpush (cb : BitVec 4) (o : Ops) (s : State) : Host.Outcome State Fault Refusal :=
  .next (s.instr 0x82 0x04 o fun s =>
    let s := s.commit
    s.withCb cb true fun d s =>
      match d.slotOf (s.val o.a) with
      | none => s.raise .prot 0x24 0
      | some sl =>
        if !d.claimed sl then s.raise .prot 0x24 0
        else if !s.fenceDone .rel s.me.own then s.waitCb cb.toNat (.cbStores cb)
        else if d.fills.toNat % d.nslot.toNat = sl then (s.fill s.cur.1 cb.toNat).retire
        else s.waitCb cb.toNat (.cbPush cb sl))

/-- CBSTAT (08 R235). -/
def execCbstat (cb : BitVec 4) (o : Ops) (s : State) : Host.Outcome State Fault Refusal :=
  .next (s.instr 0x82 0x05 o fun s =>
    let d := s.myCore.cb cb.toNat
    s.putD o (toWord (d.valid.toNat * 2 ^ 63 + d.err.toNat * 2 ^ 62 + (d.claims - d.fills).toNat % 2 ^ 16 * 2 ^ 32 +
      (d.fills - d.pops).toNat % 2 ^ 16)))

end Sys2Proof.Machine
end

