-- ==== Sys2Proof/Machine/Dispatch.lean ====
section
/-! DEFINITION. The one match over the instructions and events: each arm calls its meaning. -/

namespace Sys2Proof.Machine

/-- The effect of an instruction or an event. -/
def exec (i : Instr) (s : State) : Host.Outcome State Fault Refusal :=
  match i with
  | .add w o => Sys2Proof.Machine.execAdd w o s
  | .sub w o => Sys2Proof.Machine.execSub w o s
  | .and w o => Sys2Proof.Machine.execAnd w o s
  | .or w o => Sys2Proof.Machine.execOr w o s
  | .xor w o => Sys2Proof.Machine.execXor w o s
  | .andn w o => Sys2Proof.Machine.execAndn w o s
  | .shl w o => Sys2Proof.Machine.execShl w o s
  | .shr w o => Sys2Proof.Machine.execShr w o s
  | .sar w o => Sys2Proof.Machine.execSar w o s
  | .rol w o => Sys2Proof.Machine.execRol w o s
  | .min w o => Sys2Proof.Machine.execMin w o s
  | .max w o => Sys2Proof.Machine.execMax w o s
  | .minu w o => Sys2Proof.Machine.execMinu w o s
  | .maxu w o => Sys2Proof.Machine.execMaxu w o s
  | .mul w o => Sys2Proof.Machine.execMul w o s
  | .mulh w o => Sys2Proof.Machine.execMulh w o s
  | .mulhu w o => Sys2Proof.Machine.execMulhu w o s
  | .div w o => Sys2Proof.Machine.execDiv w o s
  | .divu w o => Sys2Proof.Machine.execDivu w o s
  | .rem w o => Sys2Proof.Machine.execRem w o s
  | .remu w o => Sys2Proof.Machine.execRemu w o s
  | .clz o => Sys2Proof.Machine.execClz o s
  | .ctz o => Sys2Proof.Machine.execCtz o s
  | .popc o => Sys2Proof.Machine.execPopc o s
  | .brev o => Sys2Proof.Machine.execBrev o s
  | .bswap o => Sys2Proof.Machine.execBswap o s
  | .sext o => Sys2Proof.Machine.execSext o s
  | .extb o => Sys2Proof.Machine.execExtb o s
  | .insb o => Sys2Proof.Machine.execInsb o s
  | .cmpEq o => Sys2Proof.Machine.execCmpEq o s
  | .cmpNe o => Sys2Proof.Machine.execCmpNe o s
  | .cmpLt o => Sys2Proof.Machine.execCmpLt o s
  | .cmpGe o => Sys2Proof.Machine.execCmpGe o s
  | .cmpLtu o => Sys2Proof.Machine.execCmpLtu o s
  | .cmpGeu o => Sys2Proof.Machine.execCmpGeu o s
  | .sel o => Sys2Proof.Machine.execSel o s
  | .mov o => Sys2Proof.Machine.execMov o s
  | .movi o => Sys2Proof.Machine.execMovi o s
  | .moviH o => Sys2Proof.Machine.execMoviH o s
  | .lea x o => Sys2Proof.Machine.execLea x o s
  | .addpc o => Sys2Proof.Machine.execAddpc o s
  | .bccEq off o => Sys2Proof.Machine.execBccEq off o s
  | .bccNe off o => Sys2Proof.Machine.execBccNe off o s
  | .bccLt off o => Sys2Proof.Machine.execBccLt off o s
  | .bccGe off o => Sys2Proof.Machine.execBccGe off o s
  | .bccLtu off o => Sys2Proof.Machine.execBccLtu off o s
  | .bccGeu off o => Sys2Proof.Machine.execBccGeu off o s
  | .bccZ off o => Sys2Proof.Machine.execBccZ off o s
  | .bccNz off o => Sys2Proof.Machine.execBccNz off o s
  | .jmp off o => Sys2Proof.Machine.execJmp off o s
  | .jmpi o => Sys2Proof.Machine.execJmpi o s
  | .call off o => Sys2Proof.Machine.execCall off o s
  | .calli o => Sys2Proof.Machine.execCalli o s
  | .ret o => Sys2Proof.Machine.execRet o s
  | .loop off o => Sys2Proof.Machine.execLoop off o s
  | .jtab tbl cnt o => Sys2Proof.Machine.execJtab tbl cnt o s
  | .trap code o => Sys2Proof.Machine.execTrap code o s
  | .brk code o => Sys2Proof.Machine.execBrk code o s
  | .svc n o => Sys2Proof.Machine.execSvc n o s
  | .nop o => Sys2Proof.Machine.execNop o s
  | .pause o => Sys2Proof.Machine.execPause o s
  | .yield o => Sys2Proof.Machine.execYield o s
  | .sresume o => Sys2Proof.Machine.execSresume o s
  | .skill o => Sys2Proof.Machine.execSkill o s
  | .rdsys num o => Sys2Proof.Machine.execRdsys num o s
  | .wrsys num o => Sys2Proof.Machine.execWrsys num o s
  | .rdtime o => Sys2Proof.Machine.execRdtime o s
  | .rdtimeCc o => Sys2Proof.Machine.execRdtimeCc o s
  | .ld w sgn x o => Sys2Proof.Machine.execLd w sgn x o s
  | .ldAcq w sgn x o => Sys2Proof.Machine.execLdAcq w sgn x o s
  | .ldq x o => Sys2Proof.Machine.execLdq x o s
  | .st w x o => Sys2Proof.Machine.execSt w x o s
  | .stRel w x o => Sys2Proof.Machine.execStRel w x o s
  | .stq x o => Sys2Proof.Machine.execStq x o s
  | .rcommit o => Sys2Proof.Machine.execRcommit o s
  | .aadd dbl t o => Sys2Proof.Machine.execAadd dbl t o s
  | .aand dbl t o => Sys2Proof.Machine.execAand dbl t o s
  | .aor dbl t o => Sys2Proof.Machine.execAor dbl t o s
  | .axor dbl t o => Sys2Proof.Machine.execAxor dbl t o s
  | .amin dbl t o => Sys2Proof.Machine.execAmin dbl t o s
  | .amax dbl t o => Sys2Proof.Machine.execAmax dbl t o s
  | .aminu dbl t o => Sys2Proof.Machine.execAminu dbl t o s
  | .amaxu dbl t o => Sys2Proof.Machine.execAmaxu dbl t o s
  | .aswap dbl t o => Sys2Proof.Machine.execAswap dbl t o s
  | .afadd dbl t o => Sys2Proof.Machine.execAfadd dbl t o s
  | .acas dbl t o => Sys2Proof.Machine.execAcas dbl t o s
  | .acas2 t o => Sys2Proof.Machine.execAcas2 t o s
  | .fence scope order o => Sys2Proof.Machine.execFence scope order o s
  | .fencep scope order paths o => Sys2Proof.Machine.execFencep scope order paths o s
  | .waitchg dbl t o => Sys2Proof.Machine.execWaitchg dbl t o s
  | .rvjoin t o => Sys2Proof.Machine.execRvjoin t o s
  | .rvarrive t o => Sys2Proof.Machine.execRvarrive t o s
  | .rvwait t o => Sys2Proof.Machine.execRvwait t o s
  | .spawn o => Sys2Proof.Machine.execSpawn o s
  | .exit o => Sys2Proof.Machine.execExit o s
  | .migrate o => Sys2Proof.Machine.execMigrate o s
  | .migrateC o => Sys2Proof.Machine.execMigrateC o s
  | .vgrow o => Sys2Proof.Machine.execVgrow o s
  | .vshrink o => Sys2Proof.Machine.execVshrink o s
  | .vmov o => Sys2Proof.Machine.execVmov o s
  | .vbcast o => Sys2Proof.Machine.execVbcast o s
  | .vext o => Sys2Proof.Machine.execVext o s
  | .vins o => Sys2Proof.Machine.execVins o s
  | .viota o => Sys2Proof.Machine.execViota o s
  | .vcmp cond o => Sys2Proof.Machine.execVcmp cond o s
  | .mlog op ma mb o => Sys2Proof.Machine.execMlog op ma mb o s
  | .mpop mode ma o => Sys2Proof.Machine.execMpop mode ma o s
  | .vperm o => Sys2Proof.Machine.execVperm o s
  | .vslide up o => Sys2Proof.Machine.execVslide up o s
  | .vred op o => Sys2Proof.Machine.execVred op o s
  | .vscan op o => Sys2Proof.Machine.execVscan op o s
  | .vadd o => Sys2Proof.Machine.execVadd o s
  | .vsub o => Sys2Proof.Machine.execVsub o s
  | .vmul o => Sys2Proof.Machine.execVmul o s
  | .vmad o => Sys2Proof.Machine.execVmad o s
  | .vand o => Sys2Proof.Machine.execVand o s
  | .vor o => Sys2Proof.Machine.execVor o s
  | .vxor o => Sys2Proof.Machine.execVxor o s
  | .vshl o => Sys2Proof.Machine.execVshl o s
  | .vshr o => Sys2Proof.Machine.execVshr o s
  | .vsar o => Sys2Proof.Machine.execVsar o s
  | .vmin u o => Sys2Proof.Machine.execVmin u o s
  | .vmax u o => Sys2Proof.Machine.execVmax u o s
  | .fadd md r o => Sys2Proof.Machine.execFadd md r o s
  | .fsub md r o => Sys2Proof.Machine.execFsub md r o s
  | .fmul md r o => Sys2Proof.Machine.execFmul md r o s
  | .ffma md r o => Sys2Proof.Machine.execFfma md r o s
  | .fmin md o => Sys2Proof.Machine.execFmin md o s
  | .fmax md o => Sys2Proof.Machine.execFmax md o s
  | .frcp o => Sys2Proof.Machine.execFrcp o s
  | .frsq o => Sys2Proof.Machine.execFrsq o s
  | .frcpn o => Sys2Proof.Machine.execFrcpn o s
  | .frsqn o => Sys2Proof.Machine.execFrsqn o s
  | .fexp2 r o => Sys2Proof.Machine.execFexp2 r o s
  | .flog2 r o => Sys2Proof.Machine.execFlog2 r o s
  | .ftanh r o => Sys2Proof.Machine.execFtanh r o s
  | .fcvt sf df r part sat amx o => Sys2Proof.Machine.execFcvt sf df r part sat amx o s
  | .icvt sf df r part o => Sys2Proof.Machine.execIcvt sf df r part o s
  | .c4enc pos o => Sys2Proof.Machine.execC4enc pos o s
  | .bscaleDerive tf o => Sys2Proof.Machine.execBscaleDerive tf o s
  | .bscaleApply r o => Sys2Proof.Machine.execBscaleApply r o s
  | .amaxrd o => Sys2Proof.Machine.execAmaxrd o s
  | .amaxclr o => Sys2Proof.Machine.execAmaxclr o s
  | .vld x o => Sys2Proof.Machine.execVld x o s
  | .vst x o => Sys2Proof.Machine.execVst x o s
  | .vgath x o => Sys2Proof.Machine.execVgath x o s
  | .vscat x o => Sys2Proof.Machine.execVscat x o s
  | .sbind o => Sys2Proof.Machine.execSbind o s
  | .sunbind o => Sys2Proof.Machine.execSunbind o s
  | .cbinit cb level prod cons o => Sys2Proof.Machine.execCbinit cb level prod cons o s
  | .cbwaitf cb o => Sys2Proof.Machine.execCbwaitf cb o s
  | .cbwaite cb o => Sys2Proof.Machine.execCbwaite cb o s
  | .cbpop cb o => Sys2Proof.Machine.execCbpop cb o s
  | .cbpush cb o => Sys2Proof.Machine.execCbpush cb o s
  | .cbstat cb o => Sys2Proof.Machine.execCbstat cb o s
  | .mwload wfmt wsc o => Sys2Proof.Machine.execMwload wfmt wsc o s
  | .mcbook o => Sys2Proof.Machine.execMcbook o s
  | .mstream x o => Sys2Proof.Machine.execMstream x o s
  | .mdrain x o => Sys2Proof.Machine.execMdrain x o s
  | .mclr shape set o => Sys2Proof.Machine.execMclr shape set o s
  | .mswap o => Sys2Proof.Machine.execMswap o s
  | .mwait all o => Sys2Proof.Machine.execMwait all o s
  | .gang g joint o => Sys2Proof.Machine.execGang g joint o s
  | .clbarArrive bar o => Sys2Proof.Machine.execClbarArrive bar o s
  | .clbarWait bar o => Sys2Proof.Machine.execClbarWait bar o s
  | .chset ctr o => Sys2Proof.Machine.execChset ctr o s
  | .chunk ctr o => Sys2Proof.Machine.execChunk ctr o s
  | .geom lv o => Sys2Proof.Machine.execGeom lv o s
  | .part lvs edge o => Sys2Proof.Machine.execPart lvs edge o s
  | .tlbinvPage wide o => Sys2Proof.Machine.execTlbinvPage wide o s
  | .tlbinvAsid wide o => Sys2Proof.Machine.execTlbinvAsid wide o s
  | .tlbinvGlob wide o => Sys2Proof.Machine.execTlbinvGlob wide o s
  | .tlbinvAll wide o => Sys2Proof.Machine.execTlbinvAll wide o s
  | .acopy x o => Sys2Proof.Machine.execAcopy x o s
  | .acopycbFill cb sync low o => Sys2Proof.Machine.execAcopycbFill cb sync low o s
  | .acopycbDrain cb sync low o => Sys2Proof.Machine.execAcopycbDrain cb sync low o s
  | .await cls all o => Sys2Proof.Machine.execAwait cls all o s
  | .aseq cls mode o => Sys2Proof.Machine.execAseq cls mode o s
  | .hgemv x o => Sys2Proof.Machine.execHgemv x o s
  | .pagereqNext o => Sys2Proof.Machine.execPagereqNext o s
  | .pagereqReply o => Sys2Proof.Machine.execPagereqReply o s
  | .amsend x o => Sys2Proof.Machine.execAmsend x o s
  | .amsendc x o => Sys2Proof.Machine.execAmsendc x o s
  | .rmapostWrite sync fence len o => Sys2Proof.Machine.execRmapostWrite sync fence len o s
  | .rmapostRead sync fence len o => Sys2Proof.Machine.execRmapostRead sync fence len o s
  | .rmapostFadd sync fence o => Sys2Proof.Machine.execRmapostFadd sync fence o s
  | .rmapostCas sync fence o => Sys2Proof.Machine.execRmapostCas sync fence o s
  | .rmapoll o => Sys2Proof.Machine.execRmapoll o s
  | .issueGroup core => Sys2Proof.Machine.execIssueGroup core s
  | .pauseEnd core slot => Sys2Proof.Machine.execPauseEnd core slot s
  | .yieldEnd core slot => Sys2Proof.Machine.execYieldEnd core slot s
  | .regionTimerCommit core slot => Sys2Proof.Machine.execRegionTimerCommit core slot s
  | .regionCountCommit core slot => Sys2Proof.Machine.execRegionCountCommit core slot s
  | .writePerformed id => Sys2Proof.Machine.execWritePerformed id s
  | .readPerformed id part => Sys2Proof.Machine.execReadPerformed id part s
  | .loadReply id => Sys2Proof.Machine.execLoadReply id s
  | .atomicAtHome id => Sys2Proof.Machine.execAtomicAtHome id s
  | .atomicReply id => Sys2Proof.Machine.execAtomicReply id s
  | .rendezvousArrive id => Sys2Proof.Machine.execRendezvousArrive id s
  | .rendezvousTake id => Sys2Proof.Machine.execRendezvousTake id s
  | .releaseReply id => Sys2Proof.Machine.execReleaseReply id s
  | .rendezvousResend id => Sys2Proof.Machine.execRendezvousResend id s
  | .waitchgWake core slot => Sys2Proof.Machine.execWaitchgWake core slot s
  | .waitchgPoll core slot => Sys2Proof.Machine.execWaitchgPoll core slot s
  | .replLockGrant id => Sys2Proof.Machine.execReplLockGrant id s
  | .replUpdate id => Sys2Proof.Machine.execReplUpdate id s
  | .pasAccept id => Sys2Proof.Machine.execPasAccept id s
  | .pasLock id => Sys2Proof.Machine.execPasLock id s
  | .pasResult id => Sys2Proof.Machine.execPasResult id s
  | .pasResend id => Sys2Proof.Machine.execPasResend id s
  | .pageReply site tag => Sys2Proof.Machine.execPageReply site tag s
  | .faultDelivery core => Sys2Proof.Machine.execFaultDelivery core s
  | .deferredFault core slot => Sys2Proof.Machine.execDeferredFault core slot s
  | .migrationArrival id => Sys2Proof.Machine.execMigrationArrival id s
  | .migrationResend id => Sys2Proof.Machine.execMigrationResend id s
  | .migrationStale id => Sys2Proof.Machine.execMigrationStale id s
  | .messageArrival id => Sys2Proof.Machine.execMessageArrival id s
  | .messageActivation core => Sys2Proof.Machine.execMessageActivation core s
  | .sendStatus id => Sys2Proof.Machine.execSendStatus id s
  | .parkedRestore core => Sys2Proof.Machine.execParkedRestore core s
  | .dispatcherPlacement site => Sys2Proof.Machine.execDispatcherPlacement site s
  | .stealRequest site asid lh => Sys2Proof.Machine.execStealRequest site asid lh s
  | .stealAnswer id => Sys2Proof.Machine.execStealAnswer id s
  | .stealReply id => Sys2Proof.Machine.execStealReply id s
  | .preemptionRequest core => Sys2Proof.Machine.execPreemptionRequest core s
  | .quiesceEnd core => Sys2Proof.Machine.execQuiesceEnd core s
  | .saveComplete core => Sys2Proof.Machine.execSaveComplete core s
  | .resumeMessage core => Sys2Proof.Machine.execResumeMessage core s
  | .restoreComplete core => Sys2Proof.Machine.execRestoreComplete core s
  | .spillQueueRedelivery core => Sys2Proof.Machine.execSpillQueueRedelivery core s
  | .icacheFill clu line victim => Sys2Proof.Machine.execIcacheFill clu line victim s
  | .matrixEntryStart core ticket => Sys2Proof.Machine.execMatrixEntryStart core ticket s
  | .matrixRowAdd core ticket => Sys2Proof.Machine.execMatrixRowAdd core ticket s
  | .matrixEntryComplete core ticket => Sys2Proof.Machine.execMatrixEntryComplete core ticket s
  | .engineStart id => Sys2Proof.Machine.execEngineStart id s
  | .engineSpan id => Sys2Proof.Machine.execEngineSpan id s
  | .engineComplete id => Sys2Proof.Machine.execEngineComplete id s
  | .baseDieStart stack => Sys2Proof.Machine.execBaseDieStart stack s
  | .tlbWalk clu id => Sys2Proof.Machine.execTlbWalk clu id s
  | .shootdownRequest id clu => Sys2Proof.Machine.execShootdownRequest id clu s
  | .shootdownAck id clu => Sys2Proof.Machine.execShootdownAck id clu s
  | .shootdownResend id => Sys2Proof.Machine.execShootdownResend id s
  | .inrushGrant => Sys2Proof.Machine.execInrushGrant s
  | .powerGood image => Sys2Proof.Machine.execPowerGood image s
  | .clockForwarding site => Sys2Proof.Machine.execClockForwarding site s
  | .selfTestDone site grade cores => Sys2Proof.Machine.execSelfTestDone site grade cores s
  | .edgeTrainingDone site failed => Sys2Proof.Machine.execEdgeTrainingDone site failed s
  | .bringupTimeout site => Sys2Proof.Machine.execBringupTimeout site s
  | .siteEnable site => Sys2Proof.Machine.execSiteEnable site s
  | .partitionCreate part sites d donors => Sys2Proof.Machine.execPartitionCreate part sites d donors s
  | .routeWrite site => Sys2Proof.Machine.execRouteWrite site s
  | .logicalCoreRebind core spare => Sys2Proof.Machine.execLogicalCoreRebind core spare s
  | .regionFrequencyChange region mhz => Sys2Proof.Machine.execRegionFrequencyChange region mhz s
  | .siteFailure site => Sys2Proof.Machine.execSiteFailure site s
  | .routedPacketReturn id => Sys2Proof.Machine.execRoutedPacketReturn id s
  | .chipletReset site => Sys2Proof.Machine.execChipletReset site s
  | .staleResponse id => Sys2Proof.Machine.execStaleResponse id s
  | .firmwareRegisterWrite num unit idx val => Sys2Proof.Machine.execFirmwareRegisterWrite num unit idx val s
  | .contextCreate req => Sys2Proof.Machine.execContextCreate req s
  | .contextEnd asid => Sys2Proof.Machine.execContextEnd asid s
  | .kick queue => Sys2Proof.Machine.execKick queue s
  | .epoch => Sys2Proof.Machine.execEpoch s
  | .packetFetch slot => Sys2Proof.Machine.execPacketFetch slot s
  | .rangedLaunch slot => Sys2Proof.Machine.execRangedLaunch slot s
  | .activeMessageLaunch slot => Sys2Proof.Machine.execActiveMessageLaunch slot s
  | .timedLaunch slot => Sys2Proof.Machine.execTimedLaunch slot s
  | .timedLaunchFire slot => Sys2Proof.Machine.execTimedLaunchFire slot s
  | .barrier slot => Sys2Proof.Machine.execBarrier slot s
  | .signal slot => Sys2Proof.Machine.execSignal slot s
  | .copy slot => Sys2Proof.Machine.execCopy slot s
  | .attestation nonce => Sys2Proof.Machine.execAttestation nonce s
  | .firmwareUpdate image => Sys2Proof.Machine.execFirmwareUpdate image s
  | .presentation id => Sys2Proof.Machine.execPresentation id s
  | .presentationResend id => Sys2Proof.Machine.execPresentationResend id s
  | .replayStall asid lane => Sys2Proof.Machine.execReplayStall asid lane s
  | .laneDrain asid lane n => Sys2Proof.Machine.execLaneDrain asid lane n s
  | .laneStallReport asid lane => Sys2Proof.Machine.execLaneStallReport asid lane s
  | .laneFill asid lane recs => Sys2Proof.Machine.execLaneFill asid lane recs s
  | .endSet asid => Sys2Proof.Machine.execEndSet asid s
  | .debugAttach asid authorised trapmask => Sys2Proof.Machine.execDebugAttach asid authorised trapmask s
  | .strandStop core slot => Sys2Proof.Machine.execStrandStop core slot s
  | .coreStop core => Sys2Proof.Machine.execCoreStop core s
  | .contextStop asid => Sys2Proof.Machine.execContextStop asid s
  | .force core => Sys2Proof.Machine.execForce core s
  | .resume core slot pc => Sys2Proof.Machine.execResume core slot pc s
  | .deliver core slot => Sys2Proof.Machine.execDeliver core slot s
  | .step core slot => Sys2Proof.Machine.execStep core slot s
  | .stateWrite core slot w => Sys2Proof.Machine.execStateWrite core slot w s
  | .debugMemoryAccess asid va n data => Sys2Proof.Machine.execDebugMemoryAccess asid va n data s
  | .debugClear core perf => Sys2Proof.Machine.execDebugClear core perf s
  | .sample core => Sys2Proof.Machine.execSample core s
  | .doorbellWrite offset bytes val => Sys2Proof.Machine.execDoorbellWrite offset bytes val s
  | .debugCommand => Sys2Proof.Machine.execDebugCommand s
  | .hostPortFailover port => Sys2Proof.Machine.execHostPortFailover port s
  | .qpCreate asid link => Sys2Proof.Machine.execQpCreate asid link s
  | .qpInit qp port retry => Sys2Proof.Machine.execQpInit qp port retry s
  | .qpConnect qp rmod rqp inc => Sys2Proof.Machine.execQpConnect qp rmod rqp inc s
  | .qpReset qp => Sys2Proof.Machine.execQpReset qp s
  | .qpDestroy qp => Sys2Proof.Machine.execQpDestroy qp s
  | .reg asid base len rr rw ra => Sys2Proof.Machine.execReg asid base len rr rw ra s
  | .revoke key => Sys2Proof.Machine.execRevoke key s
  | .revokeApply link index => Sys2Proof.Machine.execRevokeApply link index s
  | .frameReceive link port ok => Sys2Proof.Machine.execFrameReceive link port ok s
  | .portRetrain link port => Sys2Proof.Machine.execPortRetrain link port s
  | .fabricForward link dst pkt => Sys2Proof.Machine.execFabricForward link dst pkt s
  | .packetAgeDrop id => Sys2Proof.Machine.execPacketAgeDrop id s
  | .fabricRequestAtTarget link pkt => Sys2Proof.Machine.execFabricRequestAtTarget link pkt s
  | .fabricResponse rsp => Sys2Proof.Machine.execFabricResponse rsp s
  | .notReadyResend id => Sys2Proof.Machine.execNotReadyResend id s
  | .qpContextFetch qp => Sys2Proof.Machine.execQpContextFetch qp s
  | .linkChipletReset link => Sys2Proof.Machine.execLinkChipletReset link s
  | .rmapostStart id => Sys2Proof.Machine.execRmapostStart id s
  | .moduleReset => Sys2Proof.Machine.execModuleReset s
  | .hostPortUp port => Sys2Proof.Machine.execHostPortUp port s
  | .portTrained link port up => Sys2Proof.Machine.execPortTrained link port up s
  | .timeDiscipline delta => Sys2Proof.Machine.execTimeDiscipline delta s
  | .stableSupply clu => Sys2Proof.Machine.execStableSupply clu s
  | .clusterPowerGating clu => Sys2Proof.Machine.execClusterPowerGating clu s

end Sys2Proof.Machine
end

