-- ==== Sys2Proof/Machine/Schedule.lean ====
section
/-! DEFINITION. What the module does by itself: the acts of its agents that may come next, and the choice among them, which
no rule makes (log 1). What comes from outside (the host, firmware's decisions, the supply, the fabric's wires) is not among
them: it stands on the agenda. -/

namespace Sys2Proof.Machine

/-- An act of an agent: the meaning of an event with its arguments. -/
abbrev Act := State → Host.Outcome State Fault Refusal

/-- An act that no event of the table names. -/
def unit (f : State → State) : Act := fun s => .next (f s)

/-- Acts of the cores (04, 05, 06 R164, 07, 09, 16 R370, 19 R435). -/
def State.coreActs (s : State) : List Act :=
  let spots := s.cores.flatMap fun e => e.2.slots.map fun x => (e.1, x.1)
  let places := spots ++ s.cores.flatMap fun e => e.2.park.map fun x => (e.1, 64 + x.1)
  let streams := s.cores.flatMap fun e => e.2.slots.flatMap fun x => x.2.streams.map fun b => (e.1, x.1, b.reg)
  let entries := s.cores.flatMap fun e => e.2.mtx.queue.map fun x => (e.1, x.ticket.toNat)
  (s.cores.flatMap fun e =>
    [execIssueGroup e.1, execFaultDelivery e.1, execMessageActivation e.1, execParkedRestore e.1, execSpillQueueRedelivery e.1,
     execQuiesceEnd e.1, execSaveComplete e.1, execRestoreComplete e.1, execSample e.1, unit (State.readyParked · e.1)]) ++
  (spots.flatMap fun p =>
    [unit (State.goOn · p.1 p.2), execPauseEnd p.1 p.2, execYieldEnd p.1 p.2, execRegionTimerCommit p.1 p.2, execRegionCountCommit p.1 p.2]) ++
  (places.flatMap fun p => [execWaitchgWake p.1 p.2, execWaitchgPoll p.1 p.2, execDeferredFault p.1 p.2]) ++
  (streams.map fun p => unit (State.readAhead · p.1 p.2.1 p.2.2)) ++
  (entries.flatMap fun p => [execMatrixEntryStart p.1 p.2, execMatrixRowAdd p.1 p.2, execMatrixEntryComplete p.1 p.2])

/-- Acts of the memory system on the accesses in flight (06, 15, 16, 11 R310, 14 R334). -/
def State.memoryActs (s : State) : List Act :=
  (s.writes.flatMap fun w => [execWritePerformed w.id, execReplLockGrant w.id, execReplUpdate w.id]) ++
  (s.loads.flatMap fun l => execLoadReply l.id :: (List.range l.parts.length).map (execReadPerformed l.id)) ++
  (s.atoms.flatMap fun a =>
    [execAtomicAtHome a.id, execAtomicReply a.id, execRendezvousArrive a.id, execRendezvousTake a.id, execReleaseReply a.id,
     execRendezvousResend a.id, execPasAccept a.id, execPasLock a.id, execPasResult a.id, execPasResend a.id,
     execPresentationResend a.id]) ++
  (s.sends.flatMap fun m => [execMessageArrival m.id, execSendStatus m.id, execPresentationResend m.id]) ++
  (s.migs.flatMap fun m => [execMigrationArrival m.id, execMigrationResend m.id, execMigrationStale m.id]) ++
  ((s.writes.map (·.id) ++ s.loads.map (·.id) ++ s.atoms.map (·.id) ++ s.sends.map (·.id) ++ s.migs.map (·.id) ++
    s.ops.map (·.id)).flatMap fun n => [execStaleResponse n, execRoutedPacketReturn n]) ++
  (s.cores.flatMap fun e => (e.2.strandsWhere fun p => p.wait?.isSome).map fun x => execStaleResponse x.2.waitNo)

/-- Acts of clusters, chiplets and engines (10, 11, 23). A cache that is full gives up a line that no rule names (log 11). -/
def State.unitActs (s : State) : List Act :=
  let lines := s.cores.flatMap fun e => e.2.slots.map fun x => (coreClu e.1, x.2.pc.toNat / 64)
  let victim (p : Nat × Nat) : Option Nat :=
    let l := (s.clu p.1).icSet p.2
    l[Config.choice (s.fresh + 1) % l.length]?
  (lines.map fun p => execIcacheFill p.1 p.2 (victim p)) ++
  (s.clusters.flatMap fun e => e.2.walks.map fun w => execTlbWalk e.1 w.id) ++
  (s.shoots.flatMap fun x => execShootdownResend x.id ::
    (List.range 1296).flatMap fun k => [execShootdownRequest x.id k, execShootdownAck x.id k]) ++
  (s.chiplets.flatMap fun e => execDispatcherPlacement e.1 :: e.2.ranges.map fun r => execStealRequest e.1 r.asid r.lh.toNat) ++
  (s.steals.flatMap fun t => [execStealAnswer t.id, execStealReply t.id]) ++
  (s.pageReplies.map fun r => execPageReply r.site r.req.tag) ++
  (s.ops.flatMap fun o =>
    [execEngineStart o.id, execEngineSpan o.id, execEngineComplete o.id, execRmapostStart o.id, execNotReadyResend o.id]) ++
  (s.ops.map fun o => unit (State.baseDieArrive · o.id)) ++
  ((List.range 48).map execBaseDieStart) ++
  (s.links.flatMap fun e => e.2.rsps.map execFabricResponse ++ e.2.reqs.map fun p => unit (State.headPacket · e.1 p)) ++
  (s.qps.map fun e => execQpContextFetch e.1) ++
  (s.memRegions.flatMap fun e => e.2.toApply.map fun l => execRevokeApply l e.1)

/-- Acts of the Spine and of the Colophon's units (14 R335, 17, 18). An epoch follows the last after 10 µs (18 R414). -/
def State.spineActs (s : State) : List Act :=
  let held := s.cores.flatMap fun e =>
    (e.2.strandsWhere fun t => match t.wait? with | some (.held _) => true | _ => false).map fun x => x.2.waitNo
  (if 10000 ≤ (s.spine.time - s.spine.lastEpoch).toNat then [execEpoch] else []) ++
  [execInrushGrant, execDebugCommand, unit State.debugWritten, unit State.setSpeeds] ++
  (s.spine.hw.flatMap fun e =>
    [execPacketFetch e.1, execRangedLaunch e.1, execActiveMessageLaunch e.1, execTimedLaunch e.1, execTimedLaunchFire e.1,
     execBarrier e.1, execSignal e.1, execCopy e.1]) ++
  (held.map execPresentation) ++
  (s.lanes.flatMap fun e =>
    [execReplayStall (e.1 / 2 ^ 16) (e.1 % 2 ^ 16), execLaneStallReport (e.1 / 2 ^ 16) (e.1 % 2 ^ 16),
     unit (State.flushLane · (e.1 / 2 ^ 16) (e.1 % 2 ^ 16))])

/-- The acts that may come next. One whose condition does not hold changes nothing. -/
def State.acts (s : State) : List Act := s.coreActs ++ s.memoryActs ++ s.unitActs ++ s.spineActs

/-- Whether a core has no issue opportunities: outside RUN, or without power. -/
def State.still (s : State) (c : Nat) : Bool := (s.core c).phase != .run || (s.clu (coreClu c)).power != .up

/-- Time passes between two acts, by an amount that no rule gives (log 5): TIME, and the cycles of the cores that issue nothing. -/
def State.pass (s : State) : State :=
  let n := Config.elapsed s.fresh
  let s := (s.cores.map (·.1)).foldl (fun (s : State) c => if s.still c then s.idle c n else s) s
  (s.advanceTime n).tick

/-- The act of the module that comes next (log 1). -/
def State.nextStep (s : State) : Host.Outcome State Fault Refusal :=
  let t := s.pass
  match t.acts[Config.choice s.fresh % t.acts.length]? with
  | some f => f t
  | none => .next t

end Sys2Proof.Machine
end

