-- ==== Sys2Proof/Machine/Step.lean ====
section
/-! DEFINITION. One step of the module, and the placing of an instruction where the next step fetches. -/

namespace Sys2Proof.Machine

/-- The member of the issue group in a slot of a core fetches, checks and executes (01 R38, R39). -/
def stepMember (s : State) : Host.Outcome State Fault Refusal :=
  match s.fetch s.cur.1 s.me with
  | .ok i => exec i s
  | f => .next (s.unfetched f)

/-- One step (log 1): the next member of the open issue group, or the instruction that goes on, executes; with none, the next act of the
agenda happens; with none, the next act of the module. -/
def step (s : State) : Host.Outcome State Fault Refusal :=
  match s.issuing with
  | (c, sl) :: rest =>
    let s := { s with issuing := rest, cur := (c, sl) }
    if s.me.st == .issuing || s.me.st == .waiting .retry then stepMember s else .next s
  | [] =>
    match s.agenda with
    | e :: rest =>
      let s := { s with agenda := rest }
      if e.shape.isSome then .next s else exec e s
    | [] => s.nextStep

/-- The state with an instruction placed where `step` fetches its next instruction (log 2): `w` holds the
bits of its words, `nbits` of them given and the rest zero. -/
def State.withFetchWord (s : State) (nbits w : Nat) : State := s.placeWord (w % 2 ^ nbits)

end Sys2Proof.Machine
end

