-- ==== Sys2Proof/Safety.lean ====
section
/-! DEFINITION. What counts as a safe run, and the terms in which statements about a step are made: a strand that executes
with no debugging facility watching, and what a step leaves as it was. -/

namespace Sys2Proof

/-- A state that `n` steps lead to. -/
def Reaches : Nat → Machine.State → Machine.State → Prop
  | 0, s, t => t = s
  | n + 1, s, t => ∃ u, Machine.step s = .next u ∧ Reaches n u t

/-- The step at a state answers a next state. -/
def Steps (s : Machine.State) : Prop := ∃ t, Machine.step s = .next t

/-- A run is safe when every state it reaches steps on and holds its memory in canonical form. -/
def SafeRun (s : Machine.State) : Prop := ∀ n t, Reaches n s t → Steps t ∧ t.mem.wf = true

namespace Machine

/-! ### Where an instruction is stated to complete -/

/-- A strand stands in the slot that executes. -/
def State.Runs (s : State) : Prop := (s.strand? s.cur.1 s.cur.2).isSome = true

/-- No register watchpoint is armed on the executing core, and the strand does not step (19 R428, R430). -/
structure State.Quiet (s : State) : Prop where
  watch : ∀ i, i < 4 → wfld (vget { ctl := 0, val := 0, hit := 0 } s.myCore.wp i).ctl 62 2 ≠ 3
  step : s.me.stepping = false

/-- A strand executes, unwatched. -/
structure State.Calm (s : State) : Prop where
  runs : s.Runs
  quiet : s.Quiet

/-- No watchpoint of any core is armed (19 R430). -/
def State.Unwatched (s : State) : Prop :=
  ∀ c i, i < 4 → wfld (vget { ctl := 0, val := 0, hit := 0 } (s.core c).wp i).ctl 62 2 = 0

/-! ### What a step leaves as it was -/

/-- Every core but the one that executes, and of that one everything but its slots and counters. -/
structure CoresKept (s t : State) : Prop where
  others : ∀ c, c ≠ s.cur.1 → t.core c = s.core c
  mine : { t.myCore with slots := s.myCore.slots, perf := s.myCore.perf } = s.myCore
  slots : ∀ n, n ≠ s.cur.2 → t.strand? s.cur.1 n = s.strand? s.cur.1 n

/-- Everything but the strand that executes and its core's counters: all of memory among it. -/
structure OnlyStrand (s t : State) : Prop where
  rest : { t with cores := s.cores } = s
  bytes : ∀ l, memGet t.mem l = memGet s.mem l
  cores : CoresKept s t

/-- Of a strand, everything but its g registers, its PC, and what every instruction updates: its state, the word it
executes, the latches, the count of its region, a checkpoint that was due (04 R103), the turn of a presentation that it held
(17 R391), and the loads that deliver no more to a register that it wrote. -/
structure StrandKept (p q : Strand) : Prop where
  rest : { q with g := p.g, pc := p.pc, st := p.st, word := p.word, latches := p.latches, retired := p.retired,
                  ckpt := p.ckpt, ckptDue := p.ckptDue, firstStore := p.firstStore, heldSince := p.heldSince, board := p.board } = p
  board : ∀ e ∈ q.board, e ∈ p.board
  due : q.ckptDue = false
  ckpt : q.ckpt = if p.ckptDue then p.snapshot else p.ckpt
  first : q.firstStore = if p.ckptDue then none else p.firstStore

/-- Of a strand, everything but its g registers, its PC and state, what every instruction updates, what its open region and its
streams hold, the loads that are to deliver to its registers, and the place of its latest acquire in its program order. -/
def MeKept (p q : Strand) : Prop :=
  { q with g := p.g, pc := p.pc, st := p.st, word := p.word, latches := p.latches, retired := p.retired, ckpt := p.ckpt,
           ckptDue := p.ckptDue, firstStore := p.firstStore, nextSeq := p.nextSeq, region := p.region, sdig := p.sdig,
           mustCommit := p.mustCommit, streams := p.streams, heldSince := p.heldSince, acqSeq := p.acqSeq, board := p.board,
           vboard := p.vboard } = p

/-- The strand is READY at a PC with its instruction retired. -/
structure RetiredAt (p q : Strand) (pc : Word) : Prop where
  pc : q.pc = pc
  ready : q.st = .ready
  count : q.retired = (if p.ckptDue then 0 else p.retired) + 1

/-- The g registers with the destination, if it is one, holding a value. -/
def Strand.Wrote (p q : Strand) (d : Dst) (v : Word) : Prop :=
  ∀ n, n < 16 → q.getG n = match d with
    | .g m => if m.toNat = n then v else p.getG n
    | _ => p.getG n

/-- Some performance counters of a core that counts have advanced, each by its amount; the others have not (19 R436). -/
def Counted (k j : Core) (add : List (Nat × Nat)) : Prop :=
  ∀ n, n < 16 → vget 0 j.perf n =
    vget 0 k.perf n + if k.counting then toWord ((add.filter fun e => e.1 == n).map (·.2)).sum else 0

/-- The region that an instruction commits, as counter 11 counts it (04 R103, 19 R436): one, but none for a wait that executes
again. -/
def State.commits (s : State) : List (Nat × Nat) := if s.me.st = .waiting .retry then [] else [(11, 1)]

/-- An instruction of the strand that executes has written a destination and retired, and nothing else has changed. -/
structure ScalarDone (s t : State) (o : Ops) (d : Dst) (v : Word) : Prop where
  wrote : s.me.Wrote t.me d v
  retired : RetiredAt s.me t.me (s.me.pc + toWord o.len.bytes)
  strand : StrandKept s.me t.me
  only : OnlyStrand s t
  perf : Counted s.myCore t.myCore [(2, 1)]

/-- A precise fault of the strand that executes: FAULTED with its record, in the queue for a holder, its registers and its
PC as they were, and nothing else changed (04 R109, R112). -/
structure Trapped (s t : State) (f : FaultRec) : Prop where
  st : t.me.st = .faulted f
  strand : { t.me with st := s.me.st, word := s.me.word, latches := s.me.latches, ckpt := s.me.ckpt,
                       ckptDue := s.me.ckptDue, retired := s.me.retired, firstStore := s.me.firstStore,
                       mustCommit := s.me.mustCommit, walk := s.me.walk } = s.me
  queue : t.myCore.faultQ = s.myCore.faultQ ++ [s.cur.2]
  rest : { t with cores := s.cores } = s
  bytes : ∀ l, memGet t.mem l = memGet s.mem l
  others : ∀ c, c ≠ s.cur.1 → t.core c = s.core c
  mine : { t.myCore with slots := s.myCore.slots, faultQ := s.myCore.faultQ, perf := s.myCore.perf } = s.myCore
  perf : Counted s.myCore t.myCore s.commits
  slots : ∀ n, n ≠ s.cur.2 → t.strand? s.cur.1 n = s.strand? s.cur.1 n

/-- The record of a precise fault at the instruction that executes. -/
def State.faultHere (s : State) (maj fn : Nat) (o : Ops) (code : Code) (sub : Nat) (addr : Word) : FaultRec where
  code := code
  sub := BitVec.ofNat 8 sub
  deferred := false
  word := { maj := BitVec.ofNat 8 maj, fn := BitVec.ofNat 6 fn, len := lenCode o.len }
  pc := s.me.pc
  addr := addr

/-- The loads in flight after a strand of a core has committed a region: its own keep the bytes of the region that the commit
merges away (04 R102, 15 R350). -/
def State.keptLoads (s : State) (c own : Nat) (region : List BufStore) : List LoadOp :=
  if region = [] then s.loads else s.loads.map fun l => if l.core = c ∧ l.own = own then l.keepOwn region else l

/-- The open region of the strand that executes has been handed to memory (04 R103): its stores are folded into SDIG in
program order, its merged bytes are writes to perform, its loads keep what the merge drops, and the next instruction takes a
checkpoint. Memory itself and all else are as they were, but for the program counter, the state and the holds of the
strand. -/
structure CommitDone (s t : State) : Prop where
  region : t.me.region = []
  sdig : t.me.sdig = foldStores s.me.sdig s.me.region
  due : t.me.ckptDue = true
  writes : ∃ ws, t.writes = s.writes ++ ws ∧
    ws.map (·.cells) = ((mergeRegion s.me.region).map (·.cells)).filter (fun l => !l.isEmpty) ∧
    ∀ w ∈ ws, w.core = s.cur.1 ∧ w.slot = s.cur.2 ∧ w.sid = s.me.sid ∧ w.rel = false ∧ w.locked = false ∧ s.fresh ≤ w.id
  loads : t.loads = s.keptLoads s.cur.1 s.me.own s.me.region
  strand : { t.me with pc := s.me.pc, st := s.me.st, word := s.me.word, latches := s.me.latches, ckpt := s.me.ckpt,
                       ckptDue := s.me.ckptDue, retired := s.me.retired, firstStore := s.me.firstStore,
                       region := s.me.region, sdig := s.me.sdig, mustCommit := s.me.mustCommit,
                       nextSeq := s.me.nextSeq, waitNo := s.me.waitNo, pauseUntil := s.me.pauseUntil,
                       yielding := s.me.yielding, heldSince := s.me.heldSince, acqSeq := s.me.acqSeq } = s.me
  rest : { t with cores := s.cores, writes := s.writes, loads := s.loads, fresh := s.fresh } = s
  bytes : ∀ l, memGet t.mem l = memGet s.mem l
  cores : CoresKept s t

end Machine

end Sys2Proof
end

