-- ==== Sys2Proof/Certificates/Slice0/Obligations.lean ====
section
/-! DEFINITION. The statements, and the rules of the manual that they are made of: what each instruction or event gives, in
the manual's terms. -/

namespace Sys2Proof.Machine

/-! ### Scalar results (05 R119 to R125, R140)

The values that the manual gives, over the integers that operands stand for. -/

/-- Bits of an integer form: 32 with .W, else 64. -/
def formBits (w : Bool) : Nat := if w then 32 else 64

/-- The low bits of an operand as a signed number. -/
def signedVal (w : Bool) (a : Word) : Int := if w then (a.setWidth 32).toInt else a.toInt

/-- The low bits of an operand as an unsigned number. -/
def unsignedVal (w : Bool) (a : Word) : Nat := a.toNat % 2 ^ formBits w

/-- The register content of an exact result: modulo the width, sign-extended from its top bit. -/
def register (w : Bool) (r : Int) : Word := if w then (BitVec.ofInt 32 r).signExtend 64 else BitVec.ofInt 64 r

/-- A 64-bit result with .W taken from its low half. -/
def registerOf (w : Bool) (r : Word) : Word := if w then (r.setWidth 32).signExtend 64 else r

/-- The shift amount: b[5:0], with .W b[4:0]. -/
def shiftBy (w : Bool) (b : Word) : Nat := b.toNat % formBits w

/-- Signed division as 05 R121 writes it out: by zero ONES, MIN by −1 MIN, else truncated. -/
def divRule (w : Bool) (a b : Int) : Int :=
  if b = 0 then -1 else if a = -(2 ^ (formBits w - 1)) ∧ b = -1 then a else a.tdiv b

/-- Signed remainder as 05 R121 writes it out. -/
def remRule (w : Bool) (a b : Int) : Int :=
  if b = 0 then a else if a = -(2 ^ (formBits w - 1)) ∧ b = -1 then 0 else a - a.tdiv b * b

/-- The operands of an integer instruction and the value 05 gives its destination. -/
def integerRule (s : State) : Instr → Option (Ops × Word)
  | .add w o => some (o, register w (signedVal w (s.val o.a) + signedVal w (s.val o.b)))
  | .sub w o => some (o, register w (signedVal w (s.val o.a) - signedVal w (s.val o.b)))
  | .and w o => some (o, registerOf w (s.valZ o.a &&& s.valZ o.b))
  | .or w o => some (o, registerOf w (s.valZ o.a ||| s.valZ o.b))
  | .xor w o => some (o, registerOf w (s.valZ o.a ^^^ s.valZ o.b))
  | .andn w o => some (o, registerOf w (s.valZ o.a &&& ~~~(s.valZ o.b)))
  | .shl w o => some (o, register w (unsignedVal w (s.val o.a) * 2 ^ shiftBy w (s.val o.b)))
  | .shr w o => some (o, register w (unsignedVal w (s.val o.a) / 2 ^ shiftBy w (s.val o.b)))
  | .sar w o => some (o, register w (signedVal w (s.val o.a) / 2 ^ shiftBy w (s.val o.b)))
  | .rol w o =>
    let k := shiftBy w (s.val o.b)
    let a := unsignedVal w (s.val o.a)
    some (o, register w (a * 2 ^ k + a / 2 ^ (formBits w - k)))
  | .min w o => some (o, register w (min (signedVal w (s.val o.a)) (signedVal w (s.val o.b))))
  | .max w o => some (o, register w (max (signedVal w (s.val o.a)) (signedVal w (s.val o.b))))
  | .minu w o => some (o, register w (min (unsignedVal w (s.val o.a)) (unsignedVal w (s.val o.b))))
  | .maxu w o => some (o, register w (max (unsignedVal w (s.val o.a)) (unsignedVal w (s.val o.b))))
  | .mul w o => some (o, register w (signedVal w (s.val o.a) * signedVal w (s.val o.b)))
  | .mulh w o => some (o, register w (signedVal w (s.val o.a) * signedVal w (s.val o.b) / 2 ^ formBits w))
  | .mulhu w o => some (o, register w (unsignedVal w (s.val o.a) * unsignedVal w (s.val o.b) / 2 ^ formBits w))
  | .div w o => some (o, register w (divRule w (signedVal w (s.val o.a)) (signedVal w (s.val o.b))))
  | .divu w o =>
    let b := unsignedVal w (s.val o.b)
    some (o, register w (if b = 0 then -1 else unsignedVal w (s.val o.a) / b))
  | .rem w o => some (o, register w (remRule w (signedVal w (s.val o.a)) (signedVal w (s.val o.b))))
  | .remu w o =>
    let b := unsignedVal w (s.val o.b)
    some (o, register w (if b = 0 then unsignedVal w (s.val o.a) else unsignedVal w (s.val o.a) % b))
  | _ => none

/-- What 05 Table 05.4 says of the destination of a bit instruction, bit by bit or by the number it counts; `d` is the
content of g[D] before. -/
def bitRule (s : State) : Instr → Option (Ops × (Word → Prop))
  | .clz o =>
    let a := s.val o.a
    some (o, fun v => v.toNat ≤ 64 ∧ (∀ i, i < v.toNat → a.getLsbD (63 - i) = false) ∧
      (v.toNat < 64 → a.getLsbD (63 - v.toNat) = true))
  | .ctz o =>
    let a := s.val o.a
    some (o, fun v => v.toNat ≤ 64 ∧ (∀ i, i < v.toNat → a.getLsbD i = false) ∧ (v.toNat < 64 → a.getLsbD v.toNat = true))
  | .popc o => some (o, fun v => v.toNat = ((List.range 64).filter fun i => (s.val o.a).getLsbD i).length)
  | .brev o => some (o, fun v => ∀ i, i < 64 → v.getLsbD i = (s.val o.a).getLsbD (63 - i))
  | .bswap o => some (o, fun v => ∀ i, i < 64 → v.getLsbD i = (s.val o.a).getLsbD (8 * (7 - i / 8) + i % 8))
  | .sext o =>
    let p := (s.val o.b).toNat % 64
    some (o, fun v => ∀ i, i < 64 → v.getLsbD i = (s.val o.a).getLsbD (min i p))
  | .extb o =>
    let p := (s.val o.b).toNat % 64
    let n := if (s.val o.c).toNat % 64 = 0 then 64 else (s.val o.c).toNat % 64
    some (o, fun v => ∀ i, i < 64 → v.getLsbD i = (decide (i < n) && (s.val o.a).getLsbD (p + i)))
  | .insb o =>
    let p := (s.val o.b).toNat % 64
    let n := if (s.val o.c).toNat % 64 = 0 then 64 else (s.val o.c).toNat % 64
    some (o, fun v => ∀ i, i < 64 → v.getLsbD i =
      if p ≤ i ∧ i < p + n then (s.val o.a).getLsbD (i - p) else (s.me.getG o.d.ix).getLsbD i)
  | _ => none

/-- The operands of a compare, select, move, address or time instruction and the value 05 gives its destination. -/
def moveRule (s : State) : Instr → Option (Ops × Word)
  | .cmpEq o => some (o, if s.val o.a = s.val o.b then 1 else 0)
  | .cmpNe o => some (o, if s.val o.a = s.val o.b then 0 else 1)
  | .cmpLt o => some (o, if (s.val o.a).toInt < (s.val o.b).toInt then 1 else 0)
  | .cmpGe o => some (o, if (s.val o.a).toInt < (s.val o.b).toInt then 0 else 1)
  | .cmpLtu o => some (o, if (s.val o.a).toNat < (s.val o.b).toNat then 1 else 0)
  | .cmpGeu o => some (o, if (s.val o.a).toNat < (s.val o.b).toNat then 0 else 1)
  | .sel o => some (o, if s.val o.a = 0 then s.val o.c else s.val o.b)
  | .mov o => some (o, s.val o.a)
  | .movi o => some (o, s.val o.a)
  | .moviH o => some (o, BitVec.ofNat 64 ((s.val o.a).toNat % 2 ^ 32 * 2 ^ 32 + (s.me.getG o.d.ix).toNat % 2 ^ 32))
  | .lea x o => some (o, BitVec.ofInt 64 ((s.val o.a).toInt + (s.val o.c).toInt * 2 ^ x.shift.toNat + x.off.toInt))
  | .addpc o => some (o, s.me.pc + s.val o.a)
  | .rdtime o => some (o, s.spine.time)
  | .rdtimeCc o => some (o, s.myCore.cc)
  | _ => none

/-! ### Transfers of control (05 R126 to R130) -/

/-- What a transfer does: where it goes when taken, whether it is, what it writes to its g destination, whether it is a
return. -/
structure Transfer where
  ops : Ops
  dest : Word
  taken : Bool
  link : Option Word
  ret : Bool

/-- The target of a PC-relative transfer: PC + sx(offset) × 4 (01 R36). -/
def pcRelative (s : State) (off : BitVec 32) : Word := s.me.pc + BitVec.ofInt 64 (off.toInt * 4)

/-- What 05 Table 05.6 says of each transfer. -/
def transferRule (s : State) : Instr → Option Transfer
  | .bccEq off o => some ⟨o, pcRelative s off, decide (s.val o.a = s.val o.b), none, false⟩
  | .bccNe off o => some ⟨o, pcRelative s off, decide (s.val o.a ≠ s.val o.b), none, false⟩
  | .bccLt off o => some ⟨o, pcRelative s off, decide ((s.val o.a).toInt < (s.val o.b).toInt), none, false⟩
  | .bccGe off o => some ⟨o, pcRelative s off, decide ((s.val o.b).toInt ≤ (s.val o.a).toInt), none, false⟩
  | .bccLtu off o => some ⟨o, pcRelative s off, decide ((s.val o.a).toNat < (s.val o.b).toNat), none, false⟩
  | .bccGeu off o => some ⟨o, pcRelative s off, decide ((s.val o.b).toNat ≤ (s.val o.a).toNat), none, false⟩
  | .bccZ off o => some ⟨o, pcRelative s off, decide (s.val o.a = 0), none, false⟩
  | .bccNz off o => some ⟨o, pcRelative s off, decide (s.val o.a ≠ 0), none, false⟩
  | .jmp off o => some ⟨o, pcRelative s off, true, none, false⟩
  | .jmpi o => some ⟨o, s.val o.a, true, none, false⟩
  | .call off o => some ⟨o, pcRelative s off, true, some (s.me.pc + toWord o.len.bytes), false⟩
  | .calli o => some ⟨o, s.val o.a, true, some (s.me.pc + 8), false⟩
  | .ret o => some ⟨o, s.val o.a, true, none, true⟩
  | .loop off o =>
    some ⟨o, pcRelative s off, decide (s.me.getG o.d.ix ≠ 1), some (s.me.getG o.d.ix - 1), false⟩
  | _ => none

/-- Whether a transfer is one that checks its target (05 R127), with its FN. -/
def indirectFn : Instr → Option (Ops × Nat)
  | .jmpi o => some (o, 0x01)
  | .calli o => some (o, 0x03)
  | .ret o => some (o, 0x04)
  | _ => none

/-- A transfer has retired: the link written, the PC at the target or after the instruction, taken transfers and returns
counted and marked (05 R126, R128; 19 Table 19.5), nothing else changed. -/
structure TransferDone (s t : State) (x : Transfer) : Prop where
  wrote : s.me.Wrote t.me (if x.link.isSome then x.ops.d else .none) (x.link.getD 0)
  retired : RetiredAt s.me t.me (if x.taken then x.dest else s.me.pc + toWord x.ops.len.bytes)
  strand : StrandKept s.me { t.me with lastRet := s.me.lastRet }
  mark : t.me.lastRet = if x.taken then x.ret else s.me.lastRet
  only : OnlyStrand s t
  perf : Counted s.myCore t.myCore
    ((2, 1) :: ((if x.taken then [(9, 1)] else []) ++ if x.taken && x.ret then [(10, 1)] else []))

/-! ### SYS operations (05 R131 to R136) -/

/-- The faults that TRAP, BRK and SVC raise (05 Table 05.7): operands, FN, code, SUB, ADDR. -/
def trapRule : Instr → Option (Ops × Nat × Code × Nat × Word)
  | .trap code o => some (o, 0x00, .trap, code.toNat, 0)
  | .brk code o => some (o, 0x01, .brk, code.toNat, 0)
  | .svc n o => some (o, 0x02, .trap, 0, n.setWidth 64)
  | _ => none

/-- What a retiring commit leaves the strand with (05 R131 to R133; 06 R157): its PAUSE and its YIELD, which waits for the
READY strands of the core that no PAUSE, YIELD or place in the same issue group holds. -/
def commitRule (s : State) : Instr → Option (Ops × Option Word × Option YieldHold)
  | .rcommit o => some (o, s.me.pauseUntil, s.me.yielding)
  | .pause o => some (o, some (s.myCore.cc + 32), s.me.yielding)
  | .yield o =>
    let others := (s.myCore.slots.filter fun e => e.1 ≠ s.cur.2 && (e.2.st == .ready || e.2.st == .issuing) &&
      e.2.pauseUntil.isNone && e.2.yielding.isNone && !s.issuing.contains (s.cur.1, e.1)).map (·.1)
    some (o, s.me.pauseUntil, some { others, left := 64 })
  | _ => none

/-- A commit that has retired. -/
structure CommitRetired (s t : State) (o : Ops) (pause : Option Word) (yld : Option YieldHold) : Prop where
  done : CommitDone s t
  pc : t.me.pc = s.me.pc + toWord o.len.bytes
  ready : t.me.st = .ready
  pause : t.me.pauseUntil = pause
  yielding : t.me.yielding = yld
  perf : Counted s.myCore t.myCore ((2, 1) :: s.commits)

/-- Whether the accesses that a fence of an order waits for have been performed (06 R161): the loads of the strand with a
number read; for .rel and .ar its stores too. -/
def strandPerformed (t : State) (order : MemOrder) (own : Nat) : Prop :=
  match order with
  | .rlx => True
  | .acq => ∀ l ∈ t.loads, l.own = own → l.done = true
  | .rel | .ar => (∀ l ∈ t.loads, l.own = own → l.done = true) ∧ ∀ w ∈ t.writes, w.own ≠ own

/-- Whether an order makes a FENCEP wait for reads, and for writes (06 R162). -/
def fenceReads (order : MemOrder) : Prop := order = .acq ∨ order = .ar
/-- The same for writes. -/
def fenceWrites (order : MemOrder) : Prop := order = .rel ∨ order = .ar

/-- A remote write that has been sent: its local reads are performed (23 R462). -/
def SentWrite (e : EngOp) : Prop :=
  e.arrived ≠ none ∧ ∃ a off key qp len sy fe, e.body = .rma .write a off key qp len sy fe

/-- Whether the operations of a class that a strand has issued from a core have been performed, of a remote write only its reads
when the order waits for reads alone; and for an order that waits for writes those to replicated pages too (06 R162; 15 R360). -/
def classPerformed (t : State) (order : MemOrder) (c cls own : Nat) : Prop :=
  ∀ e ∈ t.ops, e.core = c → e.cls = cls → e.own = own →
    (e.st = .ended ∨ (¬ fenceWrites order ∧ SentWrite e)) ∧ (fenceWrites order → ∀ w ∈ t.writes, w.agent ≠ some e.id)

/-- Whether a matrix entry reads memory, or writes it. -/
def MBody.touches (b : MBody) (wr : Bool) : Prop :=
  match b with
  | .load .. | .book .. | .stream .. => wr = false
  | .drain .. => wr = true
  | .clear .. | .swap => False

/-- The same for FENCEP and the paths its mask names (06 R162): the strand's own accesses, copies, matrix entries, base-die
operations and remote operations; .acq waits for reads, .rel for writes, .ar for both. -/
def pathsPerformed (t : State) (order : MemOrder) (paths : BitVec 6) (c own : Nat) : Prop :=
  (paths.getLsbD 0 = true →
    (fenceReads order → ∀ l ∈ t.loads, l.own = own → l.done = true) ∧
    (fenceWrites order → ∀ w ∈ t.writes, w.own ≠ own)) ∧
  (paths.getLsbD 1 = true → classPerformed t order c 0 own) ∧
  (paths.getLsbD 2 = true → ∀ e ∈ (t.core c).mtx.queue, e.own = own →
    (fenceReads order ∧ e.body.touches false) ∨ (fenceWrites order ∧ e.body.touches true) →
    e.st ≠ .queued ∧ e.st ≠ .running) ∧
  (paths.getLsbD 3 = true → classPerformed t order c 1 own) ∧
  (paths.getLsbD 5 = true → classPerformed t order c 3 own)

/-- What a fence waits for. -/
def fenceRule (s t : State) : Instr → Option (Ops × Prop)
  | .fence _ order o => some (o, strandPerformed t order s.me.own)
  | .fencep _ order paths o => some (o, pathsPerformed t order paths s.cur.1 s.me.own)
  | _ => none

/-- A system register of the strand (02 Table 02.3). -/
def strandRegRule (s : State) : Nat → Option Word
  | 0x000 => some s.me.sid
  | 0x001 => some s.me.lidx
  | 0x002 => some (s.myCore.lcore.setWidth 64)
  | 0x003 => some ((s.site (coreSite s.cur.1)).lchip.setWidth 64)
  | 0x004 =>
    let x := s.site (coreSite s.cur.1)
    some (toWord (x.lchip.toNat * 2 ^ 48 + s.myCore.lcore.toNat * 2 ^ 32 + s.spine.modNum.toNat * 2 ^ 24 +
      classCode x.kind * 2 ^ 20 + coreCLU s.cur.1 * 2 ^ 18 + coreCIX s.cur.1 * 2 ^ 16 +
      s.liveMask (coreClu s.cur.1) * 2 ^ 12 + s.cur.2 % 64))
  | 0x005 => some (s.launch s.me.asid.toNat s.me.lh.toNat).seed
  | 0x006 => some s.me.draw
  | 0x007 => some (s.me.flags.setWidth 64)
  | 0x008 => some (s.me.rmode.setWidth 64)
  | 0x009 => some (s.me.amax.setWidth 64)
  | 0x00A =>
    let kind := match s.me.kind with | .launched => 0 | .spawned => 1 | .message => 2 | .handler => 3
    let region := if s.me.region = [] then 0 else 1
    some (toWord (s.me.asid.toNat * 2 ^ 52 + s.me.fcnt.toNat * 2 ^ 32 + s.cur.2 % 64 * 2 ^ 24 + region * 2 ^ 7 +
      kind * 2 ^ 5 + s.me.sec.toNat * 2 ^ 4 + s.me.pager.toNat * 2 + s.me.sup.toNat))
  | 0x00B => some (toWord (6 * s.me.rows.length * 2 ^ 8 + s.me.rows.length))
  | 0x00C => some (s.me.sord.setWidth 64)
  | 0x00D => some s.me.sdig
  | 0x00E => some s.spine.time
  | _ => none

/-- A word of a circular-buffer descriptor (07 Table 07.6). -/
def descriptorWord (d : CbDesc) (w : Nat) : Word :=
  match w with
  | 0 =>
    toWord (d.valid.toNat * 2 ^ 63 + d.level.toNat * 2 ^ 61 + d.base.toNat * 2 ^ 32 + d.slotb.toNat * 2 ^ 16 + d.nslot.toNat)
  | 1 => toWord (d.fills.toNat * 2 ^ 32 + d.pops.toNat)
  | 2 => toWord (d.claims.toNat * 2 ^ 32)
  | _ => toWord (d.waiters.toNat * 2 ^ 48 + d.prod.toNat * 2 ^ 40 + d.cons.toNat * 2 ^ 32 + d.err.toNat)

/-- Code of a phase of a core (07 Table 07.8). -/
def phaseCode : Phase → Nat
  | .run => 0
  | .quiesce => 1
  | .saving => 2
  | .saved => 3
  | .restoring => 4

/-- What supervisor registers read as at an index (07 Tables 07.6 and 07.7; 10 Table 10.6; 11 Table 11.8; 14 Table 14.7; 17 Table
17.12; 18 Table 18.6; 19 Table 19.6; 23 Table 23.8). -/
def supervisorRule (s : State) (i : Nat) : Nat → Option Word
  | 0x100 => some (descriptorWord (s.myCore.cb (i / 4)) (i % 4))
  | 0x101 => some (tget 0xC000000000000000 (s.chip (coreSite s.cur.1)).route i)
  | 0x102 => some s.myCore.cfg
  | 0x103 => some s.myCore.savea
  | 0x104 => some (toWord (s.myCore.saves.toNat * 2 ^ 32 + s.myCore.spillQ.length * 2 ^ 16 + phaseCode s.myCore.phase))
  | 0x109 => some (if s.myCore.fdis then 1 else 0)
  | 0x201 => some (vget 0 (s.clu (coreClu s.cur.1)).tree i)
  | 0x303 => some (toWord (s.chip (coreSite s.cur.1)).children.length)
  | 0x304 => some (toWord (s.chip (coreSite s.cur.1)).pagerQ.length)
  | 0x305 => some ((s.chip (coreSite s.cur.1)).stale.setWidth 64)
  | 0x404 => some (tget 0 s.spine.asidRoot i)
  | 0x405 => some ((s.partOf (coreSite s.cur.1)).repset.setWidth 64)
  | 0x406 => some (toWord (s.spine.modules * 2 ^ 8 + s.spine.modNum.toNat))
  | 0x413 => some (s.spine.colTmo.setWidth 64)
  | 0x422 => some (toWord (s.spine.tokens * 2 ^ 32 + s.spine.wakeQ.length))
  | 0x423 => some (tget 0 s.spine.worlds i)
  | 0x438 => some (s.ctx i).trcCfg
  | 0x439 => some ((s.ctx i).trcWritten ++ (s.ctx i).trcLost)
  | 0x441 => some (tget 0 s.spine.froute i)
  | 0x443 => some ((s.link i).rstale.setWidth 64)
  | _ => none

/-- An index that a register accepts, and its value (02 R47): in the range of its formula, and of a unit of the strand's partition. -/
def IndexOf (s : State) (num : BitVec 12) (o : Ops) (i : Nat) : Prop :=
  ∃ r, sysReg num = some r ∧
    ((r.index = none ∧ i = 0) ∨
      (r.index ≠ none ∧ i = (s.val o.a).toNat ∧ r.inRange num i = true ∧ s.sysNamed num i = true))

/-- `t` with what WRSYS may write of the executing core and its cluster as it was in `s`. -/
def State.withSupervisor (t s : State) : State :=
  { t.modMyCore fun x => { x with cbd := s.myCore.cbd, savea := s.myCore.savea, fdis := s.myCore.fdis } with
    clusters := s.clusters }

/-! ### Loads and stores (06 R151, R152; 08 R226 to R228) -/

/-- The effective address of 01 R33: g[A] + index × 2^SHIFT + offset, modulo 2^64. -/
def effective (s : State) (x : MemX) (o : Ops) : Word :=
  BitVec.ofInt 64 ((s.val o.a).toInt + (s.val o.c).toInt * 2 ^ x.shift.toNat + x.off.toInt)

/-- A scalar access: what it needs, its address and size in bytes. -/
structure Touch where
  ops : Ops
  need : Need
  ea : Word
  size : Nat

/-- The bytes of the access width. -/
def widthOf : MemW → Nat
  | .b => 1
  | .h => 2
  | .w => 4
  | .d => 8

/-- The scalar loads, with whether they acquire and where the value goes. LD.acq is naturally aligned (06 R152). -/
def loadRule (s : State) : Instr → Option (Touch × Bool × LoadDest)
  | .ld w sgn x o => some (⟨o, Need.load, effective s x o, widthOf w⟩, false, .g o.d.ix (widthOf w) sgn)
  | .ldAcq w sgn x o =>
    some (⟨o, { Need.load with align := widthOf w }, effective s x o, widthOf w⟩, true, .g o.d.ix (widthOf w) sgn)
  | .ldq x o => some (⟨o, Need.load, effective s x o, 16⟩, false, .pair o.d.ix)
  | _ => none

/-- The scalar stores, with the value and whether they release. -/
def storeRule (s : State) : Instr → Option (Touch × Nat × Bool)
  | .st w x o =>
    some (⟨o, Need.store, effective s x o, widthOf w⟩, (s.val o.b).toNat % 2 ^ (8 * widthOf w), false)
  | .stRel w x o =>
    some (⟨o, { Need.store with align := widthOf w }, effective s x o, widthOf w⟩,
      (s.val o.b).toNat % 2 ^ (8 * widthOf w), true)
  | .stq x o =>
    some (⟨o, Need.store, effective s x o, 16⟩,
      (s.me.getG o.b.gNum).toNat + 2 ^ 64 * (s.me.getG (o.b.gNum + 1)).toNat, false)
  | _ => none

/-- The verdict of the checks of 06 Table 06.5 on an access of the strand that executes. -/
def State.checks (s : State) (nd : Need) (ea : Word) (n : Nat) : Acc :=
  s.access s.cur.1 s.me.asid s.me.lh.toNat s.me.sec nd ea n

/-- Every byte that an access reaches, in the order of its addresses. -/
def reached (ps : List Piece) : List Nat := ps.flatMap (·.locs)

/-- The bytes of a part of a load as it leaves: those of the strand's own stores when they give every one of its bytes (04
R102), else none, all to be taken at one later instant (15 R344). The strand's stores are held under the bytes that the page
maps to, whichever replica the part reads. -/
def taken (s : State) (mapped : List Nat) : List (Option Byte) :=
  if ∀ l ∈ mapped, (s.ownByte s.me s.me.nextSeq l).isSome = true then mapped.map (s.ownByte s.me s.me.nextSeq)
  else mapped.map fun _ => none

/-- The parts of a load as it leaves: together the bytes that its access reaches, each part as `taken` says. -/
structure PartsOf (s : State) (parts : List RUnit) (ps : List Piece) : Prop where
  locs : (parts.flatMap fun u => u.cells.map (·.1)) = reached ps
  mapped : (parts.flatMap fun u => u.mapped) = ps.flatMap (·.mapped)
  bytes : ∀ u ∈ parts, u.cells.map (·.2) = taken s u.mapped

/-- What issuing an access leaves of the clusters: everything but which TLB entries were used last. -/
def CluKept (s t : State) : Prop := ∀ k, { t.clu k with plru := (s.clu k).plru } = s.clu k

/-- A load is on its way: its bytes by location, those that the strand's own stores give already taken (04 R102), and
nothing written, neither a register nor memory. -/
structure LoadIssued (s t : State) (o : Ops) (acq : Bool) (dest : LoadDest) (ps : List Piece) : Prop where
  load : ∃ l, t.loads = s.loads ++ [l] ∧ l.id = s.fresh ∧ l.core = s.cur.1 ∧ l.slot = s.cur.2 ∧ l.own = s.me.own ∧
    l.sid = s.me.sid ∧ l.seq = s.me.nextSeq ∧ l.acq = acq ∧ l.dest = dest ∧ l.pc = s.me.pc ∧ PartsOf s l.parts ps
  next : t.me.nextSeq = s.me.nextSeq + 1
  acq : t.me.acqSeq = if acq then s.me.nextSeq + 1 else s.me.acqSeq
  regs : s.me.Wrote t.me .none 0
  strand : MeKept s.me t.me
  board : t.me.board = (s.me.expect dest s.fresh).board ∧ t.me.vboard = (s.me.expect dest s.fresh).vboard
  open_ : t.me.region = s.me.region ∧ t.me.sdig = s.me.sdig
  rest : { t with cores := s.cores, clusters := s.clusters, loads := s.loads, fresh := s.fresh } = s
  bytes : ∀ l, memGet t.mem l = memGet s.mem l
  clusters : CluKept s t
  cores : CoresKept s t

/-- A store has entered the open region (04 R102): its bytes by location, and nothing written to memory. -/
structure StoreBuffered (s t : State) (cells : List Host.Cell) : Prop where
  region : ∃ bs, t.me.region = s.me.region ++ bs ∧ (bs.flatMap fun b => b.cells) = cells
  first : t.me.firstStore = some ((if s.me.ckptDue then none else s.me.firstStore).getD s.myCore.cc)
  regs : s.me.Wrote t.me .none 0
  strand : MeKept s.me t.me
  sdig : t.me.sdig = s.me.sdig
  rest : { t with cores := s.cores, clusters := s.clusters } = s
  bytes : ∀ l, memGet t.mem l = memGet s.mem l
  clusters : CluKept s t
  cores : CoresKept s t

/-- A store has been handed to memory at issue: its writes, to be performed, folded into SDIG (06 R152, R156). -/
structure StoreHanded (s t : State) (ea : Word) (size v : Nat) (rel : Bool) (cells : List Host.Cell) : Prop where
  writes : ∃ ws, t.writes = s.writes ++ ws ∧ (ws.flatMap fun w => w.cells) = cells ∧
    ∀ w ∈ ws, w.core = s.cur.1 ∧ w.slot = s.cur.2 ∧ w.sid = s.me.sid ∧ w.rel = rel ∧ w.locked = false
  region : t.me.region = []
  sdig : t.me.sdig = foldStore s.me.sdig ea size (BitVec.ofNat 128 v)
  regs : s.me.Wrote t.me .none 0
  strand : MeKept s.me t.me
  rest : { t with cores := s.cores, clusters := s.clusters, writes := s.writes, fresh := s.fresh } = s
  bytes : ∀ l, memGet t.mem l = memGet s.mem l
  clusters : CluKept s t
  cores : CoresKept s t

/-- The lane-wise accesses (08 R226 to R228): the address of each lane. -/
def laneAddress (s : State) : Instr → Option (Ops × (Nat → Word))
  | .vld x o | .vst x o => some (o, fun i => effective s x o + toWord (4 * i))
  | .vgath x o | .vscat x o =>
    some (o, fun i => BitVec.ofInt 64 ((s.val o.a).toInt + (lane (s.vec o.c) i).toInt * 2 ^ x.shift.toNat + x.off.toInt))
  | _ => none

/-- Whether a lane-wise access loads. -/
def laneLoads : Instr → Bool
  | .vld _ _ | .vgath _ _ => true
  | _ => false

/-- The stream operands of an instruction are ready, and its destination is bound to none (08 R230, R232). -/
structure StreamsReady (s : State) (o : Ops) : Prop where
  use : s.streamUse s.cur.1 s.me o.vsrcs = .ready
  bound : ∀ n, o.d = .v n → s.me.stream? n.toNat = none

/-- The region has room for the undo copy of one more register (04 R103). -/
def UndoRoom (s : State) : Prop := s.me.ckptDue = true ∨ s.me.ckpt.vregs.length + s.me.ckpt.masks.length < 16

/-! ### Vector instructions (08 R210 to R225) -/

/-- FP32 bits as a key that orders every value but NaN, −0 below +0. -/
def floatKey (x : BitVec 32) : Int :=
  if x.getLsbD 31 then -(x.toNat % 2 ^ 31 : Nat) - 1 else (x.toNat % 2 ^ 31 : Nat)

/-- Whether FP32 bits are a NaN. -/
def floatNan (x : BitVec 32) : Bool := decide (0x7F800000 < x.toNat % 2 ^ 31)

/-- FMIN and FMAX (08 R218): a canonical NaN when either is one, else the operand whose key is least or greatest. -/
def floatPick (max : Bool) (a b : BitVec 32) : BitVec 32 :=
  if floatNan a || floatNan b then 0x7FC00000
  else if max then (if floatKey a ≤ floatKey b then b else a) else (if floatKey a ≤ floatKey b then a else b)

/-- The operands of an instruction that gives each enabled lane a value, and that value by lane. -/
def laneRule (s : State) : Instr → Option (Ops × (Nat → BitVec 32))
  | .vmov o => some (o, lane (s.vec o.a))
  | .vbcast o => some (o, fun _ => lane (s.vec o.a) ((s.val o.b).toNat % 16))
  | .vins o =>
    some (o, fun i => if i = (s.val o.b).toNat % 16 then (s.val o.a).setWidth 32
      else lane (s.myCore.vreg (s.me.phys o.d.ix)) i)
  | .viota o => some (o, fun i => BitVec.ofNat 32 ((s.val o.a).toNat + i * (s.val o.b).toNat))
  | .vperm o => some (o, fun i => lane (s.vec o.a) ((lane (s.vec o.b) i).toNat % 16))
  | .vslide up o =>
    let n := (s.val o.b).toNat % 32
    some (o, fun i =>
      if up then (if n ≤ i then lane (s.vec o.a) (i - n) else lane (s.vec o.c) i)
      else if i + n < 16 then lane (s.vec o.a) (i + n) else lane (s.vec o.c) i)
  | .vadd o => some (o, fun i => BitVec.ofNat 32 ((lane (s.vec o.a) i).toNat + (lane (s.vec o.b) i).toNat))
  | .vsub o => some (o, fun i => BitVec.ofInt 32 ((lane (s.vec o.a) i).toInt - (lane (s.vec o.b) i).toInt))
  | .vmul o => some (o, fun i => BitVec.ofNat 32 ((lane (s.vec o.a) i).toNat * (lane (s.vec o.b) i).toNat))
  | .vmad o =>
    some (o, fun i => BitVec.ofNat 32
      ((lane (s.vec o.a) i).toNat * (lane (s.vec o.b) i).toNat + (lane (s.vec o.c) i).toNat))
  | .vand o => some (o, fun i => lane (s.vec o.a) i &&& lane (s.vec o.b) i)
  | .vor o => some (o, fun i => lane (s.vec o.a) i ||| lane (s.vec o.b) i)
  | .vxor o => some (o, fun i => lane (s.vec o.a) i ^^^ lane (s.vec o.b) i)
  | .vshl o =>
    some (o, fun i => BitVec.ofNat 32 ((lane (s.vec o.a) i).toNat * 2 ^ ((lane (s.vec o.b) i).toNat % 32)))
  | .vshr o =>
    some (o, fun i => BitVec.ofNat 32 ((lane (s.vec o.a) i).toNat / 2 ^ ((lane (s.vec o.b) i).toNat % 32)))
  | .vsar o =>
    some (o, fun i => BitVec.ofInt 32 ((lane (s.vec o.a) i).toInt / 2 ^ ((lane (s.vec o.b) i).toNat % 32)))
  | .vmin u o =>
    some (o, fun i =>
      let a := lane (s.vec o.a) i
      let b := lane (s.vec o.b) i
      if u then BitVec.ofNat 32 (min a.toNat b.toNat) else BitVec.ofInt 32 (min a.toInt b.toInt))
  | .vmax u o =>
    some (o, fun i =>
      let a := lane (s.vec o.a) i
      let b := lane (s.vec o.b) i
      if u then BitVec.ofNat 32 (max a.toNat b.toNat) else BitVec.ofInt 32 (max a.toInt b.toInt))
  | .fmin md o =>
    some (o, fun i => floatPick false (modify md.negA md.absA (lane (s.vecF o.a) i))
      (modify md.negB md.absB (lane (s.vecF o.b) i)))
  | .fmax md o =>
    some (o, fun i => floatPick true (modify md.negA md.absA (lane (s.vecF o.a) i))
      (modify md.negB md.absB (lane (s.vecF o.b) i)))
  | .bscaleDerive tf o => some (o, fun i => scaleCode tf (lane (s.vec o.a) i))
  | _ => none

/-- The operands of an instruction that rounds each enabled lane, with the lane's result and the new FLAGS, AMAX and DRAW
from those that the lanes before it left (03 R70 to R84; 08 R217 to R223). -/
def roundRule (s : State) : Instr → Option (Ops × (Nat → FpAcc → BitVec 32 × FpAcc))
  | .fadd md r o =>
    let e := s.fpEnv (roundMode r s.me.rmode)
    some (o, fun i => e.result ((fv32 (modify md.negA md.absA (lane (s.vecF o.a) i))).add (e.mode == .rdn)
      (fv32 (modify md.negB md.absB (lane (s.vecF o.b) i)))))
  | .fsub md r o =>
    let e := s.fpEnv (roundMode r s.me.rmode)
    some (o, fun i => e.result ((fv32 (modify md.negA md.absA (lane (s.vecF o.a) i))).add (e.mode == .rdn)
      (fv32 (modify md.negB md.absB (lane (s.vecF o.b) i))).negate))
  | .fmul md r o =>
    let e := s.fpEnv (roundMode r s.me.rmode)
    some (o, fun i => e.result ((fv32 (modify md.negA md.absA (lane (s.vecF o.a) i))).mul
      (fv32 (modify md.negB md.absB (lane (s.vecF o.b) i)))))
  | .ffma md r o =>
    let e := s.fpEnv (roundMode r s.me.rmode)
    some (o, fun i => e.result (fmaV (e.mode == .rdn) (fv32 (modify md.negA md.absA (lane (s.vecF o.a) i)))
      (fv32 (modify md.negB md.absB (lane (s.vecF o.b) i))) (fv32 (modify md.negC md.absC (lane (s.vecF o.c) i)))))
  | .frcp o => some (o, fun i a => ((frcp (lane (s.vecF o.a) i)).1, a.raise (frcp (lane (s.vecF o.a) i)).2))
  | .frsq o => some (o, fun i a => ((frsq (lane (s.vecF o.a) i)).1, a.raise (frsq (lane (s.vecF o.a) i)).2))
  | .frcpn o =>
    some (o, fun i a => ((frcpn (lane (s.vecF o.a) i) (lane (s.vecF o.b) i)).1,
      a.raise (frcpn (lane (s.vecF o.a) i) (lane (s.vecF o.b) i)).2))
  | .frsqn o =>
    some (o, fun i a => ((frsqn (lane (s.vecF o.a) i) (lane (s.vecF o.b) i)).1,
      a.raise (frsqn (lane (s.vecF o.a) i) (lane (s.vecF o.b) i)).2))
  | .fexp2 r o =>
    some (o, fun i a => (s.fpEnv (roundMode r s.me.rmode)).result ((exp2V (fv32 (lane (s.vecF o.a) i))).1, false)
      (a.raise (exp2V (fv32 (lane (s.vecF o.a) i))).2))
  | .flog2 r o =>
    some (o, fun i a => (s.fpEnv (roundMode r s.me.rmode)).result ((log2V (fv32 (lane (s.vecF o.a) i))).1, false)
      (a.raise (log2V (fv32 (lane (s.vecF o.a) i))).2))
  | .ftanh r o =>
    some (o, fun i a => (s.fpEnv (roundMode r s.me.rmode)).result ((tanhV (fv32 (lane (s.vecF o.a) i))).1, false)
      (a.raise (tanhV (fv32 (lane (s.vecF o.a) i))).2))
  | .bscaleApply r o =>
    some (o, fun i =>
      (s.fpEnv (roundMode r s.me.rmode)).result
        (if (lane (s.vec o.b) i).toNat % 256 = 0xFF then (.nan, true)
         else ((fv32 (lane (s.vec o.a) i)).scale (127 - ((lane (s.vec o.b) i).toNat % 256 : Nat)), false)))
  | _ => none

/-- The conversions (08 R222, R224): the element width of the destination, the first element of the part, and for each
enabled lane the element and the rounding state. -/
def elementRule (s : State) : Instr → Option (Ops × Nat × Nat × (Nat → FpAcc → Nat × FpAcc))
  | .fcvt sf df r part sat amx o =>
    some (o, df.width, if df.width < 32 then 16 * part.toNat else 0, fun i a =>
      let v := elemValue sf (elem sf.width (s.vec o.a) (if sf.width < 32 then 16 * part.toNat + i else i))
      (s.fpEnv (roundMode r s.me.rmode)).convert df sat v (if amx then a.amaxOf v else a))
  | .icvt sf df r part o =>
    some (o, df.width, if df.width < 32 then 16 * part.toNat else 0, fun i =>
      (s.fpEnv (roundMode r s.me.rmode)).convert df false
        (elemValue sf (elem sf.width (s.vec o.a) (if sf.width < 32 then 16 * part.toNat + i else i))))
  | .c4enc pos o =>
    some (o, 4, 16 * pos.toNat, fun i a =>
      let x := c4code ((List.range 16).map (elem 16 (s.vec o.b))) (lane (s.vec o.a) i)
      (x.1, a.raise x.2))
  | _ => none

/-- The rounding state after the lanes below `i`, lane 0 first (03 R78). -/
def lanesBefore {α : Type} (mk : BitVec 16) (f : Nat → FpAcc → α × FpAcc) (a : FpAcc) : Nat → FpAcc
  | 0 => a
  | i + 1 => if mk.getLsbD i then (f i (lanesBefore mk f a i)).2 else lanesBefore mk f a i

/-- What an instruction leaves of its core: its slots but for the hold latches of other strands, everything but counters and
the file of vector registers or the masks. -/
structure VectorCores (s t : State) : Prop where
  others : ∀ c, c ≠ s.cur.1 → t.core c = s.core c
  mine : { t.myCore with slots := s.myCore.slots, perf := s.myCore.perf, vrf := s.myCore.vrf, masks := s.myCore.masks } =
    s.myCore
  slots : ∀ n, n ≠ s.cur.2 → (t.strand? s.cur.1 n).map (fun p => { p with latches := [] }) =
    (s.strand? s.cur.1 n).map fun p => { p with latches := [] }

/-- The checkpoint as the instruction found it, or took it when it was due. -/
def Strand.openCkpt (p : Strand) : Checkpoint := if p.ckptDue then p.snapshot else p.ckpt

/-- What every vector instruction leaves: memory, the rest of the machine, and of the strand its scalar registers but the
destination, its region, and its bindings with the elements that it consumed (08 R230). -/
structure VectorKept (s t : State) (o : Ops) (d : Dst) (v : Word) (fp : FpAcc) : Prop where
  g : s.me.Wrote t.me d v
  fp : t.fpAcc = fp
  strand : MeKept s.me { t.me with flags := s.me.flags, amax := s.me.amax, draw := s.me.draw }
  open_ : t.me.region = s.me.region ∧ t.me.sdig = s.me.sdig ∧ t.me.nextSeq = s.me.nextSeq
  streams : t.me.streams = s.me.streams.map fun b => if o.vsrcs.contains b.reg then { b with pos := b.pos + 1, ahead := b.ahead.drop 1 } else b
  ckpt : { t.me.ckpt with vregs := s.me.openCkpt.vregs, masks := s.me.openCkpt.masks } = s.me.openCkpt
  retired : RetiredAt s.me t.me (s.me.pc + toWord o.len.bytes)
  rest : { t with cores := s.cores } = s
  bytes : ∀ l, memGet t.mem l = memGet s.mem l
  cores : VectorCores s t
  perf : Counted s.myCore t.myCore [(2, 1), (15, (o.vsrcs.filter fun i => (s.me.stream? i).isSome).length)]

/-- The content that an abort of the region restores (04 R103): that at the first write since the checkpoint. -/
structure VectorUndo (s t : State) (n : Nat) : Prop where
  kept : tfind t.me.ckpt.vregs n = some ((tfind s.me.openCkpt.vregs n).getD (s.myCore.vreg n))
  masks : t.me.ckpt.masks = s.me.openCkpt.masks

/-- A vector instruction has given each enabled lane of its destination a value; other lanes and registers are as they were
(08 R206). -/
structure LanesDone (s t : State) (o : Ops) (f : Nat → BitVec 32) (fp : FpAcc) : Prop where
  lanes : ∀ i, i < 16 → lane (t.myCore.vreg (s.me.phys o.d.ix)) i =
    if (s.maskOf o).getLsbD i then f i else lane (s.myCore.vreg (s.me.phys o.d.ix)) i
  others : ∀ n, n ≠ s.me.phys o.d.ix → t.myCore.vreg n = s.myCore.vreg n
  masks : t.myCore.masks = s.myCore.masks
  undo : VectorUndo s t (s.me.phys o.d.ix)
  kept : VectorKept s t o .none 0 fp

/-- The same for elements of `w` bits from element `off`. -/
structure ElementsDone (s t : State) (o : Ops) (w off : Nat) (f : Nat → Nat) (fp : FpAcc) : Prop where
  elems : ∀ e, w * e + w ≤ 512 → elem w (t.myCore.vreg (s.me.phys o.d.ix)) e =
    if off ≤ e ∧ e < off + 16 ∧ (s.maskOf o).getLsbD (e - off) then f (e - off) % 2 ^ w
    else elem w (s.myCore.vreg (s.me.phys o.d.ix)) e
  others : ∀ n, n ≠ s.me.phys o.d.ix → t.myCore.vreg n = s.myCore.vreg n
  masks : t.myCore.masks = s.myCore.masks
  undo : VectorUndo s t (s.me.phys o.d.ix)
  kept : VectorKept s t o .none 0 fp

/-- The value of a reduction of 16 lanes: for the integer operations their combination in any order, for the floating-point
ones the tree of 03 R87. -/
def reduceRule (op : RedOp) (l : List (BitVec 32)) : BitVec 32 :=
  match op with
  | .add => BitVec.ofNat 32 (l.map fun x => x.toNat).sum
  | .and => l.foldl (· &&& ·) 0xFFFFFFFF
  | .or => l.foldl (· ||| ·) 0
  | .xor => l.foldl (· ^^^ ·) 0
  | .min => BitVec.ofInt 32 (l.foldl (fun m x => min m x.toInt) (2 ^ 31 - 1))
  | .max => BitVec.ofInt 32 (l.foldl (fun m x => max m x.toInt) (-(2 ^ 31)))
  | .minu => BitVec.ofNat 32 (l.foldl (fun m x => min m x.toNat) (2 ^ 32 - 1))
  | .maxu => BitVec.ofNat 32 (l.foldl (fun m x => max m x.toNat) 0)
  | .fadd | .fmin | .fmax => (redTree op 4 l).1

/-- The lanes that enter a reduction: a disabled lane is the identity of 08 Table 08.5a. -/
def reduceLanes (s : State) (op : RedOp) (o : Ops) : List (BitVec 32) :=
  (List.range 16).map fun i => if (s.maskOf o).getLsbD i then lane (s.vec o.a) i else redIdentity op

/-- Reductions and scans: the value of each lane, and the FLAGS of their nodes. -/
def treeRule (s : State) : Instr → Option (Ops × (Nat → BitVec 32) × BitVec 16)
  | .vred op o => some (o, fun _ => reduceRule op (reduceLanes s op o), (redTree op 4 (reduceLanes s op o)).2)
  | .vscan op o =>
    some (o, fun i =>
      match op with
      | .fadd | .fmin | .fmax => (nth (0, 0) (redScan op (reduceLanes s op o)) i).1
      | _ => reduceRule op ((reduceLanes s op o).take (i + 1)),
      redFlags (s.maskOf o) (redScan op (reduceLanes s op o)))
  | _ => none

/-- Whether an integer condition or a floating-point one holds of two lanes (02 Table 02.2, 08 Table 08.4). -/
def compareRule (c : VCond) (a b : BitVec 32) : Bool :=
  match c with
  | .eq => decide (a = b)
  | .ne => decide (a ≠ b)
  | .lt => decide (a.toInt < b.toInt)
  | .ge => decide (b.toInt ≤ a.toInt)
  | .ltu => decide (a.toNat < b.toNat)
  | .geu => decide (b.toNat ≤ a.toNat)
  | .feq => feq a b
  | .fne => !feq a b
  | .flt => flt a b
  | .fge => !(floatNan a || floatNan b) && !flt a b
  | .fun => floatNan a || floatNan b

/-- Instructions that write a mask register, bit by bit (08 R211, R212). -/
def maskRule (s : State) : Instr → Option (Ops × (Nat → Bool))
  | .vcmp c o =>
    let a := if condFloat c then s.vecF o.a else s.vec o.a
    let b := if condFloat c then s.vecF o.b else s.vec o.b
    some (o, fun i => if (s.maskOf o).getLsbD i then compareRule c (lane a i) (lane b i)
      else (s.myCore.mask o.d.ix).getLsbD i)
  | .mlog op ma mb o =>
    let a := s.myCore.mask ma.toNat
    let b := s.myCore.mask mb.toNat
    some (o, fun i =>
      match op with
      | .and => a.getLsbD i && b.getLsbD i
      | .or => a.getLsbD i || b.getLsbD i
      | .xor => a.getLsbD i != b.getLsbD i
      | .andn => a.getLsbD i && !b.getLsbD i
      | .not => !a.getLsbD i
      | .mov => a.getLsbD i
      | .fromg => (s.val o.a).getLsbD i)
  | _ => none

/-- A mask register has been written, but m0, which discards the write and reads 0xFFFF (01 R27). -/
structure MaskDone (s t : State) (o : Ops) (f : Nat → Bool) : Prop where
  bits : o.d.ix ≠ 0 → ∀ i, i < 16 → (t.myCore.mask o.d.ix).getLsbD i = f i
  others : ∀ n, n < 8 → n ≠ o.d.ix ∨ o.d.ix = 0 → t.myCore.mask n = s.myCore.mask n
  vregs : t.myCore.vrf = s.myCore.vrf
  undo : o.d.ix ≠ 0 →
    tfind t.me.ckpt.masks o.d.ix = some ((tfind s.me.openCkpt.masks o.d.ix).getD (s.myCore.mask o.d.ix))
  kept : VectorKept s t o .none 0 s.fpAcc

/-- Instructions that write a g register with something of a vector register, a mask or AMAX, with the FLAGS they set. -/
def extractRule (s : State) : Instr → Option (Ops × Word × BitVec 16)
  | .vext o => some (o, (lane (s.vec o.a) ((s.val o.b).toNat % 16)).setWidth 64, 0)
  | .vred op o =>
    some (o, (reduceRule op (reduceLanes s op o)).setWidth 64, (redTree op 4 (reduceLanes s op o)).2)
  | .mpop mode ma o =>
    let set := (List.range 16).filter fun i => (s.myCore.mask ma.toNat).getLsbD i
    some (o, match mode with
      | .cnt => toWord set.length
      | .first => toWord (set.headD 16)
      | .raw => (s.myCore.mask ma.toNat).setWidth 64, 0)
  | .amaxrd o => some (o, s.me.amax.setWidth 64, 0)
  | _ => none

/-! ### Allotment, streams, circular buffers (08 R209, R229, R233 to R236) -/

/-- The strand has no buffered store, no store of its own left to perform and no load left to read. -/
structure State.Settled (s : State) : Prop where
  region : s.me.region = []
  loads : ∀ l ∈ s.loads, l.own = s.me.own → l.done = true
  writes : ∀ w ∈ s.writes, w.own ≠ s.me.own

/-- No strand of the executing core waits. -/
structure State.NoWaits (s : State) : Prop where
  slots : ∀ e ∈ s.myCore.slots, e.2.wait? = none
  park : ∀ e ∈ s.myCore.park, e.2.strand.wait? = none

/-- Retired after a commit, with only what the instruction itself changes put back in `t` before the comparison. -/
structure CommittedAnd (s t : State) (o : Ops) : Prop where
  done : CommitDone s t
  g : s.me.Wrote t.me .none 0
  pc : t.me.pc = s.me.pc + toWord o.len.bytes
  ready : t.me.st = .ready

/-- A core without the strand of a slot. -/
def Core.without (k : Core) (sl : Nat) : Core := { k with slots := tdel k.slots sl }

/-- The strand in a slot is the candidate for parking whose age is greatest, alone at it; the park table and the free places have
room for it (07 R190, R191). Slots are listed by rising number, as every operation leaves them. -/
structure OldestCandidate (s : State) (sl : Nat) (q : Strand) : Prop where
  found : s.strand? s.cur.1 sl = some q
  parks : s.parkable q = true
  sorted : s.myCore.slots.Pairwise fun a b => a.1 < b.1
  oldest : ∀ e ∈ s.myCore.slots, s.parkable e.2 = true → e.1 = sl ∨ e.2.age < q.age
  room : s.myCore.park.length < 64 ∧ q.rows.length ≤ (s.freePlaces s.cur.1).length
  table : ∃ n, n < 64 ∧ tfind s.myCore.park n = none

/-- The strand of a slot stands in an entry of the park table, without rows: its blocks have the first free places in their order,
and those in spill slots hold its registers (07 R190, R191). -/
structure ParkedAs (s t : State) (sl n : Nat) (q : Strand) (e : ParkEntry) : Prop where
  gone : t.strand? s.cur.1 sl = none
  entry : tfind t.myCore.park n = some e ∧ tfind s.myCore.park n = none
  strand : e.strand = { q with rows := [], latches := [none, none, none] } ∧ e.restorable = none ∧ e.slot = none
  places : e.blocks = (s.freePlaces s.cur.1).take q.rows.length
  blocks : ∀ (i a b r j : Nat), e.blocks[i]? = some (.acc a b) → q.rows[i]? = some r → r < 64 → j < 6 →
    nth 0 (t.blockAt s.cur.1 (.acc a b)) j = s.myCore.vreg (6 * r + j)

/-- `t` with the bindings of the executing strand as they were in `s`. -/
def State.withStreams (t s : State) : State := t.modMe fun p => { p with streams := s.me.streams }

/-- `t` with the descriptors of the executing core as they were in `s`. -/
def State.withCbd (t s : State) : State := t.modMyCore fun k => { k with cbd := s.myCore.cbd }

/-- `t` with the g registers of the executing strand, and the loads that are to deliver to them, as they were in `s`. -/
def State.withG (t s : State) : State := t.modMe fun p => { p with g := s.me.g, board := s.me.board }

/-- The verdict of the four checks of SBIND, in their order (08 R229): the fault's code, SUB and address. -/
def bindFault (s : State) (o : Ops) : Option (Code × Nat) :=
  let base := s.val o.a
  if !s.streamWindow base then some (.addr, 0x01)
  else if base.toNat % 64 ≠ 0 ∨ (s.val o.b).toNat % 64 ≠ 0 then some (.align, 0)
  else if !s.streamFits base (s.val o.b) (s.val o.c).toNat then some (.addr, 0x05)
  else if 2 ≤ s.me.streams.length ∧ s.me.stream? o.d.ix = none then some (.regAllot, 0x03)
  else none

/-- The verdict of the checks of CBINIT on a descriptor, in their order (08 R233). -/
def cbInitFault (s : State) (cb : BitVec 4) (level : BitVec 2) (o : Ops) : Option (Code × Nat) :=
  let d := s.myCore.cb cb.toNat
  let base := (s.val o.a).toNat
  let sb := (s.val o.b).toNat
  let ns := (s.val o.c).toNat
  if d.valid = true ∧ (d.waiters ≠ 0 ∨ d.claims ≠ d.fills) then some (.prot, 0x22)
  else if base % 64 ≠ 0 then some (.align, 0)
  else if sb = 0 ∨ 65535 < sb ∨ ns = 0 ∨ 65535 < ns then some (.addr, 0x06)
  else if s.levelSize s.cur.1 level < base + sb * 64 * ns then some (.addr, 0x03)
  else none

/-- The descriptor that CBINIT sets up (08 R233). -/
def cbInitial (level : BitVec 2) (prod cons : BitVec 3) (base sb ns : Nat) : CbDesc :=
  { CbDesc.blank with valid := true, level := level, base := BitVec.ofNat 24 base, slotb := BitVec.ofNat 16 sb,
                      nslot := BitVec.ofNat 16 ns, prod := BitVec.ofNat 8 prod.toNat, cons := BitVec.ofNat 8 cons.toNat }

/-- The first checks of the strand forms on their descriptor (08 R235). -/
def cbFormFault (d : CbDesc) (producer : Bool) : Option Nat :=
  if d.valid = false then some 0x20 else if (if producer then d.prod else d.cons) ≠ 0 then some 0x21 else none

/-- The slot address of claim or pop number `n` (08 R233). -/
def slotAddress (d : CbDesc) (n : BitVec 32) : Word :=
  BitVec.ofNat 64 ((0xF0 + d.level.toNat) * 2 ^ 56 + d.base.toNat + n.toNat % d.nslot.toNat * (d.slotb.toNat * 64))

/-! ### Atomics, rendezvous, WAITCHG (06 R158 to R170) -/

/-- An atomic or a rendezvous step: its operands and X, its size, what it does at its home and with which values. -/
structure Step where
  ops : Ops
  x : SyncX
  bytes : Nat
  kind : AtomKind
  b : BitVec 128
  c : BitVec 128

/-- Bytes of .W and .D. -/
def atomBytes (dbl : Bool) : Nat := if dbl then 8 else 4

/-- A pair of g registers, the even one low (02 R50). -/
def regPair (s : State) (x : Src) : BitVec 128 := s.me.getG (x.gNum + 1) ++ s.me.getG x.gNum

/-- The operations that leave for a home atomic unit (06 Table 06.7, R167). -/
def stepRule (s : State) : Instr → Option Step
  | .aadd w t o => some ⟨o, t, atomBytes w, .aop .add, (s.val o.b).setWidth 128, 0⟩
  | .aand w t o => some ⟨o, t, atomBytes w, .aop .and, (s.val o.b).setWidth 128, 0⟩
  | .aor w t o => some ⟨o, t, atomBytes w, .aop .or, (s.val o.b).setWidth 128, 0⟩
  | .axor w t o => some ⟨o, t, atomBytes w, .aop .xor, (s.val o.b).setWidth 128, 0⟩
  | .amin w t o => some ⟨o, t, atomBytes w, .aop .min, (s.val o.b).setWidth 128, 0⟩
  | .amax w t o => some ⟨o, t, atomBytes w, .aop .max, (s.val o.b).setWidth 128, 0⟩
  | .aminu w t o => some ⟨o, t, atomBytes w, .aop .minu, (s.val o.b).setWidth 128, 0⟩
  | .amaxu w t o => some ⟨o, t, atomBytes w, .aop .maxu, (s.val o.b).setWidth 128, 0⟩
  | .aswap w t o => some ⟨o, t, atomBytes w, .aop .swap, (s.val o.b).setWidth 128, 0⟩
  | .afadd w t o =>
    some ⟨o, t, atomBytes w, .aop .fadd,
      (match o.b with | .l6 _ => (s.valF o.b).setWidth 128 | x => (s.val x).setWidth 128), 0⟩
  | .acas w t o => some ⟨o, t, atomBytes w, .cas, (s.val o.b).setWidth 128, (s.val o.c).setWidth 128⟩
  | .acas2 t o => some ⟨o, t, 16, .cas2, regPair s o.b, regPair s o.c⟩
  | .rvjoin t o => some ⟨o, t, 16, .rvJoin, (s.val o.b).setWidth 128, (s.val o.c).setWidth 128⟩
  | .rvarrive t o => some ⟨o, t, 16, .rvArrive, (s.val o.b).setWidth 128, (s.val o.c).setWidth 128⟩
  | .rvwait t o => some ⟨o, t, 16, .rvWait, (s.val o.b).setWidth 128, 0⟩
  | _ => none

/-- The address of a synchronisation operation (01 R34). -/
def syncAddress (s : State) (x : Step) : Word := s.val x.ops.a + x.x.off.signExtend 64

/-- The operation is on its way, to the PAS at the two widest scopes and else to its home (06 R158, 16 R373); its strand waits
for the reply with its region committed. -/
structure StepIssued (s t : State) (x : Step) (loc : Nat) : Prop where
  atom : ∃ a, t.atoms = s.atoms ++ [a] ∧ a.kind = x.kind ∧ a.loc = loc ∧ a.bytes = x.bytes ∧ a.b = x.b ∧ a.c = x.c ∧
    a.scope = x.x.scope ∧ a.order = x.x.order ∧ a.home = s.homeOf loc ∧ a.core = s.cur.1 ∧ a.slot = s.cur.2 ∧
    a.sid = s.me.sid ∧ a.ord = s.me.sord ∧ a.d = x.ops.d ∧ a.pc = s.me.pc ∧
    a.stage = (if x.x.scope = .pkg ∨ x.x.scope = .sys then .toPas else .toHome) ∧ t.me.st = .waiting (.reply a.id)
  region : t.me.region = []
  sdig : t.me.sdig = foldStores s.me.sdig s.me.region
  writes : ∃ ws, t.writes = s.writes ++ ws ∧
    ws.map (·.cells) = ((mergeRegion s.me.region).map (·.cells)).filter fun l => !l.isEmpty
  pc : t.me.pc = s.me.pc
  regs : s.me.Wrote t.me .none 0
  strand : MeKept s.me { t.me with waitNo := s.me.waitNo }
  loads : t.loads = s.keptLoads s.cur.1 s.me.own s.me.region
  rest : { t with cores := s.cores, clusters := s.clusters, writes := s.writes, loads := s.loads, fresh := s.fresh,
                  atoms := s.atoms } = s
  bytes : ∀ l, memGet t.mem l = memGet s.mem l
  clusters : CluKept s t
  cores : CoresKept s t

/-- What an AOP makes of the old value of `n` bits (06 Table 06.7), over numbers. -/
def aopRule (n : Nat) (f : AopFn) (old b : BitVec n) : BitVec n :=
  match f with
  | .add => BitVec.ofNat n (old.toNat + b.toNat)
  | .and => old &&& b
  | .or => old ||| b
  | .xor => old ^^^ b
  | .min => BitVec.ofInt n (min old.toInt b.toInt)
  | .max => BitVec.ofInt n (max old.toInt b.toInt)
  | .minu => BitVec.ofNat n (min old.toNat b.toNat)
  | .maxu => BitVec.ofNat n (max old.toNat b.toNat)
  | .swap => b
  | .fadd => (afadd (old.setWidth 32) (b.setWidth 32)).setWidth n

/-- The value at an atomic's location afterwards (06 R158): a compare-and-swap writes its second value when the old one
equals its first. -/
def atomicRule (a : AtomOp) (old : Nat) : Nat :=
  let w := 8 * a.bytes
  match a.kind with
  | .aop f => (aopRule w f (BitVec.ofNat w old) (a.b.setWidth w)).toNat
  | .cas | .cas2 => if old = a.b.toNat % 2 ^ w then a.c.toNat % 2 ^ w else old
  | _ => old

/-- The value that a reply gives its g destination (06 R158): a 4-byte one sign-extended. -/
def replyValue (a : AtomOp) (res : BitVec 128) : Word :=
  match a.kind with
  | .aop _ | .cas => if a.bytes = 4 then (res.setWidth 32).signExtend 64 else res.setWidth 64
  | _ => res.setWidth 64

/-- A context outside the Colophon's modes (17 R382). -/
def State.ColophonOff (s : State) (asid : Nat) : Prop := (s.ctx asid).mode = .off

/-- The little-endian value of bytes of memory. -/
def bytesAt (s : State) (l n : Nat) : Nat := memVal s.mem (locsFrom l n)

/-- Memory with the `n` bytes at `l` holding a value, and every other byte as before. -/
def Stores (s t : State) (l n v : Nat) : Prop :=
  ∀ k, memGet t.mem k = if l ≤ k ∧ k < l + n then BitVec.ofNat 8 (v / 2 ^ (8 * (k - l))) else memGet s.mem k

/-! ### Handler strands (04 R101), creation and end of strands (06 R171 to R174) -/

/-- The instructions that a handler strand may not issue (04 R101), VGROW of more than zero blocks among them; CBWAITF and
CBWAITE check their descriptor first (08 R235). -/
def handlerBarred (s : State) : Instr → Option Ops
  | .rvjoin _ o | .rvwait _ o | .clbarWait _ o | .gang _ _ o | .waitchg _ _ o | .migrate o | .migrateC o | .spawn o => some o
  | .cbwaitf cb o => if cbFormFault (s.myCore.cb cb.toNat) false = none then some o else none
  | .cbwaite cb o => if cbFormFault (s.myCore.cb cb.toNat) true = none then some o else none
  | .vgrow o => if 0 < (s.val o.a).toNat ∧ (s.val o.a).toNat ≤ 11 then some o else none
  | _ => none

/-- The word identity that a cause word carries for an instruction (01 R40). -/
def wordIdOfInstr (i : Instr) (o : Ops) : WordId := { maj := (encode i).maj, fn := (encode i).fn, len := lenCode o.len }

/-- The child of a SPAWN (06 R171). -/
structure ChildOf (p child : Strand) (target : Word) (mask : BitVec 16) : Prop where
  pc : child.pc = target
  own : child.asid = p.asid ∧ child.sec = p.sec ∧ child.pager = p.pager ∧ child.sup = p.sup ∧ child.lidx = p.lidx ∧
    child.lh = p.lh
  kind : child.kind = .spawned
  sid : child.sid = BitVec.ofNat 64 (2 ^ 62 + sidmix p.sid (p.sord.setWidth 64))
  g : ∀ i, i < 16 → child.getG i = if mask.getLsbD i then p.getG i else 0
  fresh : child.st = .ready ∧ child.fcnt = 0 ∧ child.flags = 0 ∧ child.amax = 0 ∧ child.draw = 0 ∧ child.sord = 0 ∧
    child.sdig = 0 ∧ child.rows = [] ∧ child.streams = [] ∧ child.region = []

/-- The migratable state of a strand, as its migration message carries it (04 Table 04.3, 06 R174): the PC after the
instruction and SORD one higher. -/
structure Carries (p q : Strand) (len : Nat) : Prop where
  pc : q.pc = p.pc + toWord len
  sord : q.sord = p.sord + 1
  same : q.asid = p.asid ∧ q.fcnt = p.fcnt ∧ q.kind = p.kind ∧ q.sec = p.sec ∧ q.pager = p.pager ∧ q.sup = p.sup ∧
    q.g = p.g ∧ q.flags = p.flags ∧ q.rmode = p.rmode ∧ q.amax = p.amax ∧ q.draw = p.draw ∧ q.sid = p.sid ∧
    q.lidx = p.lidx ∧ q.lh = p.lh ∧ q.sdig = p.sdig
  none : q.rows = [] ∧ q.streams = [] ∧ q.region = []

/-- The first four checks of MIGRATE pass (06 R173). -/
structure MayMigrate (s : State) : Prop where
  handler : s.me.handler = false
  rows : s.me.rows = []
  streams : s.me.streams = []
  ops : ∀ e ∈ s.ops, e.core = s.cur.1 → e.own ≠ s.me.own
  matrix : ∀ e ∈ s.myCore.mtx.queue, e.own ≠ s.me.own

/-- The destination of a MIGRATE that passes its last check: the home core of its address, or its logical core, in the
launch's chiplet set and not a pager core (06 R173). -/
def migrateTo (s : State) : Instr → Option (Ops × Nat)
  | .migrate o =>
    match s.checks Need.none (s.val o.a) 1 with
    | .ok ps =>
      match s.homeCore s.cur.1 ((reached ps).headD 0) with
      | some k => if s.inLaunch k then some (o, k) else none
      | none => none
    | _ => none
  | .migrateC o =>
    if (s.val o.a).toNat < 2 ^ 16 then
      match s.coreOfL (coreSite s.cur.1) (s.val o.a).toNat with
      | some k => if s.isPager k || !s.inLaunch k then none else some (o, k)
      | none => none
    else none
  | _ => none

/-! ### Queued operations and tickets (09 R245, R250 to R257; 11 R287 to R300; 23 R462 to R464) -/

/-- A stride operand of zero stands for packed rows (09 R250). -/
def rowStride (st : Word) (bytes : Nat) : Word := if st = 0 then BitVec.ofNat 64 bytes else st

/-- Bytes of an activation element and of a drained one (09 Tables 09.3 and 09.8). -/
def actBytes : MFmt → Nat
  | .bf16 | .fp16 => 2
  | _ => 1

/-- The matrix instructions that enter the queue, with what their entry does on the operands read at issue. -/
def matrixRule (s : State) : Instr → Option (Ops × MBody)
  | .mwload f wsc o =>
    some (o, .load f (s.val o.a) (rowStride (s.val o.b) 128) (if wsc then some (s.val o.c) else none))
  | .mcbook o => some (o, .book (s.val o.a + s.val o.b))
  | .mstream x o =>
    some (o, .stream x (s.val o.a) (rowStride (if x.src then 0 else s.val o.b) (96 * actBytes x.afmt)) (s.val o.c).toNat)
  | .mdrain x o =>
    some (o, .drain x (s.val o.a)
      (rowStride (if x.src then 0 else s.val o.b) (x.nlen.toNat * match x.dfmt with | .f32 => 4 | _ => 2)) (s.val o.c).toNat)
  | .mclr shape set o => some (o, .clear shape set.toNat)
  | .mswap o => some (o, .swap)
  | _ => none

/-- The stack that holds a weight byte of HGEMV, when the byte's page is readable and STACKLOCAL (11 R300). -/
def weightStack (s : State) (va : Word) : Option Nat :=
  match s.checks Need.none va 1 with
  | .ok (p :: _) =>
    if p.stackLocal && ((p.entry.map fun e => (ptePage e.pte).r).getD true) then some (p.locs.headD 0 / 2 ^ 36) else none
  | _ => none

/-- What ACOPY does by its number of dimensions (11 R289, Table 11.6). -/
def copyRule (s : State) (x : CopyX) (o : Ops) : Option EngBody :=
  let a := s.val o.a
  let b := s.val o.b
  match x.dim.toNat, o.c with
  | 1, _ => some (.copy a b 1 1 (s.val o.c).toNat 0 0 0 0 x.low x.sync false)
  | 2, _ =>
    let n := s.val o.c
    some (.copy a b 1 (wfld n 32 16) (wfld n 0 32) (x.srs.signExtend 64) (x.trs.signExtend 64) 0 0 x.low x.sync
      (decide (wfld n 48 16 ≠ 0)))
  | 3, .g r =>
    let n := s.me.getG r.toNat
    let st := s.me.getG (r.toNat + 1)
    some (.copy a b (wfld n 48 16) (wfld n 32 16) (wfld n 0 32) (x.srs.signExtend 64) (x.trs.signExtend 64)
      ((st.extractLsb' 32 32).signExtend 64) ((st.extractLsb' 0 32).signExtend 64) x.low x.sync false)
  | _, _ => none

/-- What RMAPOST posts: the queue pair and the key stand in its third operand (23 R462). -/
def postRule (s : State) (op : RmaOp) (sync fence : Bool) (len : Nat) (o : Ops) : EngBody :=
  .rma op (s.val o.a) (s.val o.b) ((s.val o.c).extractLsb' 32 32) (wfld (s.val o.c) 0 24) len sync fence

/-- The instructions that enter an engine queue: operands, class, and the operation. -/
def engineRule (s : State) : Instr → Option (Ops × Nat × EngBody)
  | .acopy x o => (copyRule s x o).map fun e => (o, 0, e)
  | .acopycbFill cb sync low o =>
    let n := s.val o.c
    some (o, 0, .fill cb (s.val o.a) (s.val o.b) (wfld n 48 16) (wfld n 32 16) (wfld n 0 32) low sync)
  | .acopycbDrain cb sync low o =>
    let n := s.val o.c
    some (o, 0, .drain cb (s.val o.a) (s.val o.b) (wfld n 48 16) (wfld n 32 16) (wfld n 0 32) low sync)
  | .hgemv x o =>
    let w := s.val o.a
    let e (n : Nat) : Ops × Nat × EngBody := (o, 1, .hgemv x w (s.val o.b) (s.val o.c) n)
    if x.k = 0 ∨ x.n = 0 then some (e 0)
    else
      let bytes := match x.wfmt with | .bf16 => 2 | _ => 1
      let last := w + BitVec.ofNat 64 ((x.k.toNat - 1) * x.stride.toNat + x.n.toNat * bytes - 1)
      match weightStack s w, weightStack s last with
      | some i, some j => if i = j then some (e i) else none
      | _, _ => none
  | .rmapostWrite sync fence len o => some (o, 3, postRule s .write sync fence len.toNat o)
  | .rmapostRead sync fence len o => some (o, 3, postRule s .read sync fence len.toNat o)
  | .rmapostFadd sync fence o => some (o, 3, postRule s .fadd sync fence 8 o)
  | .rmapostCas sync fence o => some (o, 3, postRule s .cas sync fence 8 o)
  | _ => none

/-- Entries of a class's queue on a core (11 Table 11.2). -/
def classSize (cls : Nat) : Nat := if cls = 1 then 8 else 16

/-- `t` with the tickets, the matrix state and the remote tickets of the executing core as they were in `s`. -/
def State.withIssue (t s : State) : State :=
  t.modMyCore fun k => { k with issq := s.myCore.issq, mtx := s.myCore.mtx, rma := s.myCore.rma }

/-- `t` with the operations in flight and the clusters as they were in `s`. -/
def State.withEngines (t s : State) : State := { t with ops := s.ops, clusters := s.clusters }

/-- The next ticket of a class has been taken and delivered (11 R287). -/
structure TicketTaken (s t : State) (o : Ops) (cls : Nat) : Prop where
  issued : vget 0 t.myCore.issq cls = vget 0 s.myCore.issq cls + 1
  others : ∀ n, n ≠ cls → vget 0 t.myCore.issq n = vget 0 s.myCore.issq n
  wrote : s.me.Wrote t.me o.d (vget 0 s.myCore.issq cls + 1)

/-- An instruction waits at its PC with nothing written. -/
structure WaitsFor (s t : State) (w : Wait) : Prop where
  st : t.me.st = .waiting w
  pc : t.me.pc = s.me.pc
  regs : s.me.Wrote t.me .none 0
  region : t.me.region = []
  bytes : ∀ l, memGet t.mem l = memGet s.mem l

/-- What a wait for a sequence awaits: class and target (09 R257, 11 R296). -/
def sequenceRule (s : State) : Instr → Option (Ops × Nat × Word)
  | .mwait all o => some (o, 2, if all then vget 0 s.myCore.issq 2 else s.val o.a)
  | .await cls all o => some (o, cls.toNat, if all then vget 0 s.myCore.issq cls.toNat else s.val o.a)
  | _ => none

/-- What ASEQ reads of a class (11 R297). -/
def sequenceValue (s : State) (cls : Nat) : SeqMode → Word
  | .iss => vget 0 s.myCore.issq cls
  | .done => vget 0 s.myCore.eseq cls
  | .own =>
    if cls = 2 then toWord (s.myCore.mtx.queue.filter fun e => e.own == s.me.own).length
    else toWord (s.ops.filter fun e => e.core == s.cur.1 && e.cls == cls && e.own == s.me.own).length

/-- The word of a ticket of RMAPOLL (23 Table 23.7). -/
structure TicketWord (r : RmaStatus) (v : Word) : Prop where
  done : v.getLsbD 63 = r.done
  known : v.getLsbD 62 = true
  qp : v.extractLsb' 24 24 = r.qp
  reserved : v.extractLsb' 48 14 = 0 ∧ v.extractLsb' 10 14 = 0
  open_ : r.done = false → v.extractLsb' 0 8 = 0
  closed : r.done = true → v.extractLsb' 8 2 = r.qst ∧ v.extractLsb' 0 8 = r.status

/-! ### The cluster's units (10 R267 to R276) -/

/-- The counter of a cluster that CHUNK and CHSET name. -/
def State.myCtr (s : State) (i : Nat) : Ctr := s.ctr (coreClu s.cur.1) i

/-- The counter that CHSET sets (10 R275); P of 256 is held as 0. -/
def chsetRule (a b w : Word) : Ctr where
  next := a.setWidth 32
  stop := BitVec.ofNat 32 (a.toNat + b.toNat)
  min := if wfld w 0 16 = 0 then 1 else BitVec.ofNat 16 (wfld w 0 16)
  factor := if wfld w 16 8 = 0 then 1 else BitVec.ofNat 8 (wfld w 16 8)
  p := BitVec.ofNat 8 (wfld w 24 8)

/-- The length of the next range of a counter (10 R276). -/
def chunkLength (x : Ctr) : Nat :=
  let rem := (x.stop.toNat + 2 ^ 32 - x.next.toNat) % 2 ^ 32
  let d := x.factor.toNat * if x.p = 0 then 256 else x.p.toNat
  min rem (max x.min.toNat ((rem + (d - 1)) / d))

/-- The clusters with the counters, or the barriers, of the executing one changed only at one number. -/
structure UnitOnly (s t : State) (ctr bar : Option Nat) : Prop where
  ctrs : ∀ n, ctr ≠ some n → t.ctr (coreClu s.cur.1) n = s.ctr (coreClu s.cur.1) n
  bars : ∀ n, bar ≠ some n → t.bar (coreClu s.cur.1) n = s.bar (coreClu s.cur.1) n
  mine : { t.clu (coreClu s.cur.1) with
    ctrs := (s.clu (coreClu s.cur.1)).ctrs, bars := (s.clu (coreClu s.cur.1)).bars } = s.clu (coreClu s.cur.1)
  others : ∀ k, k ≠ coreClu s.cur.1 → t.clu k = s.clu k

/-- `t` with the clusters, and with the ordinal of the executing strand, as they were in `s`. -/
def State.withUnits (t s : State) : State :=
  { t.modMe fun p => { p with sord := s.me.sord } with clusters := s.clusters }

/-- Start and length of the share of participant `i` of `p` (10 R268). -/
def shareRule (n p i : Nat) : Nat × Nat :=
  if p = 0 ∨ p ≤ i then (n, 0) else (i * (n / p) + min i (n % p), n / p + if i < n % p then 1 else 0)

/-- Participants and participant of PART: its operands, or a level of 10 Table 10.3. -/
def partRule (s : State) (lvs : BitVec 3) (o : Ops) : Nat × Nat :=
  if lvs = 0 then (wfld (s.val o.b) 0 32, wfld (s.val o.c) 0 32)
  else
    let x := s.level s.cur.1 s.cur.2 s.me.asid.toNat s.me.lh.toNat (lvs.toNat - 1)
    (x.2, x.1)

/-- The barrier after an arrival with a count (10 R274). -/
def arrivalRule (b : Bar) (c : Word) : Bar :=
  let n := c.setWidth 16
  let parties := if b.parties = 0 then n else b.parties
  let mis := b.mis || (decide (b.parties ≠ 0) && decide (n ≠ b.parties))
  if b.cnt + 1 = parties then { phase := b.phase + 1, parties := 0, cnt := 0, mis }
  else { phase := b.phase, parties, cnt := b.cnt + 1, mis }

/-- The generation that a GANG meets: the mask that governs it, and the cores that have arrived (10 R270). -/
def gangOpen (x : Gang) (mk : BitVec 4) : BitVec 4 × BitVec 4 := if x.opn then (x.mask, x.arr) else (mk, 0)

/-- The checks of GANG on its mask, its generation in which its core has not yet arrived, and no arrival that waits for the
next one (10 R270). -/
structure MayArrive (s : State) (g : BitVec 2) (mk : BitVec 4) : Prop where
  own : mk &&& cixBit s.cur.1 ≠ 0
  live : mk.toNat &&& s.liveMask (coreClu s.cur.1) = mk.toNat
  governed : (gangOpen (s.gang (coreClu s.cur.1) g.toNat) mk).1 &&& cixBit s.cur.1 ≠ 0
  new : (gangOpen (s.gang (coreClu s.cur.1) g.toNat) mk).2 &&& cixBit s.cur.1 = 0
  free : (s.gang (coreClu s.cur.1) g.toNat).held = []
  apart : ∀ a ∈ (s.gang (coreClu s.cur.1) g.toNat).arrived, a.core ≠ s.cur.1

/-- The shoot-down that a TLBINV form asks for: kind, ASID, address (10 R279). -/
def shootRule (s : State) : Instr → Option (Ops × Bool × BitVec 2 × BitVec 12 × Word)
  | .tlbinvPage wide o => some (o, wide, 0, (s.val o.b).setWidth 12, s.val o.a)
  | .tlbinvAsid wide o => some (o, wide, 1, (s.val o.b).setWidth 12, 0)
  | .tlbinvGlob wide o => some (o, wide, 2, 0, 0)
  | .tlbinvAll wide o => some (o, wide, 3, 0, 0)
  | _ => none

/-! ### Sends (16 R364, Table 16.3) -/

/-- A send whose destination exists: operands, X, the core it goes to. -/
def sendRule (s : State) : Instr → Option (Ops × SendX × Nat)
  | .amsend x o =>
    match s.checks Need.none (s.val o.a) 1 with
    | .ok ps => (s.homeCore s.cur.1 ((reached ps).headD 0)).map fun k => (o, x, k)
    | _ => none
  | .amsendc x o =>
    if (s.val o.a).toNat < 2 ^ 16 then (s.coreOfL (coreSite s.cur.1) (s.val o.a).toNat).map fun k => (o, x, k) else none
  | _ => none

/-- The message of a send (16 Table 16.3): the payload is PCNT registers from PBASE, and the sender's identity goes with it. -/
structure MessageOf (s : State) (x : SendX) (o : Ops) (m : ActMsg) : Prop where
  handler : m.handler = s.val o.b
  payload : ∀ i, i < 6 → vget 0 m.payload i = if i < x.pcnt.toNat then s.me.getG (x.pbase.toNat + i) else 0
  sender : m.sid = s.me.sid ∧ m.ord = s.me.sord ∧ m.lh = s.me.lh ∧ m.lcore = s.myCore.lcore ∧ m.sent = s.spine.time
  owner : m.asid = s.me.asid ∧ m.sec = s.me.sec ∧ m.sup = s.me.sup ∧ m.pager = s.me.pager
  class_ : m.urg = x.urg ∧ m.pcnt = x.pcnt

/-! ### What cores do by themselves (04 R103, R109 to R112; 07 R178 to R193, R203; 16 R370; 19 R435) -/

/-- Every byte of memory reads as before. -/
def MemKept (s t : State) : Prop := ∀ l, memGet t.mem l = memGet s.mem l

/-- Every core but one is as before, and of that one every slot but one. -/
structure SlotsKept (s t : State) (c n : Nat) : Prop where
  cores : ∀ k, k ≠ c → t.core k = s.core k
  slots : ∀ m, m ≠ n → t.strand? c m = s.strand? c m

/-- The strands of a core that are eligible at an issue opportunity (07 R179). -/
def State.eligible (s : State) (c : Nat) : List Cand := (s.core c).slots.filterMap fun e => s.cand c e.1 e.2

/-- Nothing is due on a core at its next cycle: no strand pauses or yields, no region commits by time or by count, and no
deferred fault waits for its boundary (05 R132, R133; 04 R103, R109). -/
structure NothingDue (s : State) (c : Nat) : Prop where
  held : ∀ e ∈ (s.core c).slots, e.2.pauseUntil = none ∧ e.2.yielding = none
  time : ∀ e ∈ (s.core c).slots, e.2.mustCommit = false ∧ ∀ u, e.2.firstStore = some u → (s.core c).cc + 1 < u + 1024
  count : ∀ e ∈ (s.core c).slots, e.2.retired < 4096
  faults : (s.core c).deferred = []

/-- The open region of the strand in a slot has been handed to memory (04 R103), and nothing else has changed. -/
structure RegionHanded (s t : State) (c n : Nat) (p : Strand) : Prop where
  strand : ∃ q, t.strand? c n = some q ∧ q.region = [] ∧ q.sdig = foldStores p.sdig p.region ∧ q.ckptDue = true ∧
    { q with region := p.region, sdig := p.sdig, ckptDue := p.ckptDue, retired := p.retired, firstStore := p.firstStore,
             mustCommit := p.mustCommit, nextSeq := p.nextSeq } = p
  loads : t.loads = s.keptLoads c p.own p.region
  writes : ∃ ws, t.writes = s.writes ++ ws ∧
    ws.map (·.cells) = ((mergeRegion p.region).map (·.cells)).filter (fun l => !l.isEmpty) ∧
    ∀ w ∈ ws, w.core = c ∧ w.slot = n ∧ w.sid = p.sid ∧ w.rel = false ∧ w.locked = false
  kept : SlotsKept s t c n
  rest : { t with cores := s.cores, writes := s.writes, loads := s.loads, fresh := s.fresh } = s

/-- The handler strand of a fault (04 R98, R111, Tables 04.10 and 04.11): it starts at the launch's fault handler with the
faulted strand's SID, the cause word, the PC, the address, and FCNT with the slot. -/
structure HandlerOf (s : State) (p h : Strand) (sl : Nat) (f : FaultRec) : Prop where
  pc : h.pc = pcOf (s.launch p.asid.toNat p.lh.toNat).fault
  sid : h.getG 0 = p.sid
  code : (h.getG 1).extractLsb' 0 8 = BitVec.ofNat 8 f.code.num
  deferred : (h.getG 1).getLsbD 8 = f.deferred
  sub : (h.getG 1).extractLsb' 32 8 = f.sub
  word : (h.getG 1).extractLsb' 48 2 = f.word.len ∧ (h.getG 1).extractLsb' 50 6 = f.word.fn ∧
    (h.getG 1).extractLsb' 56 8 = f.word.maj
  at_ : h.getG 2 = f.pc ∧ h.getG 3 = f.addr
  count : h.getG 4 = toWord ((p.fcnt + 1).toNat * 2 ^ 16 + sl)
  zero : ∀ n, 5 ≤ n → n < 16 → h.getG n = 0
  own : h.kind = .handler ∧ h.asid = p.asid ∧ h.sec = p.sec ∧ h.pager = p.pager ∧ h.sup = p.sup ∧ h.lidx = p.lidx ∧
    h.lh = p.lh
  fresh : h.st = .ready ∧ h.rows = [] ∧ h.region = [] ∧ h.flags = 0 ∧ h.fcnt = 0

/-- A fault that starts a handler strand: no divergence, not UNREACHABLE, of a strand that is no fault handler itself, whose
launch has a fault handler (04 R101, Table 04.9; 17 R395; 18 R412). -/
structure Handled (s : State) (p : Strand) (f : FaultRec) : Prop where
  code : f.code ≠ .replayDiverge ∧ f.code ≠ .unreachable
  kind : p.kind ≠ .handler
  entry : (s.launch p.asid.toNat p.lh.toNat).fault ≠ 0

/-- A fault of the strand in a slot that ends no context: of a stopped strand, a divergence, or one that a handler takes. -/
def Harmless (s : State) (c n : Nat) : Prop :=
  ∀ q g, s.strand? c n = some q → q.st = .faulted g → q.stopped = true ∨ g.code = .replayDiverge ∨ Handled s q g

/-- No strand that is restorable or that a STALE migration returns claims a slot of a core (07 Table 07.1, first class; 11
R310). -/
structure NoFirst (s : State) (c : Nat) : Prop where
  park : ∀ e ∈ (s.core c).park, e.2.restorable.isSome = true → e.2.slot.isSome = true
  stale : ∀ m ∈ s.migs, m.src = c → m.stage ≠ .stale

/-- No strand, spilled arrival or queued migration claims a slot of a core before a message does (07 Table 07.1). -/
structure NoClaims (s : State) (c : Nat) : Prop where
  first : NoFirst s c
  migs : (s.core c).migQ = []
  spill : (s.core c).spillQ = []

/-- The first restorable strand that has its slot comes back from the park table, with an age: its rows are the lowest free ones,
and their registers hold its blocks (07 R193). -/
def Unparked (s : State) (c sl n : Nat) (e : ParkEntry) (age : Nat) : Prop :=
  ∃ t, exec (.parkedRestore c) s = .next t ∧
    t.strand? c sl = some { e.strand with rows := (s.core c).freeRows.take e.blocks.length, age := age } ∧
    tfind (t.core c).park n = none ∧
    (∀ (i j : Nat) (x : SpillLoc) (r : Nat), e.blocks[i]? = some x → (s.core c).freeRows[i]? = some r → j < 6 →
      (t.core c).vreg (6 * r + j) = nth 0 (s.blockAt c x) j) ∧
    SlotsKept s t c sl ∧ MemKept s t

/-- The strand that a strand becomes in its slot: its age starts again, and one that has no number takes the next (the number is
the model's own). -/
def seated (s : State) (p : Strand) : Strand := { p with age := 0, own := if p.own = 0 then s.fresh + 1 else p.own }

/-! ### Accesses, ordered operations and presentations on their way (06, 15, 16 R373 to R375, 17 R391) -/

/-- A strand does not wait in CBPUSH for its earlier stores. -/
def Unheld (p : Strand) : Prop := ∀ cb, p.wait? ≠ some (.cbStores cb)

/-- No strand of a core waits in CBPUSH for its earlier stores. -/
structure NoRetry (s : State) (c : Nat) : Prop where
  slots : ∀ e ∈ (s.core c).slots, Unheld e.2
  park : ∀ e ∈ (s.core c).park, Unheld e.2.strand

/-- A request may be delivered: no hole stands on its way, and no earlier packet of its core to the same core over the same route
entry is still to be delivered: `sent` is its place in the order of sending (14 R325, R334; 16 R378). -/
structure Comes (s : State) (sent src l : Nat) (route : Word) : Prop where
  path : s.stuckReq src l route = false
  turn : s.behindAt sent src l route = false

/-- The location of the first byte of a part of a load. -/
def firstOf (u : RUnit) : Nat := (u.cells.headD (0, none)).1

/-- The bytes of a load may return: neither a reset of its core, nor a hole, nor an earlier response of the core that holds them
stops a part (11 R310; 14 R325; 16 R378). -/
def Returns (s : State) (l : LoadOp) : Prop :=
  ∀ u ∈ l.parts, s.staleRsp l.core (firstOf u) u.route = false ∧ s.stuckRsp l.core (firstOf u) = false ∧
    s.behindRspAt (firstOf u) l.core u.rsp = false

/-- Some bytes stand in memory at their locations, and every other byte is as before. -/
structure Written (s t : State) (cells : List Host.Cell) : Prop where
  bytes : ∀ x ∈ cells, memGet t.mem x.1 = x.2
  other : ∀ l, (∀ x ∈ cells, x.1 ≠ l) → memGet t.mem l = memGet s.mem l

/-- A part of a load of a strand with every byte taken: those that the strand's own earlier stores give, else those of memory (04
R102). Its response leaves by the route entry that the holder of the bytes has now. -/
def takenPart (s : State) (p : Strand) (l : LoadOp) (u : RUnit) : RUnit :=
  { u with rsp := (s.fresh, s.route (locSite (firstOf u)) (coreSite l.core)), cells := (u.cells.zip u.mapped).map fun x => (x.1.1, some ((s.ownByte p l.seq x.2).getD (memGet s.mem x.1.1))) }

/-- A load has left the list of those in flight, and of its strand only g registers, with their copies at the checkpoint, and the
loads that are to deliver to them have changed. -/
structure Landed (s t : State) (l : LoadOp) (p q : Strand) : Prop where
  loads : t.loads = s.loads.filter fun m => m.id != l.id
  strand : { q with g := p.g, ckpt := p.ckpt, board := p.board } = p
  slots : SlotsKept s t l.core l.slot
  rest : { t with cores := s.cores, loads := s.loads } = s

/-- The value that a load of some bytes gives a register of 64 bits (06 R151). -/
def loadedValue (sgn : Bool) (size : Nat) (bytes : List Byte) : Word :=
  if sgn then (BitVec.ofNat (8 * size) (leNat bytes)).signExtend 64 else BitVec.ofNat 64 (leNat bytes % 2 ^ (8 * size))

/-- An ordered operation is the one of its number, and its strand waits for it in its slot, not stepping. -/
structure OpAt (s : State) (a : AtomOp) (p : Strand) : Prop where
  op : s.atom? a.id = some a
  only : (s.atoms.map (·.id)).Nodup
  found : s.atomStrand a = some (.slot a.slot, p)
  slot : s.strand? a.core a.slot = some p
  step : p.stepping = false

/-- An operation may be performed at its home: it has come there, its strand's earlier accesses let it, its chiplet has not been
reset, no hole stands on its way, and what its core sent to the unit before it has been delivered (06 R153; 11 R298, R310; 14
R325; 16 R378). -/
structure AtHome (s : State) (a : AtomOp) : Prop where
  stage : a.stage = .toHome
  ready : s.atomReady a = true
  fresh : s.staleReq a.core a.loc a.route = false
  path : s.stuckReq a.core a.loc a.route = false
  turn : s.unitTurn a = false ∧ s.behindAt a.sent a.core a.loc a.route = false

/-- The reply of an operation may reach its core: no reset of the sender, hole or earlier response stops it (11 R310; 14 R325; 16
R378). -/
structure ReplyComes (s : State) (a : AtomOp) : Prop where
  fresh : s.replyLost a = false
  path : s.replyStuck a = false

/-- An operation that was returned as it leaves its core again, with the route entry of now (06 R169; 16 R374). -/
def resent (s : State) (a : AtomOp) : AtomOp :=
  let pas : Prop := a.scope = .pkg ∨ a.scope = .sys
  { a with stage := if pas then .toPas else .toHome, heldUp := false,
           route := s.route (coreSite a.core) (if pas then spineSite else locSite a.loc), sent := s.fresh }

/-- An operation that its home has answered with a result. -/
def replied (s : State) (a : AtomOp) (res : BitVec 128) : AtomOp :=
  { a with stage := .reply res, heldUp := false, rsp := s.respNow a }

/-- The operation of a number has been replaced, and nothing else changed. -/
structure OpMoved (s t : State) (a b : AtomOp) : Prop where
  atoms : t.atoms = s.atoms.map fun x => if x.id = a.id then b else x
  rest : { t with atoms := s.atoms } = s

/-- Memory outside 16 bytes, and every slot but one, are as before; no access has come or gone. -/
structure CellOnly (s t : State) (a : AtomOp) : Prop where
  bytes : ∀ l, l < a.loc ∨ a.loc + 16 ≤ l → memGet t.mem l = memGet s.mem l
  slots : SlotsKept s t a.core a.slot
  flight : t.writes = s.writes ∧ t.loads = s.loads

/-- What VAL becomes at a later arrival, by the operation of the cell (06 R167). -/
def combineRule (x : RvCell) (v : Word) : Word :=
  match (x.low.extractLsb' 0 3).toNat with
  | 0 => aopRule 64 .add x.val v
  | 1 => aopRule 64 .min x.val v
  | 2 => aopRule 64 .max x.val v
  | 3 => aopRule 64 .minu x.val v
  | 4 => aopRule 64 .maxu x.val v
  | 5 => aopRule 64 .or x.val v
  | 6 => x.val
  | _ => (aopRule 32 .fadd (x.val.setWidth 32) (v.setWidth 32)).setWidth 64

/-- A cell after an arrival while its generation is open (06 R165, R167): the first one sets the parties and VAL. -/
def arrivedCell (x : RvCell) (a : AtomOp) : RvCell :=
  let v := a.b.setWidth 64
  let n := a.c.setWidth 16
  let first := x.parties = 0
  { x with
    val := if first then (if x.low.extractLsb' 0 3 = 7 then (v.setWidth 32).setWidth 64 else v) else combineRule x v
    parties := if first then (if n = 0 then 1 else n) else x.parties
    cnt := (if first then 0 else x.cnt) + 1
    owe := if a.owing then x.owe + 1 else x.owe
    mis := x.mis || decide (¬ first ∧ n ≠ x.parties) }

/-- A cell whose generation closes. -/
def closedCell (x : RvCell) : RvCell := { x with gen := x.gen + 1, parties := 0, cnt := 0, rel := false }

/-- A cell after one of the takes that it owes. -/
def takenCell (x : RvCell) : RvCell :=
  if x.owe = 1 then closedCell { x with owe := 0 } else { x with owe := x.owe - 1 }

/-- A reply has been written to the reply area of a core that is not in RUN (07 R202): of memory only its 16 bytes may have changed. -/
structure ReplyKept (s t : State) (c : Nat) (r : ReplyItem) : Prop where
  mine : t.core c = { s.core c with replies := (s.core c).replies ++ [r] }
  cores : ∀ k, k ≠ c → t.core k = s.core k
  bytes : ∀ l, l ∉ s.areaFrom (s.core c).savea (0x9000 + 16 * (s.core c).replies.length) 16 → memGet t.mem l = memGet s.mem l
  rest : { t with cores := s.cores, mem := s.mem, fresh := s.fresh } = s

/-- Nothing waits at a cell but joins. -/
structure QuietCell (s : State) (loc : Nat) : Prop where
  held : ∀ b ∈ s.atoms, b.loc = loc → b.stage ≠ .heldArrival
  takes : ∀ b ∈ s.atoms, b.loc = loc → b.kind = .rvWait → b.stage ≠ .waiting

/-! ### Messages, migrations, replies and steals on their way (04 R110; 06 R174; 11 R303 to R310; 14 R334; 16 R364 to R372) -/

/-- The send of a number has been replaced, and nothing else changed. -/
def SendMoved (s t : State) (m m' : SendOp) : Prop :=
  t = { s with sends := s.sends.map fun x => if x.id = m.id then m' else x }

/-- A send that its destination has answered with a status. -/
def statused (s : State) (m : SendOp) (st : BitVec 8) : SendOp :=
  { m with stage := .status st, rsp := (s.fresh, s.route (coreSite m.dest) (coreSite m.core)) }

/-- A packet of a core to another core may be delivered: no hole stands on its way, and no earlier one of its class over the same
route entry is still to be delivered (14 R325, R334; 16 R378). -/
structure Delivered (s : State) (sent src dst : Nat) (route : Word) (urg : Bool) : Prop where
  path : s.pathClear (coreSite src) (coreSite dst) route = true
  turn : s.behind sent src dst route urg = false

/-- A send stands at its destination: the oldest of its number. -/
structure SendAt (s : State) (m : SendOp) : Prop where
  found : s.sends.find? (fun x => x.id == m.id && x.stage == .toDest) = some m
  only : (s.sends.map (·.id)).Nodup
  stage : m.stage = .toDest
  off : s.ColophonOff m.msg.asid.toNat
  comes : m.packet = none → Delivered s m.sent m.core m.dest m.route m.msg.urg

/-- A message has been answered: of its destination only the buffers and counters have changed, and nothing else but its stage and
memory. -/
structure Answered (s t : State) (m : SendOp) (st : BitVec 8) : Prop where
  sends : t.sends = s.sends.map fun x => if x.id = m.id then statused s m st else x
  slots : (t.core m.dest).slots = (s.core m.dest).slots
  cores : ∀ c, c ≠ m.dest → t.core c = s.core c
  rest : { t with cores := s.cores, sends := s.sends, mem := s.mem, uncorr := s.uncorr } = s

/-- Entries of the spill queue of a core: those of a saved image that stands there, and those of the core. -/
def spilled (s : State) (c : Nat) : Nat := s.spillBase c + (s.core c).spillQ.length

/-- Locations of the next entry of the spill queue of a core: 128 bytes, from byte 0x20_0000 of its save area on (07 R202, Table
07.9). -/
def nextEntry (s : State) (c : Nat) : List Nat := s.areaFrom (s.core c).savea (0x200000 + 128 * spilled s c) 128

/-- An entry of the spill queue has been written: every byte of memory outside its 128 is as before, and a message stands there in the
words of 16 Table 16.3. -/
structure EntryWritten (s t : State) (c : Nat) (words : Option (Nat → Word)) : Prop where
  other : ∀ l, l ∉ nextEntry s c → memGet t.mem l = memGet s.mem l
  words : ∀ f i, words = some f → (nextEntry s c).length = 128 → (nextEntry s c).Nodup → i < 16 →
    memVal t.mem (((nextEntry s c).drop (8 * i)).take 8) = (f i).toNat

/-- A migration may be delivered at its destination. -/
structure MigAt (s : State) (m : MigOp) : Prop where
  found : s.migs.find? (fun x => x.id == m.id && x.stage == .toDest) = some m
  only : (s.migs.map (·.id)).Nodup
  serves : (s.core m.dest).serves m.strand.asid = true
  comes : Delivered s m.sent m.src m.dest m.route false
  off : s.ColophonOff m.strand.asid.toNat

/-- A core has no room in a slot for an arriving strand: no slot is free, or an earlier claim of 07 Table 07.1 waits for one. -/
def SlotsClaimed (s : State) (c : Nat) : Prop :=
  (s.core c).freeSlot = none ∨ s.firstClaims c ≠ [] ∨ (s.core c).migQ ≠ [] ∨ (s.core c).spillQ ≠ []

/-- A migration has left the list of those on their way, and of its destination only the named parts have changed. -/
structure Arrived (s t : State) (m : MigOp) : Prop where
  migs : t.migs = s.migs.filter fun x => x.id != m.id
  cores : ∀ c, c ≠ m.dest → t.core c = s.core c
  rest : { t with cores := s.cores, migs := s.migs, mem := s.mem, fresh := s.fresh } = s

/-- Faults that a page-in reply may name (11 R307). -/
def replyFault : List (BitVec 8 × Code) := [(0x06, .addr), (0x09, .prot), (0x0A, .world), (0x10, .memUncorr)]

/-- The strand of a slot has faulted with STALE at an instruction, its region committed, and waits for a holder; its chiplet has
counted the response when one was dropped (11 R310; 04 R103). Loads that were to deliver to its registers may have gone. -/
structure StaleAt (s t : State) (c n : Nat) (p : Strand) (pc : Word) (w : WordId) (v : Stale) : Prop where
  strand : ∃ q, t.strand? c n = some q ∧ q.pc = pc ∧ q.region = [] ∧ q.sdig = foldStores p.sdig p.region ∧ q.ckptDue = true ∧
    q.st = .faulted { code := .stale, sub := 0, deferred := false, word := w, pc := pc, addr := 0 } ∧
    { q with pc := p.pc, region := p.region, sdig := p.sdig, ckptDue := p.ckptDue, retired := p.retired,
             firstStore := p.firstStore, mustCommit := p.mustCommit, walk := p.walk, st := p.st, board := p.board,
             vboard := p.vboard, ckpt := p.ckpt } = p ∧
    { q.ckpt with board := p.ckpt.board, vboard := p.ckpt.vboard } = p.ckpt
  queue : (t.core c).faultQ = (s.core c).faultQ ++ [n]
  count : (t.chip (coreSite c)).stale = (s.chip (coreSite c)).stale + (if v = .dropped then 1 else 0)
  slots : SlotsKept s t c n
  bytes : MemKept s t

/-- What an operation still has to send by a route entry goes by another (14 R334): every request of it that is not performed and
carried the old entry. Nothing else has changed. -/
structure Rerouted (s t : State) (id : Nat) (f : Flight) (new : Word) : Prop where
  loads : ∀ l ∈ t.loads, l.id = id → ∀ u ∈ l.parts, u.done = false → siteFor l.core (firstOf u) = f.dst → f.route ≠ new →
    u.route ≠ f.route
  writes : ∀ w ∈ t.writes, w.id = id → w.route = new
  atoms : ∀ a ∈ t.atoms, a.id = id → a.stage = .toHome ∨ a.stage = .toPas → a.route = new
  sends : ∀ m ∈ t.sends, m.id = id → m.stage = .toDest → m.route = new
  migs : ∀ m ∈ t.migs, m.id = id → m.route = new
  others : (∀ l ∈ s.loads, l.id ≠ id → l ∈ t.loads) ∧ (∀ w ∈ s.writes, w.id ≠ id → w ∈ t.writes) ∧
    (∀ a ∈ s.atoms, a.id ≠ id → a ∈ t.atoms) ∧ (∀ m ∈ s.sends, m.id ≠ id → m ∈ t.sends) ∧ ∀ m ∈ s.migs, m.id ≠ id → m ∈ t.migs
  rest : { t with loads := s.loads, writes := s.writes, atoms := s.atoms, sends := s.sends, migs := s.migs, fresh := s.fresh } = s

/-- The strand that starts at an index of a launch (04 R98, Table 04.5). -/
structure LaunchedAs (s : State) (asid : Nat) (lh : BitVec 32) (i : Nat) (q : Strand) : Prop where
  pc : q.pc = pcOf (s.launch asid lh.toNat).entry
  g : ∀ n, n < 16 → q.getG n = if n = 0 then BitVec.ofNat 64 i else 0
  sid : q.sid = BitVec.ofNat 64 ((s.launch asid lh.toNat).ln.toNat * 2 ^ 32 + i % 2 ^ 32)
  own : q.asid = BitVec.ofNat 12 asid ∧ q.lh = lh ∧ q.lidx = BitVec.ofNat 64 i ∧ q.kind = .launched ∧
    q.sec = (s.ctx asid).sec
  plain : q.pager = false ∧ q.sup = false ∧ q.st = .ready ∧ q.rows = [] ∧ q.region = [] ∧ q.flags = 0 ∧ q.fcnt = 0 ∧
    q.sord = 0 ∧ q.sdig = 0

/-- Of the chiplets only one site's has changed, and of that only its ranges. -/
structure RangesOnly (s t : State) (site : Nat) (rs : List DispRange) : Prop where
  mine : t.chip site = { s.chip site with ranges := rs }
  others : ∀ n, n ≠ site → t.chip n = s.chip n

/-! ### Pre-emption (07 R198 to R204, 14 R328) and the units of a cluster (07 R179; 09; 10 R277 to R281; 11 R287 to R301) -/

/-- No gang of the cluster of a core counts the core among its arrivals, held arrivals or joint members (10 R272). -/
structure Ungang (s : State) (c : Nat) : Prop where
  arrived : ∀ g, g < 4 → ∀ a ∈ (s.gang (coreClu c) g).arrived, a.core ≠ c
  held : ∀ g, g < 4 → ∀ a ∈ (s.gang (coreClu c) g).held, a.core ≠ c
  members : ∀ g, g < 4 → ∀ m ∈ (s.gang (coreClu c) g).members, m.1 ≠ c

/-- A core is back in RUN with what stands in its save area (07 R203, Table 07.9; 04 Table 04.3): the registers, the masks, and of each
strand its SID, DRAW, SDIG and g registers; the scratchpad holds the bytes of the area. -/
structure Resumed (s t : State) (c : Nat) : Prop where
  run : (t.core c).phase = .run ∧ (t.core c).ptr = 0 ∧ (t.core c).inbuf = [] ∧ (t.core c).replies = []
  regs : ∀ n, n < 384 → (t.core c).vreg n = BitVec.ofNat 512 (s.readArea (s.core c).savea (0x10000 + 64 * n) 64)
  masks : ∀ n, 0 < n → n < 8 → (t.core c).mask n = BitVec.ofNat 16 (s.readArea (s.core c).savea (0x800 + 2 * n) 2)
  strands : ∀ n p, n < 64 → s.strand? c n = some p → ∃ q, t.strand? c n = some q ∧ q.latches = [none, none, none] ∧
    (∀ w, p.st = .kept w → q.st = .ready) ∧
    q.sid = BitVec.ofNat 64 (s.readArea (s.core c).savea (0x1000 + 256 * n + 16) 8) ∧
    q.draw = BitVec.ofNat 64 (s.readArea (s.core c).savea (0x1000 + 256 * n + 160) 8) ∧
    q.sdig = BitVec.ofNat 64 (s.readArea (s.core c).savea (0x1000 + 256 * n + 168) 8) ∧
    ∀ i, i < 16 → q.getG i = BitVec.ofNat 64 (s.readArea (s.core c).savea (0x1000 + 256 * n + 32 + 8 * i) 8)
  pad : ∀ o, o < s.coreWin c → ∃ l, s.saveLoc c (0x80000 + o) = some l ∧ memGet t.mem (locCore c o) = memGet s.mem l
  other : ∀ l, (∀ o, o < s.coreWin c → l ≠ locCore c o) → memGet t.mem l = memGet s.mem l

/-- No strand of a core waits. -/
structure Waitless (s : State) (c : Nat) : Prop where
  slots : ∀ e ∈ (s.core c).slots, e.2.wait? = none
  park : ∀ e ∈ (s.core c).park, e.2.strand.wait? = none

/-- Of the clusters only one has changed. -/
def OneCluster (s t : State) (k : Nat) : Prop := ∀ j, j ≠ k → t.clu j = s.clu j

/-- An entry of a matrix queue is the one of its ticket. -/
structure EntryAt (s : State) (c : Nat) (e : MEntry) : Prop where
  found : (s.core c).mtx.queue.find? (fun x => x.ticket == e.ticket) = some e
  only : ((s.core c).mtx.queue.map (·.ticket)).Nodup

/-- Of a core's matrix state only one entry of the queue has changed, and nothing else in the module. -/
structure EntryOnly (s t : State) (c : Nat) (e e' : MEntry) : Prop where
  queue : (t.core c).mtx.queue = (s.core c).mtx.queue.map fun x => if x.ticket = e.ticket then e' else x
  mine : { t.core c with mtx := (s.core c).mtx } = s.core c
  state : { (t.core c).mtx with queue := (s.core c).mtx.queue } = (s.core c).mtx
  rest : { t with cores := s.cores } = s
  others : ∀ k, k ≠ c → t.core k = s.core k

/-- A matrix entry has completed: it has left its queue, ESEQ[2] has advanced, and memory, the strands in slots and the other cores are
as before. -/
structure EntryGone (s t : State) (c : Nat) (e : MEntry) : Prop where
  step : exec (.matrixEntryComplete c e.ticket.toNat) s = .next t
  seq : vget 0 (t.core c).eseq 2 = e.ticket
  others : ∀ n, n ≠ 2 → vget 0 (t.core c).eseq n = vget 0 (s.core c).eseq n
  queue : (t.core c).mtx.queue = (s.core c).mtx.queue.filter fun f => f.ticket != e.ticket
  slots : (t.core c).slots = (s.core c).slots
  cores : ∀ k, k ≠ c → t.core k = s.core k
  bytes : MemKept s t

/-- A weight buffer has been loaded from its source rows and its scale plane (09 R251): 96 rows of 128 bytes, and four rows of the
format's tile N scales, 0x7F without a plane; the codebook stays. -/
structure TileLoaded (s : State) (c : Nat) (old new : WBuf) (wf : MFmt) (src st : Word) (sc : Option Word) : Prop where
  rows : ∀ k, k < 96 → tget 0 new.rows k = BitVec.ofNat 1024 (memVal s.mem (spanLocs c (src + BitVec.ofNat 64 k * st, 128)))
  scales : ∀ j n, j < 4 → n < wf.tileN → tget 0x7F new.scales (256 * j + n) = match sc with
    | some a => memGet s.mem (winBase c (a + BitVec.ofNat 64 (j * wf.tileN + n)))
    | none => 0x7F
  fmt : new.wfmt = wf ∧ new.poison = false
  codebook : new.codebook = old.codebook

/-- A drained cell (09 R256). -/
def drainRule (f : DFmt) (sat : Bool) (v : BitVec 32) : Nat :=
  match f with
  | .f32 => (Fmt.f32.round (fv32 v) .rne sat 0).1
  | .f16 => (Fmt.f16.round (fv32 v) .rne sat 0).1
  | .bf16 => (Fmt.bf16.round (fv32 v) .rne sat 0).1

/-- The next ticket of a class in order has completed with none waiting (09 R258, 11 R288). -/
structure SequenceAt (s t : State) (c cls : Nat) (ticket : Word) : Prop where
  seq : vget 0 (t.core c).eseq cls = ticket
  others : ∀ n, n ≠ cls → vget 0 (t.core c).eseq n = vget 0 (s.core c).eseq n
  bytes : MemKept s t

/-- An engine operation is the one of its number. -/
structure EngAt (s : State) (o : EngOp) : Prop where
  found : s.ops.find? (fun x => x.id == o.id) = some o
  only : (s.ops.map (·.id)).Nodup

/-- An engine operation has been replaced, and nothing else changed. -/
def EngMoved (s t : State) (o o' : EngOp) : Prop :=
  t = { s with ops := s.ops.map fun x => if x.id = o.id then o' else x }

/-- Every byte of a span passes its checks: translated, of the operation's world, permitted, reachable, not stale, not locked, and
without error where it is read (11 Table 11.7); what is written is not replicated. -/
structure SpanClear (s : State) (o : EngOp) (pages : Tbl Got) (src dst : List Word) : Prop where
  reads : ∀ a ∈ src, ∃ l sl r, s.engByte o pages true false a = .ok [l] sl r ∧ s.bad l = false ∧
    s.wayTo (coreSite o.core) (locSite l) = .clear ∧ s.replLocked l = false
  writes : ∀ a ∈ dst, ∃ l sl, s.engByte o pages false true a = .ok [l] sl false ∧ (a ∈ src → s.bad l = false) ∧
    s.wayTo (coreSite o.core) (locSite l) = .clear ∧ s.replLocked l = false

/-- The bytes that a span of a copy moves: each from its source's location to its destination's. -/
def spanCells (s : State) (o : EngOp) (pages : Tbl Got) (pairs : List (Word × Word)) : List Host.Cell :=
  pairs.map fun p => ((s.engByte o pages false true p.2).locs.headD 0, memGet s.mem ((s.engByte o pages true false p.1).locs.headD 0))

/-- Values of the elements of a format in some bytes. -/
def valuesOf (f : EFmt) (n : Nat) (bs : List Byte) : List FV :=
  (List.range (bs.length / n)).map fun i => elemValue f (leNat ((bs.drop (n * i)).take n))

/-- An output of HGEMV from the bytes of x, of its weights and of its scales, and the old value of y (11 R301). -/
def hgemvRule (x : HgemvX) (xs ws sc : List Byte) (old : BitVec 32) : BitVec 32 :=
  let v := hgemvSum x.npc.toNat (valuesOf .bf16 2 xs) (valuesOf (hfmtElem x.wfmt) (hfmtBytes x.wfmt) ws) sc
  if x.acc then addRne v old else v

/-! ### Sites, partitions, power, the Spine (11 R309; 14 R325 to R343; 18) -/

/-- Of the sites only one has changed. -/
structure SiteOnly (s t : State) (n : Nat) (x : Site) : Prop where
  mine : t.site n = x
  others : ∀ m, m ≠ n → t.site m = s.site m

/-- A state with one partition more, in which no core donates. -/
def State.withPartition (s : State) (part : Nat) (chips : List Nat) : State :=
  let p : Partition := { chips := chips, cores := chips.flatMap s.siteCores, donors := [], d := 0, repset := 0 }
  { s with parts := tput (tdel s.parts part) part p }

/-- Of the Spine's record and the sites only what bring-up's start changes (14 R325, 18 R418). -/
def Started (s t : State) (image : FwImage) : Prop :=
  SiteOnly s t spineSite { s.site spineSite with st := .clocked } ∧
    t.spine = { s.spine with powered := true, recovery := false, fw := some image } ∧
    { t with sites := s.sites, spine := s.spine } = s

/-- Frequency of a grade in MHz (00 R5). -/
def gradeRule (g : BitVec 2) : Nat := if g = 0 then 1250 else if g = 1 then 1150 else 1050

/-- A packet at issue in a slot has left it: its queue reads the next position, and has no unfinished packet. -/
structure PacketDone (s t : State) (h : Nat) (w : HwSlot) (x : Queue) (p : Packet) : Prop where
  slot : tfind t.spine.hw h = some { w with fetched := w.fetched.drop 1, timed := none, held := false }
  queue : t.queue? w.queue = some { x with qcb := { x.qcb with readPos := p.pos + 1 }, open_ := [], writing := none }
  rest : { t with mem := s.mem, uncorr := s.uncorr, spine := s.spine, fresh := s.fresh } = s

/-- A packet stands at issue in a slot, with every earlier one of its queue complete and no completion record asked for. -/
structure PacketAt (s : State) (h : Nat) (w : HwSlot) (x : Queue) (p : Packet) (type : Nat) : Prop where
  found : s.atIssue h = some (w, x, p)
  type : p.type = type
  pos : p.pos < 2 ^ 64
  done : x.open_ = []
  quiet : bitsOf (p.fld 0 8) 10 1 = 0
  idle : x.writing = none

/-- A ranged or timed launch has started (18 R409, R410; 11 R303): it has the context's next number and handle and the lowest free
launch slot, and each chiplet of its set the share of its indices. -/
structure LaunchStarted (s t : State) (h n : Nat) (w : HwSlot) (p : Packet) (late : Bool) : Prop where
  launch : ∃ l, tfind (t.ctx w.asid).launches (s.ctx w.asid).nextLh.toNat = some l ∧ l.slot = n ∧
    l.ln = (s.ctx w.asid).nextLn ∧ l.entry = BitVec.ofNat 64 (p.fld 56 8) ∧ l.fault = BitVec.ofNat 64 (p.fld 64 8) ∧
    l.seed = BitVec.ofNat 64 (p.fld 80 8) ∧ l.cap = p.fld 12 1 ∧ l.count = p.fld 8 4 ∧ l.chips = p.chips ∧
    l.queue = w.queue ∧ l.late = late
  numbers : (t.ctx w.asid).nextLn = (s.ctx w.asid).nextLn + 1 ∧ (t.ctx w.asid).nextLh = (s.ctx w.asid).nextLh + 1
  slot : tfind t.spine.hw h = some { w with fetched := w.fetched.drop 1, timed := none, held := false }
  shares : ∀ i l, p.chips[i]? = some l →
    (t.chip (nth 0 (s.partn (s.ctx w.asid).part).chips l)).ranges =
      (s.chip (nth 0 (s.partn (s.ctx w.asid).part).chips l)).ranges ++
        [{ asid := w.asid, lh := (s.ctx w.asid).nextLh, s := (shareRule (p.fld 8 4) p.chips.length i).1,
           n := (shareRule (p.fld 8 4) p.chips.length i).2, out := [], asked := 0, asking := false }]

/-- What a launch packet needs to start at its issue. -/
structure MayLaunch (s : State) (h n : Nat) (w : HwSlot) (x : Queue) (p : Packet) : Prop where
  at_ : s.atIssue h = some (w, x, p)
  check : s.launchCheck x p = 0
  asid : x.asid = w.asid
  slot : (s.ctx w.asid).freeLaunch = some n
  off : s.ColophonOff w.asid
  chips : (s.partn (s.ctx w.asid).part).chips.Nodup

/-- Whether a control block is one that 18 R405 allows. -/
def QcbFits (b : Qcb) : Prop := b.queue < 65536 ∧ 4 ≤ b.n ∧ b.n ≤ 16 ∧ b.prio ≤ 7

/-- Effective priority of a queue that has waited some ns: it gains one level for every 20 µs, never above 1 unless it is 0 (18 R414). -/
def prioRule (p ns : Nat) : Nat := if p = 0 then 0 else p - min (ns / 20000) (p - 1)

/-- The ns that an unmapped runnable queue has waited at an epoch. -/
def waitedRule (s : State) (y : Queue) : Nat := if y.runnable then (s.spine.time - y.since).toNat else 0

/-- The control block of an unmapped queue after a kick: the one that system software wrote before it, when it fits and the queue
is its context's (18 R405). -/
def qcbAfter (s : State) (q : Nat) (x : Queue) : Qcb :=
  match tfind s.spine.blocks q with
  | some (a, b) =>
    if b.queue = q ∧ a = x.asid ∧ (tfind s.ctxs a).isSome = true ∧ q < 65536 ∧ 4 ≤ b.n ∧ b.n ≤ 16 ∧ b.prio ≤ 7 then b else x.qcb
  | none => x.qcb

/-- Locations of a range of a context's memory, each of a page with no replicas and with no replicated write on its way; nor is
one on its way under the number that an agent takes next. -/
structure MapsTo (s : State) (asid : Nat) (a : Word) (ls : List Nat) : Prop where
  locs : s.spineLocs asid a ls.length = ls.map some
  plain : ∀ i, i < ls.length → s.spineRepl asid (a + BitVec.ofNat 64 i) = false
  free : ∀ l ∈ ls, s.settledByte l = memGet s.mem l
  agent : s.agentWriting s.fresh = false
  world : s.spineRangeOk asid a ls.length = true
  distinct : ls.Nodup
  quiet : s.Unwatched

/-- The fields of an attestation report (18 Table 18.5). -/
structure ReportOf (s : State) (f : FwImage) (nonce : BitVec 512) (bits : BitVec 2304) : Prop where
  nonce : bits.extractLsb' 0 512 = nonce
  time : bits.extractLsb' 2048 64 = s.spine.time
  version : bits.extractLsb' 2112 16 = f.version
  reserved : bits.extractLsb' 2128 48 = 0

/-- A timed launch's slot holds its fire time, and whether that time had passed at issue. -/
def timedRule (s : State) (w : HwSlot) (p : Packet) : HwSlot :=
  let fire : Word := BitVec.ofNat 64 (p.fld 96 8)
  { w with timed := some (fire, decide (fire.toNat < s.spine.time.toNat)) }

/-! ### The debugger (19 R422 to R428; 23 R453) -/

/-- A command has been answered, its response the last event. -/
def Responded (t : State) (ok : Bool) (v : Word) : Prop := t.events.getLast? = some (.response ok v)

/-- A command for a core goes to the core itself: no saved image of the attached context waits for it while it does other work (19
R426). -/
def AtHand (s : State) (c : Nat) : Prop :=
  ∀ a m, s.spine.attached = some (a, m) → (s.core c).serves (BitVec.ofNat 12 a) = true ∨
    ∀ v ∈ s.saved, v.stashed = true → v.core = c → v.asid.toNat ≠ a

/-- A command for a core goes to a saved image of the attached context. -/
structure Lent (s : State) (c : Nat) (v : Saved) : Prop where
  attached : ∃ m, s.spine.attached = some (v.asid.toNat, m)
  other : (s.core c).serves v.asid = false
  found : s.saved.find? (fun w => w.stashed && w.core == c && w.asid.toNat == v.asid.toNat) = some v

/-- A stop waits with a saved image. -/
def Asked (s t : State) (v : Saved) (a : StopAsk) : Prop :=
  t.cores = s.cores ∧ { v with image := { v.image with stopAsks := v.image.stopAsks ++ [a] } } ∈ t.saved

/-- Where a core stop takes effect at once: in RUN, not stopping, one strand to a slot. -/
structure Stoppable (s : State) (c dst : Nat) : Prop where
  phase : (s.core c).phase = .run
  dst : wfld (s.core c).dbg 4 2 = dst
  slots : ((s.core c).slots.map (·.1)).Nodup

/-- A core stops (19 R425): its strands stop but for message handlers and their fault handlers, and it is STOPPED when no message
handler runs. -/
structure CoreStopped (s t : State) (c : Nat) : Prop where
  strands : ∀ n p, s.strand? c n = some p → t.strand? c n = some { p with stopped := p.stopped || !(s.core c).runsOn n p }
  state : wfld (t.core c).dbg 4 2 = if (s.core c).handling then 1 else 2

/-- A strand of a slot that the debugger has stopped, on a core in RUN, where no other strand in a slot has its SID. -/
structure StoppedAt (s : State) (c n : Nat) (p : Strand) : Prop where
  phase : (s.core c).phase = .run
  here : AtHand s c
  found : s.strand? c n = some p
  stopped : p.stopped = true
  only : ∀ e ∈ (s.core c).slots, e.2.sid = p.sid → e = (n, p)
  slots : ((s.core c).slots.map (·.1)).Nodup

/-- It holds a BREAK or a TRAP for the debugger. -/
def HoldsTrap (s : State) (c n : Nat) (p : Strand) : Prop :=
  (∃ f, p.st = .faulted f ∧ (f.code = .brk ∨ f.code = .trap)) ∧ n ∉ (s.core c).faultQ

/-- An answered command leaves a strand of a slot in a given state, and the strands of other SIDs and the other cores as they were. -/
structure Leaves (s t : State) (c n : Nat) (sid : Word) (p : Strand) : Prop where
  mine : t.strand? c n = some p
  others : ∀ k q, s.strand? c k = some q → q.sid ≠ sid → t.strand? c k = some q
  cores : ∀ d, d ≠ c → t.core d = s.core d
  answer : Responded t true 0

/-- A step that answers a command and changes one strand. -/
def Sets (i : Instr) (s : State) (c n : Nat) (sid : Word) (p : Strand) : Prop :=
  ∃ t, exec i s = .next t ∧ Leaves s t c n sid p

/-- A step that answers a command with a refusal and changes nothing. -/
def Refuses (i : Instr) (s : State) : Prop := exec i s = .next (s.respond false 0)

/-- The first `n` records of a lane from its DP. -/
def laneRecords (s : State) (a lane n : Nat) : List (BitVec 256) :=
  (List.range n).map fun i => BitVec.ofNat 256 (memVal s.mem (s.recordLocs a lane ((s.laneOf a lane).q.toNat + i)))

/-! ### The fabric (23) -/

/-- A packet that comes to a link chiplet of its own incarnation, with its queue pair resident and nothing waiting before it. -/
structure ReachesLink (s : State) (link : Nat) (p : FabReq) (q : Qp) : Prop where
  qp : tfind s.qps p.qp = some q
  free : ∀ x ∈ (s.link link).reqs, x.qp ≠ p.qp
  staged : ∀ x ∈ (s.link link).staged, x.qp ≠ p.qp
  inc : p.inc = s.linkInc link
  resident : q.resident = true
  used : p.qp ∈ (s.link (qpLink p.qp)).lru
  single : p.first = true ∧ p.last = true
  turn : p.seq = q.nextRecv
  port : ((s.link (qpLink p.qp)).port q.port.toNat).st = 2

/-- Index of the memory region of a key. -/
def keyIndex (key : BitVec 32) : Nat := key.toNat / 2 ^ 8

/-- What lets a request of one packet in at its target (23 R465): queue pair, region, generation, owner, bounds, right, and
memory that no replica write locks. -/
structure LetIn (s : State) (link : Nat) (p : FabReq) (q : Qp) (r : MemRegion) (ls : List Nat) : Prop where
  reach : ReachesLink s link p q
  state : q.st = .rts ∨ q.st = .error
  peer : q.rmod.toNat = p.rmod ∧ q.rqp.toNat = p.rqp
  region : r = s.memRegion (keyIndex p.key)
  valid : r.st = .valid ∧ r.gen.toNat = p.key.toNat % 2 ^ 8
  owner : r.asid = q.asid ∧ r.sec = q.sec
  bounds : p.off + p.opLen ≤ r.len ∧ s.rangeValid r.asid.toNat (r.base + BitVec.ofNat 64 p.off) p.opLen = true
  maps : MapsTo s r.asid.toNat (r.base + BitVec.ofNat 64 p.off) ls
  cache : ∀ a, s.linkXlate link r.asid.toNat a = s.spineXlate r.asid.toNat a
  unlocked : ∀ l ∈ ls, s.replLocked l = false
  good : ∀ l ∈ ls, s.bad l = false
  fresh : ∀ a ∈ (s.link link).admitted, a.has p = false

/-- A remote operation that runs and waits for responses, with the queue pair that it uses. -/
structure Posted (s : State) (o : EngOp) (op : RmaOp) (a off : Word) (key : BitVec 32) (qp len : Nat) (y f : Bool) (q : Qp) : Prop where
  found : s.ops.find? (fun b => b.id == o.id) = some o
  one : ∀ b ∈ s.ops, b.id = o.id → b = o
  body : o.body = .rma op a off key qp len y f
  running : o.st = .running
  runs : s.opRuns o = true
  walk : o.walk = none
  landed : s.opWriting o = false
  sent : o.arrived ≠ none
  qp : tfind s.qps qp = some q

/-- The answer to a packet leaves by the port of its queue pair, with its link chiplet's INC (23 R465, R469). -/
def answerRule (s : State) (link : Nat) (p : FabReq) (q : Qp) (status : BitVec 8) (data : List Byte) : HostEvent :=
  .fabric (qpLink p.qp) q.port.toNat p.rmod
    (.rsp { id := p.opId, qp := p.rqp, inc := s.linkInc link, status := status, off := p.off, data := data })

/-- What a remote operation has taken of a response of status 0 that it had not had: it has ended when each of its packets has been
answered (23 R462). -/
def tookRule (s : State) (o : EngOp) (rsp : FabRsp) : EngOp :=
  let all := ∀ p ∈ s.packets o, p.off = rsp.off ∨ p.off ∈ o.got
  { o with pages := [], got := rsp.off :: o.got,
           pos := o.pos + (((s.packets o).find? fun p => p.off == rsp.off).map (·.len)).getD 0,
           st := if all then .ended else .running, status := if all then 0 else o.status }

/-- A post's turn has come (23 R463): every earlier post of its queue pair has started, or completed when it has FENCE, and the queue
pair, if it is its context's, is resident and not backing off (23 R467). -/
structure PostTurn (s : State) (o : EngOp) (qp : Nat) (fence : Bool) : Prop where
  at_ : EngAt s o
  queued : o.st = .queued
  runs : s.opRuns o = true
  walk : o.walk = none
  before : ∀ e ∈ s.earlierPosts o, e.arrived ≠ none ∨ e.st = .ended
  fenced : fence = true → s.earlierPosts o = []
  ready : ∀ q, tfind s.qps qp = some q → q.asid.toNat = o.asid → q.resident = true ∧ q.backoff = false

/-- Local addresses that a post reads, and those that it writes (23 R462). -/
def postReads (op : RmaOp) (a : Word) (len : Nat) : List Word :=
  (List.range (match op with | .write => len | .read => 0 | .fadd => 8 | .cas => 16)).map fun i => a + BitVec.ofNat 64 i

/-- And those that it writes. -/
def postWrites (op : RmaOp) (a : Word) (len : Nat) : List Word :=
  (List.range (match op with | .write => 0 | .read => len | .fadd => 8 | .cas => 8)).map fun i => a + BitVec.ofNat 64 i

/-- A post of a queue pair of its context passes its local checks (23 Table 23.6). -/
structure PostChecked (s : State) (o : EngOp) (op : RmaOp) (a : Word) (len qp : Nat) (q : Qp) : Prop where
  some_ : 0 < len
  pair : tfind s.qps qp = some q
  mine : q.asid.toNat = o.asid
  aligned : (op = .fadd → a.toNat % 8 = 0) ∧ (op = .cas → a.toNat % 16 = 0)
  window : ∀ x ∈ postReads op a len ++ postWrites op a len, wfld x 56 8 ∈ [0x00, 0xF0, 0xF1, 0xF2]
  reads : ∀ x ∈ postReads op a len, ∃ l b r,
    s.engByte o (s.engPages o (postReads op a len ++ postWrites op a len)) true false x = .ok l b r
  writes : ∀ x ∈ postWrites op a len, ∃ l b r,
    s.engByte o (s.engPages o (postReads op a len ++ postWrites op a len)) false true x = .ok l b r
  sync : s.syncReady o = true

/-- The byte that an engine reads at an address of a span. -/
def spanByte (s : State) (o : EngOp) (pages : Tbl Got) (a : Word) : Byte :=
  memGet s.mem ((s.engByte o pages true false a).locs.headD 0)

/-- A post has been sent (23 R462, R457): its bytes are read, its packets take the next numbers of the queue pair, are cut at each
4 KiB of the region offset, and leave by the queue pair's port. -/
structure PostSent (s t : State) (o : EngOp) (op : RmaOp) (a off : Word) (key : BitVec 32) (qp len : Nat) (q : Qp)
    (ps : List FabReq) : Prop where
  taken : t.ops = s.ops.map fun x => if x.id = o.id then { o with
    st := .running, arrived := some 0, pages := [], seq := q.nextSend,
    data := (postReads op a len).map (spanByte s o (s.engPages o (postReads op a len ++ postWrites op a len))) } else x
  events : t.events = s.events ++ ps.map fun p => .fabric (qpLink qp) q.port.toNat q.rmod.toNat (.req p)
  pair : tfind t.qps qp = some { q with nextSend := q.nextSend + BitVec.ofNat 64 ps.length }
  each : ∀ i p, ps[i]? = some p → p.op = op ∧ p.rmod = s.spine.modNum.toNat ∧ p.rqp = qp ∧ p.qp = q.rqp.toNat ∧ p.inc = q.inc ∧
    p.opId = o.id ∧ p.key = key ∧ p.opLen = len ∧ p.seq = q.nextSend + BitVec.ofNat 64 i ∧ p.len ≤ 4096 - p.off % 4096 ∧
    p.first = decide (i = 0) ∧ p.last = decide (p.off + p.len = off.toNat + len) ∧
    (op = .write → p.data = (((postReads op a len).map
      (spanByte s o (s.engPages o (postReads op a len ++ postWrites op a len)))).drop (p.off - off.toNat)).take p.len)
  whole : len ≤ 2 ^ 24 → (ps.map (·.len)).sum = len

/-- The operations with one of a given number changed. -/
def withOp (s : State) (id : Nat) (o : EngOp) : List EngOp := s.ops.map fun b => if b.id = id then o else b

/-- Of the links only one has changed. -/
def OneLink (s t : State) (l : Nat) (k : Link) : Prop := t.link l = k ∧ ∀ m, m ≠ l → t.link m = s.link m

/-- Of the ports only one has changed. -/
def OnePort (s t : State) (l n : Nat) (x : Port) : Prop :=
  OneLink s t l { s.link l with ports := tput (s.link l).ports n x } ∧ { t with links := s.links, events := s.events } = s

/-- Whether the packets of a queue pair leave by a port (23 R456): its own port of its own link, or the exit of the route to the
module that it names. -/
def LeavesBy (s : State) (qp : Nat) (q : Qp) (l n : Nat) : Prop :=
  (qp / 2 ^ 20 % 16 = l ∧ q.port.toNat = n) ∨
    (wfld (tget 0 s.spine.froute q.rmod.toNat) 4 4 = l ∧ wfld (tget 0 s.spine.froute q.rmod.toNat) 0 2 = n)

/-- The record of a new memory region. -/
def regionRule (s : State) (a : Nat) (base : Word) (len : Nat) (rr rw ra : Bool) (gen : BitVec 8) : MemRegion :=
  { asid := BitVec.ofNat 12 a, sec := (s.ctx a).sec, base := base, len := len, rr := rr, rw := rw, ra := ra, gen := gen,
    st := .valid, drain := 0, toApply := [] }

/-- What the revoke of a region that is valid leaves (23 R468). -/
def revokedRule (s : State) (r : MemRegion) : MemRegion :=
  let st : RegionState := if r.drain = 0 ∧ s.liveLinks = [] then .free else .draining
  { r with gen := r.gen + 1, toApply := s.liveLinks, st := st }

/-- What a revoke point of a link chiplet leaves of a region (23 R468). -/
def appliedRule (r : MemRegion) (l : Nat) : MemRegion :=
  let left := r.toApply.filter (· != l)
  let st : RegionState := if r.st = .draining ∧ r.drain = 0 ∧ left = [] then .free else r.st
  { r with toApply := left, st := st }

/-- A queue pair that has been connected (23 R459). -/
def connected (q : Qp) (rmod : BitVec 8) (rqp : BitVec 24) (inc : BitVec 8) : Qp :=
  { q with st := .rts, rmod := rmod, rqp := rqp, inc := inc, nextSend := 0, nextRecv := 0, backoff := false }

/-! ### Fetch and decode (00 R12; 01 R17 to R20, R38) -/

/-- The next step runs a member of the open issue group, a strand that issues in its slot. -/
structure Member (s : State) (c sl : Nat) (rest : List (Nat × Nat)) (p : Strand) : Prop where
  issuing : s.issuing = (c, sl) :: rest
  found : s.strand? c sl = some p
  st : p.st = .issuing

/-- The state in which a member executes. -/
def State.entered (s : State) (c sl : Nat) (rest : List (Nat × Nat)) : State := { s with issuing := rest, cur := (c, sl) }

/-- A translation of the PC stands in the TLB of the core's cluster (10 R277). -/
structure Translated (s : State) (c : Nat) (p : Strand) (e : TlbEntry) : Prop where
  window : p.pc.toNat < 2 ^ 55
  entry : (s.clu (c / 4)).tlb.find? (fun e => e.hits p.asid p.sec p.pc) = some e

/-- Its page is executable, and it and the granules of its bytes are of the strand's world (01 R38, step 1; 18 R417). -/
structure Executable (s : State) (c : Nat) (p : Strand) (e : TlbEntry) : Prop where
  translated : Translated s c p e
  exec : e.pte.getLsbD 4 = true
  world : e.pte.getLsbD 6 = p.sec
  granules : ∀ l ∈ s.blockLocs c e p.pc, s.worldOk p.sec l = true

/-- Its bytes from the PC to the end of the fetch block come from a cached line (01 R18, R20; 07 R179). -/
structure Fetches (s : State) (c : Nat) (p : Strand) (bs : List Byte) : Prop where
  page : ∃ e, Executable s c p e ∧ s.routable (coreSite c) (locSite ((s.blockLocs c e p.pc).headD 0)) = true ∧
    ∀ l ∈ s.blockLocs c e p.pc, s.bad l = false
  line : ∃ line, tfind (s.clu (c / 4)).icache (p.pc.toNat / 64) = some line ∧
    bs = ((leBytes 64 line.toNat).drop (p.pc.toNat % 64)).take (32 - p.pc.toNat % 32)

/-- Number of functions that the opcode map gives a MAJ, its FN from 00 up; 0 for an unassigned MAJ (02 Table 02.1). -/
def fnCount (maj : Nat) : Nat :=
  match maj with
  | 0x01 => 14 | 0x02 => 7 | 0x03 => 8 | 0x04 => 6 | 0x05 => 1 | 0x06 => 4
  | 0x20 => 8 | 0x21 => 5 | 0x22 => 1 | 0x23 => 1 | 0x24 => 8 | 0x25 => 1 | 0x26 => 1 | 0x27 => 1
  | 0x30 => 1 | 0x31 => 1 | 0x32 => 1 | 0x33 => 1 | 0x34 => 1 | 0x35 => 10 | 0x36 => 1 | 0x37 => 1
  | 0x38 => 1 | 0x39 => 1 | 0x3A => 1 | 0x3B => 1 | 0x3C => 1 | 0x3D => 1 | 0x3E => 3
  | 0x50 => 2 | 0x51 => 5 | 0x52 => 3 | 0x53 => 2 | 0x54 => 2
  | 0x60 => 12 | 0x61 => 6 | 0x62 => 7 | 0x63 => 4 | 0x64 => 2
  | 0x80 => 4 | 0x81 => 2 | 0x82 => 6
  | 0x90 => 1 | 0x91 => 1 | 0x92 => 1 | 0x93 => 1 | 0x94 => 1 | 0x95 => 1 | 0x96 => 1
  | 0xA0 => 1 | 0xA1 => 2 | 0xA2 => 2 | 0xA3 => 2 | 0xA4 => 1
  | 0xB0 => 1 | 0xB1 => 1 | 0xB2 => 1 | 0xB3 => 1 | 0xB4 => 1 | 0xB5 => 1
  | 0xC0 => 1 | 0xC1 => 1
  | 0xD0 => 1 | 0xD1 => 1
  | _ => 0

/-- The operands of most instructions of the worked encodings: no mask, no operand. -/
def plainOps (len : Len) : Ops := { len := len, m := 0, d := .none, a := .none, b := .none, c := .none }

/-- What a step at a member leaves when its fetch raises a fault: the fault is the member's (01 R38). -/
def Raises (s : State) (c sl : Nat) (rest : List (Nat × Nat)) (w : WordId) (code : Code) (sub : Nat) (addr : Word) : Prop :=
  step s = .next ((s.entered c sl rest).raiseAt w code sub addr)

end Sys2Proof.Machine

section Statements

open Sys2Proof Sys2Proof.Machine

/-- The integer arithmetic and logic instructions complete with the results of 05 R119 and R121. -/
def Obligations.IntegerResults : Prop :=
  ∀ (i : Instr) (s : State) (o : Ops) (v : Word), s.Calm → integerRule s i = some (o, v) →
    o.regsExist s.me.nreg = true → ∃ t, exec i s = .next t ∧ ScalarDone s t o o.d v

/-- The bit instructions complete with the results of 05 Table 05.4.

Compares, selects, moves, address formation and RDTIME complete with the results of 05 R124, R125 and R140. -/
def Obligations.BitAndMoveResults : Prop :=
  (∀ (i : Instr) (s : State) (o : Ops) (P : Word → Prop), s.Calm → bitRule s i = some (o, P) →
    o.regsExist s.me.nreg = true → ∃ t v, exec i s = .next t ∧ P v ∧ ScalarDone s t o o.d v) ∧
  (∀ (i : Instr) (s : State) (o : Ops) (v : Word), s.Calm → moveRule s i = some (o, v) →
    o.regsExist s.me.nreg = true → ∃ t, exec i s = .next t ∧ ScalarDone s t o o.d v)

/-- The transfers complete as 05 Table 05.6 says; an indirect one when its target is aligned (05 R127). -/
def Obligations.TransferResults : Prop :=
  ∀ (i : Instr) (s : State) (x : Transfer), s.Calm → transferRule s i = some x → x.ops.regsExist s.me.nreg = true →
    ((indirectFn i).isSome = true → x.dest.toNat % 4 = 0) → ∃ t, exec i s = .next t ∧ TransferDone s t x

/-- JMPI, CALLI and RET of a misaligned target raise ALIGN with it, and write nothing (05 R127).

TRAP, BRK and SVC raise their faults precisely, with no debugger attached (05 R131).

An instruction that names a g register above 15, a mask register above 7 or a vector register outside the allotment
raises REG_ALLOT, whatever it is (01 R24, R25, R38 step 8).

A handler strand that attempts an instruction it is barred from raises HANDLER_WAIT at it (04 R101).

A scalar access that fails a check raises the fault that the check names, precisely, with the address it names, and
does nothing else (06 R154, Table 06.5; 04 R109).

That HANDLER_WAIT stands ahead of the other checks of SPAWN, RVJOIN, RVWAIT and WAITCHG is the model's reading (log 24), and so is
that a VGROW above 11 blocks is left out of it (log 22). -/
def Obligations.PreciseFaults : Prop :=
  (∀ (i : Instr) (s : State) (o : Ops) (fn : Nat), s.Calm → s.me.region = [] → indirectFn i = some (o, fn) →
    o.regsExist s.me.nreg = true → (s.val o.a).toNat % 4 ≠ 0 →
    ∃ t, exec i s = .next t ∧ Trapped s t (s.faultHere 0x21 fn o .align 0 (s.val o.a))) ∧
  (∀ (i : Instr) (s : State) (o : Ops) (fn : Nat) (code : Code) (sub : Nat) (addr : Word), s.Calm → s.me.region = [] →
    s.spine.attached = none → trapRule i = some (o, fn, code, sub, addr) → o.regsExist s.me.nreg = true →
    ∃ t, exec i s = .next t ∧ Trapped s t (s.faultHere 0x24 fn o code sub addr)) ∧
  (∀ (i : Instr) (s : State) (f : Shape), s.Calm → s.me.region = [] → s.me.sup = true → s.me.pager = true →
    i.shape = some f → f.ops.regsExist s.me.nreg = false →
    ∃ t, exec i s = .next t ∧
      Trapped s t { code := .regAllot, sub := 0, deferred := false, word := wordIdOfInstr i f.ops, pc := s.me.pc, addr := 0 }) ∧
  (∀ (i : Instr) (s : State) (o : Ops), s.Calm → s.me.region = [] → s.me.handler = true → handlerBarred s i = some o →
    o.regsExist s.me.nreg = true →
    ∃ t, exec i s = .next t ∧
      Trapped s t { code := .handlerWait, sub := 0, deferred := false, word := wordIdOfInstr i o, pc := s.me.pc, addr := 0 }) ∧
  (∀ (i : Instr) (s : State) (x : Touch) (maj : Nat) (code : Code) (sub : Nat) (a : Word), s.Calm → s.me.region = [] →
    ((∃ w sgn m o, (i = .ld w sgn m o ∨ i = .ldAcq w sgn m o) ∧ maj = 0x30) ∨ (∃ m o, i = .ldq m o ∧ maj = 0x31) ∨
      (∃ w m o, (i = .st w m o ∨ i = .stRel w m o) ∧ maj = 0x32) ∨ (∃ m o, i = .stq m o ∧ maj = 0x33)) →
    ((loadRule s i).map (·.1) = some x ∨ (storeRule s i).map (·.1) = some x) → x.ops.regsExist s.me.nreg = true →
    s.checks x.need x.ea x.size = .fault code sub a →
    ∃ t, exec i s = .next t ∧ Trapped s t (s.faultHere maj 0 x.ops code sub a))

/-- RET and JMPI have the same effect on all that programs see; the return is counted and marked (05 R128). -/
def Obligations.ReturnIsJump : Prop :=
  ∀ (s : State) (o : Ops), s.Calm → o.regsExist s.me.nreg = true → (s.val o.a).toNat % 4 = 0 →
    ∃ t u, exec (.ret o) s = .next t ∧ exec (.jmpi o) s = .next u ∧
      { t.me with lastRet := u.me.lastRet, word := u.me.word } = u.me ∧ t.me.lastRet = true ∧ u.me.lastRet = false ∧
      OnlyStrand s t ∧ OnlyStrand s u ∧
      ∀ n, n < 16 → vget 0 t.myCore.perf n =
        vget 0 u.myCore.perf n + if n = 10 ∧ s.myCore.counting = true then 1 else 0

/-- NOP does nothing but retire (05 Table 05.7).

RCOMMIT, PAUSE and YIELD commit the open region and retire (05 R131 to R133, 06 R157).

FENCE and FENCEP commit the open region, and retire when what they wait for is performed; else they issue again (06
R161, R162). -/
def Obligations.CommitInstructions : Prop :=
  (∀ (s : State) (o : Ops), s.Calm → o.regsExist s.me.nreg = true →
    ∃ t, exec (.nop o) s = .next t ∧ ScalarDone s t o .none 0) ∧
  (∀ (i : Instr) (s : State) (o : Ops) (p : Option Word) (y : Option YieldHold), s.Calm → s.Unwatched →
    commitRule s i = some (o, p, y) → o.regsExist s.me.nreg = true →
    ∃ t, exec i s = .next t ∧ CommitRetired s t o p y) ∧
  (∀ (i : Instr) (s : State) (o : Ops) (P : State → Prop), s.Calm → s.Unwatched →
    (∀ t, fenceRule s t i = some (o, P t)) → o.regsExist s.me.nreg = true →
    ∃ t, exec i s = .next t ∧ CommitDone s t ∧
      (P t → t.me.pc = s.me.pc + toWord o.len.bytes ∧ t.me.st = .ready) ∧
      (¬ P t → t.me.pc = s.me.pc ∧ t.me.st = .waiting .retry))

/-- RDSYS of a register of the strand (02 Table 02.3), ESEQ by class among them.

RDSYS of a supervisor register by a strand with SUP at an index that the register accepts completes with the register's content
(02 R46, R47); what that is of the registers that `supervisorRule` names, their tables say.

WRSYS of a supervisor register by a strand with SUP commits the region and retires (04 R103): FDIS takes bit 0, TLBTREE its defined
bits while no shoot-down stands in the mailbox, SAVEA an aligned address in HBM4E while no context is assigned, CBD a word of a
descriptor with no claim open; every other write is discarded (07 R195, R197; 10 R283).

WRSYS of FLAGS keeps the seven defined bits, and WRSYS of RMODE discards a reserved code (03 R71, R72).

RDSYS and WRSYS of a register at or above 0x100 by a strand without SUP raise PROT before the registers are looked at
(02 R44, 01 R38). -/
def Obligations.SystemRegisters : Prop :=
  (∀ (num : BitVec 12) (o : Ops) (s : State) (v : Word), s.Calm → strandRegRule s num.toNat = some v →
    o.regsExist s.me.nreg = true → ∃ t, exec (.rdsys num o) s = .next t ∧ ScalarDone s t o o.d v) ∧
  (∀ (o : Ops) (s : State), s.Calm → o.regsExist s.me.nreg = true → (s.val o.a).toNat < 8 →
    ∃ t, exec (.rdsys 0x010 o) s = .next t ∧ ScalarDone s t o o.d (vget 0 s.myCore.eseq (s.val o.a).toNat)) ∧
  (∀ (num : BitVec 12) (o : Ops) (s : State) (i : Nat), s.Calm → s.me.sup = true → 0x100 ≤ num.toNat → IndexOf s num o i →
    o.regsExist s.me.nreg = true → ∃ t v, exec (.rdsys num o) s = .next t ∧ ScalarDone s t o o.d v ∧
      v = ((s.startInstr 0x25 0 o.len).modMe fun p => { p with latches := p.latched o }).readSys num i ∧ ∀ w, supervisorRule s i num.toNat = some w → v = w) ∧
  (∀ (num : BitVec 12) (o : Ops) (s : State) (i : Nat), s.Calm → s.Unwatched → s.me.sup = true → 0x100 ≤ num.toNat →
    IndexOf s num o i → o.regsExist s.me.nreg = true →
    ∃ t, exec (.wrsys num o) s = .next t ∧ CommittedAnd s (t.withSupervisor s) o ∧
      t.myCore.fdis = (if num = 0x109 then (s.val o.b).getLsbD 0 else s.myCore.fdis) ∧
      (∀ n, n < 5 → vget 0 (t.clu (coreClu s.cur.1)).tree n =
        if num = 0x201 ∧ (s.clu (coreClu s.cur.1)).mailbox = [] ∧ n = i then s.val o.b &&& 0x7FFFF
        else vget 0 (s.clu (coreClu s.cur.1)).tree n) ∧
      { t.clu (coreClu s.cur.1) with tree := (s.clu (coreClu s.cur.1)).tree } = s.clu (coreClu s.cur.1) ∧
      (∀ k, k ≠ coreClu s.cur.1 → t.clu k = s.clu k) ∧
      t.myCore.savea = (if num = 0x103 ∧ s.myCore.ctxv = false ∧ inHbm (wfld (s.val o.b) 22 33 * 2 ^ 22) (2 ^ 22) = true then
        toWord (wfld (s.val o.b) 22 33 * 2 ^ 22) else s.myCore.savea) ∧
      ∀ n, n < 16 → t.myCore.cb n =
        if num = 0x100 ∧ n = i / 4 ∧ (s.myCore.cb n).claims = (s.myCore.cb n).fills then
          (s.myCore.cb n).setWord (i % 4) (s.val o.b)
        else s.myCore.cb n) ∧
  (∀ (o : Ops) (s : State), s.Calm → o.regsExist s.me.nreg = true →
    (∃ t, exec (.wrsys 0x007 o) s = .next t ∧ t.me.flags = (s.val o.b).setWidth 16 &&& 0x7F ∧
      ScalarDone s (t.modMe fun p => { p with flags := s.me.flags }) o .none 0) ∧
    (∃ t, exec (.wrsys 0x008 o) s = .next t ∧
      t.me.rmode = (if (s.val o.b).toNat ≤ 4 then (s.val o.b).setWidth 3 else s.me.rmode) ∧
      ScalarDone s (t.modMe fun p => { p with rmode := s.me.rmode }) o .none 0)) ∧
  (∀ (num : BitVec 12) (o : Ops) (s : State), s.Calm → s.me.region = [] → s.me.sup = false → 0x100 ≤ num.toNat →
    (∃ t, exec (.rdsys num o) s = .next t ∧ Trapped s t (s.faultHere 0x25 0 o .prot 0 0)) ∧
    (∃ t, exec (.wrsys num o) s = .next t ∧ Trapped s t (s.faultHere 0x26 0 o .prot 0 0)))

/-- A scalar load that passes its checks issues and retires; its value returns later (06 R146, R151, R152).

JTAB falls through at or above its count; below it, it loads its entry and waits for it (05 R130). -/
def Obligations.ScalarLoads : Prop :=
  (∀ (i : Instr) (s : State) (x : Touch) (acq : Bool) (dest : LoadDest) (ps : List Piece), s.Calm →
    loadRule s i = some (x, acq, dest) → x.ops.regsExist s.me.nreg = true →
    s.checks x.need x.ea x.size = .ok ps →
    ∃ t, exec i s = .next t ∧ LoadIssued s t x.ops acq dest ps ∧
      RetiredAt s.me t.me (s.me.pc + toWord x.ops.len.bytes) ∧ Counted s.myCore t.myCore [(2, 1)]) ∧
  (∀ (tbl cnt : BitVec 32) (o : Ops) (s : State), s.Calm → o.regsExist s.me.nreg = true →
    (cnt.toNat ≤ (s.val o.a).toNat →
      ∃ t, exec (.jtab tbl cnt o) s = .next t ∧ RetiredAt s.me t.me (s.me.pc + 16) ∧ s.me.Wrote t.me .none 0 ∧
        StrandKept s.me t.me ∧ OnlyStrand s t) ∧
    (∀ ps, (s.val o.a).toNat < cnt.toNat →
      s.checks Need.load (pcRelative s tbl + 4 * s.val o.a) 4 = .ok ps →
      ∃ t, exec (.jtab tbl cnt o) s = .next t ∧
        (∃ l, t.loads = s.loads ++ [l] ∧ l.dest = .table (pcRelative s tbl) ∧ l.own = s.me.own ∧ PartsOf s l.parts ps ∧
          t.me.st = .waiting (.table l.id)) ∧
        t.me.pc = s.me.pc ∧ s.me.Wrote t.me .none 0 ∧ ∀ l, memGet t.mem l = memGet s.mem l))

/-- A scalar store to a page that is not SO enters the open region and retires (06 R151); ST.rel commits the region and is
handed to memory at once (06 R152). -/
def Obligations.ScalarStores : Prop :=
  ∀ (i : Instr) (s : State) (x : Touch) (v : Nat) (rel : Bool) (ps : List Piece), s.Calm → s.Unwatched →
    storeRule s i = some (x, v, rel) → x.ops.regsExist s.me.nreg = true →
    s.checks x.need x.ea x.size = .ok ps →
    (rel = false → (∀ p ∈ ps, p.ord ≠ .so) → regionEntries s.me.region + pagesOf ps ≤ 64 →
      ∃ t, exec i s = .next t ∧ StoreBuffered s t (cellsOf (reached ps) v) ∧
        RetiredAt s.me t.me (s.me.pc + toWord x.ops.len.bytes)) ∧
    (rel = true ∨ (∃ p ∈ ps, p.ord = .so) → s.me.region = [] →
      ∃ t, exec i s = .next t ∧ StoreHanded s t x.ea x.size v rel (cellsOf (reached ps) v) ∧
        t.me.pc = s.me.pc + toWord x.ops.len.bytes ∧ t.me.st = .ready)

/-- VLD and VGATH issue a load of their enabled lanes and retire (08 R226, R227).

VST and VSCAT buffer the enabled lanes, each at its address, and retire (08 R228). -/
def Obligations.VectorAccesses : Prop :=
  (∀ (i : Instr) (s : State) (o : Ops) (ea : Nat → Word) (ps : Nat → List Piece), s.Calm →
    laneAddress s i = some (o, ea) → laneLoads i = true → o.regsExist s.me.nreg = true → (∃ n, o.d = .v n) →
    StreamsReady s o → UndoRoom s → enabled (s.maskOf o) ≠ [] →
    (∀ k ∈ enabled (s.maskOf o), s.checks Need.load (ea k) 4 = .ok (ps k)) →
    ∃ t, exec i s = .next t ∧
      LoadIssued s t o false (.lanes o.d.ix (enabled (s.maskOf o)))
        ((enabled (s.maskOf o)).flatMap ps) ∧
      t.me.pc = s.me.pc + toWord o.len.bytes ∧ t.me.st = .ready) ∧
  (∀ (i : Instr) (s : State) (o : Ops) (ea : Nat → Word) (ps : Nat → List Piece), s.Calm →
    laneAddress s i = some (o, ea) → laneLoads i = false → o.regsExist s.me.nreg = true → s.streamUse s.cur.1 s.me o.vsrcs = .ready →
    enabled (s.maskOf o) ≠ [] → regionEntries s.me.region ≤ 48 →
    (∀ k ∈ enabled (s.maskOf o), s.checks Need.store (ea k) 4 = .ok (ps k) ∧ ∀ p ∈ ps k, p.ord ≠ .so) →
    ∃ t, exec i s = .next t ∧
      StoreBuffered s t
        ((enabled (s.maskOf o)).flatMap fun k => cellsOf (reached (ps k)) (lane (s.vec o.b) k).toNat) ∧
      t.me.pc = s.me.pc + toWord o.len.bytes ∧ t.me.st = .ready)

/-- The lane-wise integer instructions, moves and permutes, FMIN, FMAX and BSCALE DERIVE complete with the lanes that 08 gives
(08 R210, R214, R216, R218, R223).

VCMP and MLOG complete with the mask that 08 R211 and R212 give; m0 keeps reading 0xFFFF. -/
def Obligations.LaneAndMaskResults : Prop :=
  (∀ (i : Instr) (s : State) (o : Ops) (f : Nat → BitVec 32), s.Calm → laneRule s i = some (o, f) →
    o.regsExist s.me.nreg = true → (∃ n, o.d = .v n) → StreamsReady s o → UndoRoom s →
    ∃ t, exec i s = .next t ∧ LanesDone s t o f s.fpAcc) ∧
  (∀ (i : Instr) (s : State) (o : Ops) (f : Nat → Bool), s.Calm → maskRule s i = some (o, f) →
    o.regsExist s.me.nreg = true → (∃ n, o.d = .m n) → s.streamUse s.cur.1 s.me o.vsrcs = .ready → UndoRoom s →
    (∀ ma mb op, i = .mlog op ma mb o → o.vsrcs = []) →
    ∃ t, exec i s = .next t ∧ MaskDone s t o f)

/-- The rounding instructions complete with each enabled lane rounded in turn, lane 0 first, the FLAGS sticky and a draw for
each stochastic rounding (03 R70 to R78; 08 R217, R219, R220, R223). -/
def Obligations.RoundedLaneResults : Prop :=
  ∀ (i : Instr) (s : State) (o : Ops) (f : Nat → FpAcc → BitVec 32 × FpAcc), s.Calm → roundRule s i = some (o, f) →
    o.regsExist s.me.nreg = true → (∃ n, o.d = .v n) → StreamsReady s o → UndoRoom s →
    ∃ t, exec i s = .next t ∧
      LanesDone s t o (fun k => (f k (lanesBefore (s.maskOf o) f s.fpAcc k)).1) (lanesBefore (s.maskOf o) f s.fpAcc 16)

/-- The conversions complete with the elements of their part, and leave the other elements (08 R222, R224). -/
def Obligations.ConversionResults : Prop :=
  ∀ (i : Instr) (s : State) (o : Ops) (w off : Nat) (f : Nat → FpAcc → Nat × FpAcc), s.Calm →
    elementRule s i = some (o, w, off, f) → w * (off + 16) ≤ 512 →
    o.regsExist s.me.nreg = true → (∃ n, o.d = .v n) → StreamsReady s o → UndoRoom s →
    ∃ t, exec i s = .next t ∧
      ElementsDone s t o w off (fun k => (f k (lanesBefore (s.maskOf o) f s.fpAcc k)).1)
        (lanesBefore (s.maskOf o) f s.fpAcc 16)

/-- Reductions and scans to a vector register complete with the combination of the enabled lanes (08 R215).

That a scan raises FLAGS only from the nodes that feed an enabled lane is the model's reading (log 22). -/
def Obligations.ReductionResults : Prop :=
  ∀ (i : Instr) (s : State) (o : Ops) (f : Nat → BitVec 32) (fl : BitVec 16), s.Calm → treeRule s i = some (o, f, fl) →
    o.regsExist s.me.nreg = true → (∃ n, o.d = .v n) → StreamsReady s o → UndoRoom s →
    ∃ t, exec i s = .next t ∧ LanesDone s t o f { s.fpAcc with flags := s.me.flags ||| fl }

/-- VEXT, VRED and AMAXRD to a g register, and MPOP, complete with the value that 08 gives (08 R210, R213, R215, R225).

AMAXRD to a vector register gives every enabled lane AMAX; AMAXCLR makes AMAX +0 and commits nothing (08 R225). -/
def Obligations.ExtractAndAmax : Prop :=
  (∀ (i : Instr) (s : State) (o : Ops) (v : Word) (fl : BitVec 16), s.Calm → extractRule s i = some (o, v, fl) →
    o.regsExist s.me.nreg = true → (∃ n, o.d = .g n) → s.streamUse s.cur.1 s.me o.vsrcs = .ready →
    (∀ mode ma, i = .mpop mode ma o → o.vsrcs = []) → (i = .amaxrd o → o.vsrcs = []) →
    ∃ t, exec i s = .next t ∧ VectorKept s t o o.d v { s.fpAcc with flags := s.me.flags ||| fl } ∧
      t.myCore.vrf = s.myCore.vrf ∧ t.myCore.masks = s.myCore.masks) ∧
  (∀ (o : Ops) (s : State), s.Calm → o.regsExist s.me.nreg = true →
    ((∃ n, o.d = .v n) → StreamsReady s o → UndoRoom s →
      ∃ t, exec (.amaxrd o) s = .next t ∧ LanesDone s t o (fun _ => s.me.amax) s.fpAcc) ∧
    (∃ t, exec (.amaxclr o) s = .next t ∧ t.me.amax = 0 ∧
      ScalarDone s (t.modMe fun p => { p with amax := s.me.amax }) o .none 0))

/-- VGROW to more blocks than the strand holds takes the lowest free rows, appends them and zeroes their registers; to as many
or fewer it changes nothing; above 11 both raise REG_ALLOT with SUB 0x05 (08 R209), VGROW in a handler strand too.

A VGROW that lacks rows parks the candidate of greatest age, whose blocks go to spill places and whose rows then serve it; with no
candidate, or with the park table full, it waits (07 R190, R191; 08 R209).

VSHRINK removes the entries from the new count on; one that would release a bound register raises REG_ALLOT with SUB 0x04
(08 R209).

That a handler's VGROW above 11 raises REG_ALLOT and no HANDLER_WAIT is the model's reading (log 22); that the VGROW waits when the
park table is full, or when no place is left for the blocks, is its choice (log 34). -/
def Obligations.AllotmentResults : Prop :=
  (∀ (o : Ops) (s : State), s.Calm → s.Unwatched → o.regsExist s.me.nreg = true →
    (11 < (s.val o.a).toNat → s.me.region = [] →
      ∃ t, exec (.vgrow o) s = .next t ∧ Trapped s t (s.faultHere 0x50 0 o .regAllot 5 0)) ∧
    ((s.val o.a).toNat ≤ s.me.rows.length → (s.val o.a).toNat ≤ 11 → s.me.handler = false →
      ∃ t, exec (.vgrow o) s = .next t ∧ CommittedAnd s t o) ∧
    (∀ k, (s.val o.a).toNat = s.me.rows.length + k + 1 → (s.val o.a).toNat ≤ 11 → s.me.handler = false →
      s.myCore.growers = [] → k + 1 ≤ s.myCore.rowsLeft.length →
      ∃ t, exec (.vgrow o) s = .next t ∧ t.me.rows = s.me.rows ++ s.myCore.rowsLeft.take (k + 1) ∧
        (∀ r ∈ s.myCore.rowsLeft.take (k + 1), ∀ j, j < 6 → t.myCore.vreg (6 * r + j) = 0) ∧
        (∀ n, n / 6 ∉ s.myCore.rowsLeft.take (k + 1) → t.myCore.vreg n = s.myCore.vreg n) ∧
        t.me.pc = s.me.pc + toWord o.len.bytes ∧ t.me.st = .ready ∧ s.me.Wrote t.me .none 0 ∧ t.me.region = [] ∧
        MeKept s.me { t.me with rows := s.me.rows } ∧ t.loads = s.keptLoads s.cur.1 s.me.own s.me.region ∧
        { t with cores := s.cores, writes := s.writes, loads := s.loads, fresh := s.fresh } = s ∧ VectorCores s t ∧
        ∀ l, memGet t.mem l = memGet s.mem l) ∧
    (∀ k, (s.val o.a).toNat = s.me.rows.length + k + 1 → (s.val o.a).toNat ≤ 11 → s.me.handler = false → s.me.st = .issuing →
      s.myCore.growers = [] → s.myCore.rowsLeft.length < k + 1 →
      ((∀ e ∈ s.myCore.slots, s.parkable e.2 = false) ∨ 64 ≤ s.myCore.park.length →
        ∃ t, exec (.vgrow o) s = .next t ∧ WaitsFor s t (.rows (s.val o.a).toNat) ∧ t.me.rows = s.me.rows ∧
          t.myCore.park = s.myCore.park ∧ ∀ n, n ≠ s.cur.2 → t.strand? s.cur.1 n = s.strand? s.cur.1 n) ∧
      (∀ sl q, OldestCandidate s sl q → k + 1 ≤ (s.myCore.without sl).rowsLeft.length →
        ∃ t n e, exec (.vgrow o) s = .next t ∧ ParkedAs s t sl n q e ∧
          t.me.rows = s.me.rows ++ (s.myCore.without sl).rowsLeft.take (k + 1) ∧ t.me.st = .ready ∧
          t.me.pc = s.me.pc + toWord o.len.bytes ∧ s.me.Wrote t.me .none 0 ∧
          (∀ r ∈ (s.myCore.without sl).rowsLeft.take (k + 1), ∀ j, j < 6 → t.myCore.vreg (6 * r + j) = 0) ∧
          (∀ m, m / 6 ∉ (s.myCore.without sl).rowsLeft.take (k + 1) → t.myCore.vreg m = s.myCore.vreg m) ∧
          ∀ m, m ≠ sl → m ≠ s.cur.2 → (t.strand? s.cur.1 m).map (fun p => { p with latches := [] }) =
            (s.strand? s.cur.1 m).map fun p => { p with latches := [] }))) ∧
  (∀ (o : Ops) (s : State), s.Calm → s.Unwatched → s.NoWaits → o.regsExist s.me.nreg = true →
    (11 < (s.val o.a).toNat → s.me.region = [] →
      ∃ t, exec (.vshrink o) s = .next t ∧ Trapped s t (s.faultHere 0x50 1 o .regAllot 5 0)) ∧
    ((s.val o.a).toNat < s.me.rows.length → (s.val o.a).toNat ≤ 11 → s.me.region = [] →
      (∃ b ∈ s.me.streams, 6 * (s.val o.a).toNat ≤ b.reg) →
      ∃ t, exec (.vshrink o) s = .next t ∧ Trapped s t (s.faultHere 0x50 1 o .regAllot 4 0)) ∧
    ((s.val o.a).toNat ≤ 11 → (∀ b ∈ s.me.streams, b.reg < 6 * (s.val o.a).toNat) →
      ∃ t, exec (.vshrink o) s = .next t ∧ t.me.rows = s.me.rows.take (s.val o.a).toNat ∧
        CommittedAnd s (t.modMe fun p => { p with rows := s.me.rows, vboard := s.me.vboard }) o))

/-- SBIND binds its register with position 0 in place of an earlier binding, or raises the fault of the first check that
fails with its base; SUNBIND removes the binding (08 R229). That each of these faults reports the base in g3 is the model's
reading (log 22). -/
def Obligations.StreamBindings : Prop :=
  ∀ (o : Ops) (s : State), s.Calm → s.Unwatched → o.regsExist s.me.nreg = true →
    (bindFault s o = none →
      ∃ t, exec (.sbind o) s = .next t ∧
        t.me.streams = s.me.streams.filter (fun b => b.reg != o.d.ix) ++
          [{ reg := o.d.ix, base := s.val o.a, stride := s.val o.b, count := (s.val o.c).toNat, pos := 0, ahead := [] }] ∧
        CommittedAnd s (t.withStreams s) o) ∧
    (∀ code sub, s.me.region = [] → bindFault s o = some (code, sub) →
      ∃ t, exec (.sbind o) s = .next t ∧
        Trapped s t (s.faultHere 0x81 0 o code sub (if code = .regAllot then 0 else s.val o.a))) ∧
    (∃ t, exec (.sunbind o) s = .next t ∧ t.me.streams = s.me.streams.filter (fun b => b.reg != o.d.ix) ∧
      CommittedAnd s (t.withStreams s) o)

/-- CBINIT sets up its descriptor, or raises the fault of the first check that fails with the base (08 R233).

The strand forms on circular buffers complete when their condition holds (08 R234, R235, Table 08.7): CBWAITF gives the
head slot, CBWAITE claims one, CBPOP and CBPUSH count, CBSTAT reads.

A CBWAITF with no full slot and a CBWAITE with no claim possible wait, and the descriptor counts them (08 R235); a pop of
an empty buffer, a descriptor that is not valid and one of another path raise PROT. -/
def Obligations.CircularBuffers : Prop :=
  (∀ (cb : BitVec 4) (level : BitVec 2) (prod cons : BitVec 3) (o : Ops) (s : State), s.Calm → s.Unwatched →
    o.regsExist s.me.nreg = true →
    (cbInitFault s cb level o = none →
      ∃ t, exec (.cbinit cb level prod cons o) s = .next t ∧
        t.myCore.cb cb.toNat = cbInitial level prod cons (s.val o.a).toNat (s.val o.b).toNat (s.val o.c).toNat ∧
        (∀ n, n < 16 → n ≠ cb.toNat → t.myCore.cb n = s.myCore.cb n) ∧ CommittedAnd s (t.withCbd s) o) ∧
    (∀ code sub, s.me.region = [] → cbInitFault s cb level o = some (code, sub) →
      ∃ t, exec (.cbinit cb level prod cons o) s = .next t ∧
        Trapped s t (s.faultHere 0x82 0 o code sub (s.val o.a)))) ∧
  (∀ (cb : BitVec 4) (o : Ops) (s : State) (d : CbDesc), s.Calm → s.Unwatched → s.NoWaits → s.Settled →
    o.regsExist s.me.nreg = true → d = s.myCore.cb cb.toNat →
    (s.me.handler = false → cbFormFault d false = none → d.fills ≠ d.pops →
      ∃ t, exec (.cbwaitf cb o) s = .next t ∧ s.me.Wrote t.me o.d (slotAddress d d.pops) ∧
        t.myCore.cbd = s.myCore.cbd ∧ CommittedAnd s (t.withG s) o) ∧
    (s.me.handler = false → cbFormFault d true = none → (d.claims - d.pops).toNat < d.nslot.toNat →
      ∃ t, exec (.cbwaite cb o) s = .next t ∧ s.me.Wrote t.me o.d (slotAddress d d.claims) ∧
        t.myCore.cb cb.toNat = { d with claims := d.claims + 1 } ∧ CommittedAnd s ((t.withG s).withCbd s) o) ∧
    (cbFormFault d false = none → d.fills ≠ d.pops →
      ∃ t, exec (.cbpop cb o) s = .next t ∧ t.myCore.cb cb.toNat = { d with pops := d.pops + 1 } ∧
        CommittedAnd s (t.withCbd s) o) ∧
    (∀ n : BitVec 32, cbFormFault d true = none → s.val o.a = slotAddress d n → n.toNat < d.nslot.toNat →
      n.toNat = d.fills.toNat % d.nslot.toNat → d.claims ≠ d.fills →
      (∀ m : BitVec 32, m.toNat < n.toNat → slotAddress d m ≠ slotAddress d n) →
      ∃ t, exec (.cbpush cb o) s = .next t ∧ t.myCore.cb cb.toNat = { d with fills := d.fills + 1 } ∧
        CommittedAnd s (t.withCbd s) o) ∧
    (∃ t v, exec (.cbstat cb o) s = .next t ∧ ScalarDone s t o o.d v ∧ v.getLsbD 63 = d.valid ∧ v.getLsbD 62 = d.err ∧
      v.extractLsb' 32 16 = (d.claims - d.fills).setWidth 16 ∧ v.extractLsb' 0 16 = (d.fills - d.pops).setWidth 16 ∧
      v.extractLsb' 16 16 = 0 ∧ v.extractLsb' 48 14 = 0)) ∧
  (∀ (cb : BitVec 4) (o : Ops) (s : State) (d : CbDesc), s.Calm → s.me.region = [] → s.me.handler = false →
    o.regsExist s.me.nreg = true → d = s.myCore.cb cb.toNat →
    (cbFormFault d false = none → d.fills = d.pops → d.err = false →
      ∃ t, exec (.cbwaitf cb o) s = .next t ∧ t.me.st = .waiting (.cbFull cb o.d) ∧ t.me.pc = s.me.pc ∧
        t.myCore.cb cb.toNat = { d with waiters := d.waiters + 1 } ∧ s.me.Wrote t.me .none 0) ∧
    (cbFormFault d true = none → d.nslot.toNat ≤ (d.claims - d.pops).toNat →
      ∃ t, exec (.cbwaite cb o) s = .next t ∧ t.me.st = .waiting (.cbClaim cb o.d) ∧ t.me.pc = s.me.pc ∧
        t.myCore.cb cb.toNat = { d with waiters := d.waiters + 1 } ∧ s.me.Wrote t.me .none 0) ∧
    (cbFormFault d false = none → d.fills = d.pops →
      ∃ t, exec (.cbpop cb o) s = .next t ∧ Trapped s t (s.faultHere 0x82 3 o .prot 0x23 0)) ∧
    (∀ sub, cbFormFault d false = some sub →
      (∃ t, exec (.cbwaitf cb o) s = .next t ∧ Trapped s t (s.faultHere 0x82 1 o .prot sub 0)) ∧
      ∃ t, exec (.cbpop cb o) s = .next t ∧ Trapped s t (s.faultHere 0x82 3 o .prot sub 0)) ∧
    (∀ sub, cbFormFault d true = some sub →
      (∃ t, exec (.cbwaite cb o) s = .next t ∧ Trapped s t (s.faultHere 0x82 2 o .prot sub 0)) ∧
      ∃ t, exec (.cbpush cb o) s = .next t ∧ Trapped s t (s.faultHere 0x82 4 o .prot sub 0)))

/-- An atomic or a rendezvous step that passes its checks leaves for its home or for the PAS, and its strand waits (06 R158,
R167).

An atomic is performed at its home in one step: the old value answers, the new one stands at its bytes, every other byte
of memory is unchanged (06 R158).

The reply of an atomic writes its destination, that of ACAS2 the two registers of its pair, and retires its instruction, and SORD
counts the operation (06 R158, 04 R94). -/
def Obligations.AtomicResults : Prop :=
  (∀ (i : Instr) (s : State) (x : Step) (ps : List Piece), s.Calm → s.Unwatched → stepRule s i = some x →
    x.ops.regsExist s.me.nreg = true → s.me.handler = false ∨ handlerBarred s i = none →
    s.checks (Need.atom x.bytes x.x.scope) (syncAddress s x) x.bytes = .ok ps → ps ≠ [] →
    (x.x.scope = .pkg ∨ x.x.scope = .sys → s.routable (coreSite s.cur.1) spineSite = true) →
    ∃ t, exec i s = .next t ∧ StepIssued s t x ((reached ps).headD 0)) ∧
  (∀ (s : State) (a : AtomOp) (p : Strand), s.mem.wf = true → s.Unwatched → s.ColophonOff a.asid →
    s.atom? a.id = some a → (s.atoms.map (·.id)).Nodup → AtHome s a → (∃ f, a.kind = .aop f) ∨ a.kind = .cas ∨ a.kind = .cas2 →
    s.atomStrand a = some (.slot a.slot, p) →
    s.strand? a.core a.slot = some p →
    ∃ t, exec (.atomicAtHome a.id) s = .next t ∧
      Stores s t a.loc a.bytes (atomicRule a (bytesAt s a.loc a.bytes)) ∧
      t.atoms = s.atoms.map (fun b => if b.id = a.id then replied s a (BitVec.ofNat 128 (bytesAt s a.loc a.bytes)) else b) ∧
      t.writes = s.writes ∧ t.loads = s.loads ∧
      (∀ c, { t.core c with slots := (s.core c).slots } = s.core c) ∧ ∀ c n, t.strand? c n = s.strand? c n) ∧
  (∀ (s : State) (a : AtomOp) (p : Strand) (res : BitVec 128), s.Unwatched → s.atom? a.id = some a →
    a.stage = .reply res → s.atomStrand a = some (.slot a.slot, p) →
    s.strand? a.core a.slot = some p → p.st = .waiting (.reply a.id) → p.stepping = false → ReplyComes s a →
    ∃ t q, exec (.atomicReply a.id) s = .next t ∧ t.strand? a.core a.slot = some q ∧
      (a.kind ≠ .cas2 → p.Wrote q a.d (replyValue a res)) ∧
      (a.kind = .cas2 → ∀ m, m < 16 → q.getG m = match a.d with
        | .g n => if m = n.toNat then res.setWidth 64 else if m = n.toNat + 1 then res.extractLsb' 64 64 else p.getG m
        | _ => p.getG m) ∧
      q.sord = p.sord + 1 ∧ q.pc = p.pc + toWord p.word.bytes ∧ q.st = .ready ∧
      t.atoms = s.atoms.filter (fun b => b.id != a.id) ∧ (∀ l, memGet t.mem l = memGet s.mem l) ∧
      (∀ c, c ≠ a.core → t.core c = s.core c) ∧ ∀ n, n ≠ a.slot → t.strand? a.core n = s.strand? a.core n)

/-- WAITCHG retires with the value when it differs from its operand, and else waits for a change (06 R164). -/
def Obligations.WaitChange : Prop :=
  ∀ (dbl : Bool) (x : SyncX) (o : Ops) (s : State) (ps : List Piece) (b : Nat), s.Calm → s.Unwatched → s.Settled →
    s.me.handler = false → o.regsExist s.me.nreg = true →
    s.checks (Need.watch (atomBytes dbl) x.scope) (s.val o.a + x.off.signExtend 64) (atomBytes dbl) = .ok ps → ps ≠ [] →
    b = (s.val o.b).toNat % 2 ^ (8 * atomBytes dbl) →
    (memVal s.mem (reached ps) ≠ b →
      ∃ t, exec (.waitchg dbl x o) s = .next t ∧
        s.me.Wrote t.me o.d
          (if dbl then BitVec.ofNat 64 (memVal s.mem (reached ps))
           else (BitVec.ofNat 32 (memVal s.mem (reached ps))).signExtend 64) ∧
        t.me.pc = s.me.pc + toWord o.len.bytes ∧ t.me.st = .ready ∧ ∀ l, memGet t.mem l = memGet s.mem l) ∧
    (memVal s.mem (reached ps) = b →
      ∃ t w, exec (.waitchg dbl x o) s = .next t ∧
        t.me.st = .waiting (.change ((reached ps).headD 0) (atomBytes dbl) (toWord b) o.d w x.order
          (s.route (coreSite s.cur.1) (locSite ((reached ps).headD 0)))) ∧
        t.me.pc = s.me.pc ∧ s.me.Wrote t.me .none 0 ∧ ∀ l, memGet t.mem l = memGet s.mem l)

/-- SPAWN places its child in the lowest free slot of its core that no earlier claim of 07 Table 07.1 takes, and gives its
destination the child's SID; without one the child joins the dispatcher's queue; a misaligned target raises ALIGN (06 R171).

MIGRATE and MIGRATE.C to another core send the strand's migratable state and free its slot; to the strand's own core they
retire (06 R173, R174).

That the child leaves a free slot for each claim that is pending is the model's choice (log 34). -/
def Obligations.SpawnAndMigrate : Prop :=
  (∀ (o : Ops) (s : State), s.Calm → s.Unwatched → s.me.handler = false → o.regsExist s.me.nreg = true →
    ((s.val o.a).toNat % 4 ≠ 0 → s.me.region = [] →
      ∃ t, exec (.spawn o) s = .next t ∧ Trapped s t (s.faultHere 0x3B 0 o .align 0 (s.val o.a))) ∧
    (∀ n, (s.val o.a).toNat % 4 = 0 → s.Settled → s.ColophonOff s.me.asid.toNat → s.spareSlot s.cur.1 = some n →
      ∃ t child, exec (.spawn o) s = .next t ∧ t.strand? s.cur.1 n = some child ∧
        ChildOf s.me child (s.val o.a) ((s.val o.b).setWidth 16) ∧ s.me.Wrote t.me o.d child.sid ∧
        t.me.sord = s.me.sord + 1 ∧ t.me.pc = s.me.pc + toWord o.len.bytes ∧ t.me.st = .ready ∧
        (∀ m, m ≠ n → m ≠ s.cur.2 → t.strand? s.cur.1 m = s.strand? s.cur.1 m) ∧
        ∀ l, memGet t.mem l = memGet s.mem l) ∧
    ((s.val o.a).toNat % 4 = 0 → s.Settled → s.ColophonOff s.me.asid.toNat → s.spareSlot s.cur.1 = none →
      (s.chip (coreSite s.cur.1)).children.length < 512 →
      ∃ t child, exec (.spawn o) s = .next t ∧
        (t.chip (coreSite s.cur.1)).children = (s.chip (coreSite s.cur.1)).children ++ [child] ∧
        ChildOf s.me child (s.val o.a) ((s.val o.b).setWidth 16) ∧ s.me.Wrote t.me o.d child.sid ∧
        t.me.sord = s.me.sord + 1 ∧ t.me.pc = s.me.pc + toWord o.len.bytes ∧ t.me.st = .ready)) ∧
  (∀ (i : Instr) (s : State) (o : Ops) (k : Nat), s.Calm → s.Unwatched → MayMigrate s → s.Settled →
    s.ColophonOff s.me.asid.toNat → o.regsExist s.me.nreg = true → migrateTo s i = some (o, k) →
    s.routable (coreSite s.cur.1) (coreSite k) = true →
    (k ≠ s.cur.1 →
      ∃ t m, exec i s = .next t ∧ t.migs = s.migs ++ [m] ∧ m.src = s.cur.1 ∧ m.dest = k ∧
        Carries s.me m.strand o.len.bytes ∧ t.strand? s.cur.1 s.cur.2 = none ∧
        (∀ n, n ≠ s.cur.2 → t.strand? s.cur.1 n = s.strand? s.cur.1 n) ∧ ∀ l, memGet t.mem l = memGet s.mem l) ∧
    (k = s.cur.1 →
      ∃ t, exec i s = .next t ∧ t.me.sord = s.me.sord + 1 ∧ t.me.pc = s.me.pc + toWord o.len.bytes ∧ t.me.st = .ready ∧
        s.me.Wrote t.me .none 0 ∧ t.migs = s.migs ∧ ∀ l, memGet t.mem l = memGet s.mem l))

/-- EXIT commits the region and frees the slot; in a fault handler it and SKILL free the holder of the faulted strand too (05
R135, 06 R172).

SRESUME puts the faulted strand back into its slot as READY at the target, with the g registers that the mask names taken
from the handler, and frees the holder (05 R134). -/
def Obligations.StrandEnds : Prop :=
  (∀ (o : Ops) (s : State), s.Calm → s.Unwatched → o.regsExist s.me.nreg = true →
    (s.me.kind ≠ .handler → (∀ d ∈ s.myCore.deferred, d.own ≠ s.me.own) →
      ∃ t, exec (.exit o) s = .next t ∧ t.strand? s.cur.1 s.cur.2 = none ∧
        ∃ ws us, t.writes = s.writes ++ ws ++ us ∧
          ws.map (·.cells) = ((mergeRegion s.me.region).map (·.cells)).filter (fun l => !l.isEmpty) ∧
          ∀ u ∈ us, u.agent.isSome = true) ∧
    (∀ h p, s.me.kind = .handler → s.myCore.holderOf s.cur.2 = some (h, p) →
      (∀ d ∈ s.myCore.deferred, d.own ≠ s.me.own ∧ d.own ≠ p.own) →
      (∃ t, exec (.skill o) s = .next t ∧ t.strand? s.cur.1 s.cur.2 = none ∧ tfind (t.core s.cur.1).holders h = none) ∧
      ∃ t, exec (.exit o) s = .next t ∧ t.strand? s.cur.1 s.cur.2 = none ∧ tfind (t.core s.cur.1).holders h = none)) ∧
  (∀ (o : Ops) (s : State) (h : Nat) (p : Strand), s.Calm → s.Settled → s.NoWaits → s.me.kind = .handler →
    o.regsExist s.me.nreg = true → s.myCore.holderOf s.cur.2 = some (h, p) → (s.val o.a).toNat % 4 = 0 →
    (∀ d ∈ s.myCore.deferred, d.own ≠ s.me.own) →
    ∃ t q, exec (.sresume o) s = .next t ∧ t.strand? s.cur.1 s.cur.2 = some q ∧ q.pc = s.val o.a ∧ q.st = .ready ∧
      (∀ i, i < 16 → q.getG i = if (s.val o.b).getLsbD i then s.me.getG i else p.getG i) ∧
      { q with g := p.g, pc := p.pc, st := p.st, ckptDue := p.ckptDue, latches := p.latches, age := p.age } = p ∧
      tfind (t.core s.cur.1).holders h = none)

/-- SRESUME and SKILL of a strand that is no fault handler raise PROT with SUB 0x01 and 0x02 (05 R136). -/
def Obligations.HandlerOnly : Prop :=
  ∀ (i : Instr) (o : Ops) (s : State) (f : FaultRec), s.Calm → s.me.kind ≠ .handler → o.regsExist s.me.nreg = true →
    (i = .sresume o ∧ f = s.faultHere 0x24 6 o .prot 0x01 0) ∨ (i = .skill o ∧ f = s.faultHere 0x24 7 o .prot 0x02 0) →
    ∃ t, exec i s = .next t ∧ t.me.st = .faulted f ∧ t.me.pc = s.me.pc ∧ t.me.g = s.me.g ∧ (s.me.region = [] → Trapped s t f)

/-- The matrix instructions commit the region and enter the queue with the next ticket of class 2, which their destination
takes; they wait for room in a queue of 16 (09 R245, R250 to R256). -/
def Obligations.MatrixIssue : Prop :=
  ∀ (i : Instr) (s : State) (o : Ops) (body : MBody), s.Calm → s.Unwatched → matrixRule s i = some (o, body) →
    o.regsExist s.me.nreg = true →
    (s.myCore.mtx.queue.length < 16 →
      ∃ t e, exec i s = .next t ∧ t.myCore.mtx.queue = s.myCore.mtx.queue ++ [e] ∧ e.body = body ∧
        e.ticket = vget 0 s.myCore.issq 2 + 1 ∧ e.owner = s.me.sid ∧ e.slot = s.cur.2 ∧ e.pc = s.me.pc ∧ e.st = .queued ∧
        e.row = 0 ∧ e.claim = none ∧ TicketTaken s t o 2 ∧
        t.myCore.mtx.front = s.myCore.mtx.front ∧ t.myCore.mtx.back = s.myCore.mtx.back ∧
        (∀ n, n < 4 → { t.myCore.mtx.set n with free := (s.myCore.mtx.set n).free } = s.myCore.mtx.set n) ∧
        t.myCore.rma = s.myCore.rma ∧ CommittedAnd s ((t.withG s).withIssue s) o) ∧
    (16 ≤ s.myCore.mtx.queue.length →
      ∃ t, exec i s = .next t ∧ WaitsFor s t (.queue 2) ∧ t.myCore.mtx = s.myCore.mtx ∧ t.myCore.issq = s.myCore.issq)

/-- ACOPY, ACOPYCB, HGEMV and RMAPOST commit the region and enter their class's queue with its next ticket, which their
destination takes; they wait for room in it (11 R287, R289, R294, R299, R300; 23 R462, R464).

That an HGEMV whose K or N is 0 is queued at stack 0 with nothing translated is the model's choice (log 39). -/
def Obligations.EngineIssue : Prop :=
  ∀ (i : Instr) (s : State) (o : Ops) (cls : Nat) (body : EngBody), s.Calm → s.Unwatched →
    engineRule s i = some (o, cls, body) → o.regsExist s.me.nreg = true →
    ((s.ops.filter fun e => e.core == s.cur.1 && e.cls == cls).length < classSize cls →
      ∃ t e, exec i s = .next t ∧ t.ops = s.ops ++ [e] ∧ e.body = body ∧ e.cls = cls ∧ e.core = s.cur.1 ∧
        e.ticket = vget 0 s.myCore.issq cls + 1 ∧ e.owner = s.me.sid ∧ e.asid = s.me.asid.toNat ∧ e.sec = s.me.sec ∧
        e.pc = s.me.pc ∧ e.st = .queued ∧ e.pos = 0 ∧ TicketTaken s t o cls ∧ t.myCore.mtx = s.myCore.mtx ∧
        (cls ≠ 3 → t.myCore.rma = s.myCore.rma) ∧
        (cls = 3 → ∃ r, t.myCore.rma = (s.myCore.rma ++ [r]).drop (s.myCore.rma.length + 1 - 16) ∧ r.ticket = e.ticket ∧
          r.done = false ∧ r.qp = (s.val o.c).extractLsb' 0 24) ∧
        CluKept s t ∧ CommittedAnd s (((t.withG s).withIssue s).withEngines s) o) ∧
    (classSize cls ≤ (s.ops.filter fun e => e.core == s.cur.1 && e.cls == cls).length →
      ∃ t, exec i s = .next t ∧ WaitsFor s t (.queue cls) ∧ t.ops = s.ops ∧ t.myCore.issq = s.myCore.issq ∧
        t.myCore.rma = s.myCore.rma)

/-- MWAIT and AWAIT retire with ESEQ of their class once it has reached their target, and else wait; ASEQ reads a sequence
(09 R257; 11 R296, R297); RMAPOLL reads the word of a known ticket, and 0 for another (23 R464). That a ticket below 1 is none
is the model's reading (log 25). -/
def Obligations.SequenceResults : Prop :=
  (∀ (i : Instr) (s : State) (o : Ops) (cls : Nat) (target : Word), s.Calm → s.Unwatched →
    sequenceRule s i = some (o, cls, target) → o.regsExist s.me.nreg = true →
    (target.toNat ≤ (vget 0 s.myCore.eseq cls).toNat →
      ∃ t, exec i s = .next t ∧ s.me.Wrote t.me o.d (vget 0 s.myCore.eseq cls) ∧ CommittedAnd s (t.withG s) o) ∧
    ((vget 0 s.myCore.eseq cls).toNat < target.toNat →
      ∃ t, exec i s = .next t ∧ WaitsFor s t (.seq cls target o.d))) ∧
  (∀ (cls : BitVec 3) (m : SeqMode) (o : Ops) (s : State), s.Calm → o.regsExist s.me.nreg = true →
    ∃ t, exec (.aseq cls m o) s = .next t ∧ ScalarDone s t o o.d (sequenceValue s cls.toNat m)) ∧
  (∀ (o : Ops) (s : State), s.Calm → o.regsExist s.me.nreg = true →
    (∀ r, s.myCore.rma.find? (fun r => r.ticket == s.val o.a) = some r →
      ∃ t v, exec (.rmapoll o) s = .next t ∧ TicketWord r v ∧ ScalarDone s { t with fresh := s.fresh } o o.d v) ∧
    ((∀ r ∈ s.myCore.rma, r.ticket ≠ s.val o.a) →
      ∃ t, exec (.rmapoll o) s = .next t ∧ ScalarDone s t o o.d 0))

/-- GEOM and PART give the place and the share of 10 R267 and R268; CHSET sets its counter and CHUNK takes the counter's next
range, each after a commit (10 R275, R276). -/
def Obligations.PlaceAndLoopResults : Prop :=
  (∀ (lv : BitVec 3) (o : Ops) (s : State), s.Calm → o.regsExist s.me.nreg = true →
    ∃ t, exec (.geom lv o) s = .next t ∧ ScalarDone s t o o.d
      (match lv.toNat with
      | 0 => toWord (64 * 2 ^ 32 + s.cur.2)
      | n =>
        let x := s.level s.cur.1 s.cur.2 s.me.asid.toNat s.me.lh.toNat n
        toWord (x.2 * 2 ^ 32 + x.1))) ∧
  (∀ (lvs : BitVec 3) (o : Ops) (s : State) (a : Nat × Nat), s.Calm → o.regsExist s.me.nreg = true →
    a = shareRule (wfld (s.val o.a) 0 32) (partRule s lvs o).1 (partRule s lvs o).2 →
    (∃ t, exec (.part lvs false o) s = .next t ∧ ScalarDone s t o o.d (toWord (a.2 * 2 ^ 32 + a.1))) ∧
    ((∃ n, o.d = .m n) → UndoRoom s → o.vsrcs = [] →
      ∃ t, exec (.part lvs true o) s = .next t ∧
        MaskDone s t o fun k => decide (a.2 ≠ 0 ∧ (a.2 % 16 = 0 ∨ k < a.2 % 16)))) ∧
  (∀ (ctr : BitVec 2) (o : Ops) (s : State), s.Calm → s.Unwatched → o.regsExist s.me.nreg = true →
    (∃ t, exec (.chset ctr o) s = .next t ∧ t.myCtr ctr.toNat = chsetRule (s.val o.a) (s.val o.b) (s.val o.c) ∧
      UnitOnly s t (some ctr.toNat) none ∧ CommittedAnd s (t.withUnits s) o) ∧
    (s.ColophonOff s.me.asid.toNat →
      ∃ t, exec (.chunk ctr o) s = .next t ∧
        s.me.Wrote t.me o.d (toWord (chunkLength (s.myCtr ctr.toNat) * 2 ^ 32 + (s.myCtr ctr.toNat).next.toNat)) ∧
        t.myCtr ctr.toNat = { s.myCtr ctr.toNat with
          next := BitVec.ofNat 32 ((s.myCtr ctr.toNat).next.toNat + chunkLength (s.myCtr ctr.toNat)) } ∧
        t.me.sord = s.me.sord + 1 ∧ UnitOnly s t (some ctr.toNat) none ∧ CommittedAnd s ((t.withG s).withUnits s) o))

/-- CLBAR.ARRIVE counts at its barrier and gives the phase that it met; a count of 0 or above 256 raises PROT. CLBAR.WAIT gives
the phase when it differs from its operand's, and else waits (10 R274). -/
def Obligations.BarrierResults : Prop :=
  ∀ (bar : BitVec 4) (o : Ops) (s : State) (b : Bar), s.Calm → s.Unwatched → o.regsExist s.me.nreg = true →
    s.ColophonOff s.me.asid.toNat → b = s.bar (coreClu s.cur.1) bar.toNat →
    ((s.val o.a).toNat = 0 ∨ 256 < (s.val o.a).toNat → s.me.region = [] →
      ∃ t, exec (.clbarArrive bar o) s = .next t ∧ Trapped s t (s.faultHere 0xA1 0 o .prot 0x53 0)) ∧
    (0 < (s.val o.a).toNat → (s.val o.a).toNat ≤ 256 → s.Settled → s.NoWaits →
      ∃ t, exec (.clbarArrive bar o) s = .next t ∧ s.me.Wrote t.me o.d (b.phase.setWidth 64) ∧
        t.bar (coreClu s.cur.1) bar.toNat = arrivalRule b (s.val o.a) ∧ t.me.sord = s.me.sord + 1 ∧
        t.me.pc = s.me.pc + toWord o.len.bytes ∧ t.me.st = .ready) ∧
    (s.me.handler = false → b.phase.toNat ≠ (s.val o.a).toNat % 2 ^ 16 →
      ∃ t, exec (.clbarWait bar o) s = .next t ∧ s.me.Wrote t.me o.d (b.phase.setWidth 64) ∧ t.me.sord = s.me.sord + 1 ∧
        t.clusters = s.clusters ∧ CommittedAnd s ((t.withG s).withUnits s) o) ∧
    (s.me.handler = false → b.phase.toNat = (s.val o.a).toNat % 2 ^ 16 →
      ∃ t, exec (.clbarWait bar o) s = .next t ∧ WaitsFor s t (.barrier bar (s.val o.a) o.d) ∧ t.clusters = s.clusters)

/-- GANG waits until every core of the governing mask has arrived; the last arrival retires with the mask, its rank and the
generation, which it closes (10 R270). -/
def Obligations.GangResults : Prop :=
  ∀ (g : BitVec 2) (joint : Bool) (o : Ops) (s : State) (x : Gang) (mk arr : BitVec 4), s.Calm → s.Unwatched → s.Settled →
    s.NoWaits → s.me.handler = false → o.regsExist s.me.nreg = true → s.ColophonOff s.me.asid.toNat →
    x = s.gang (coreClu s.cur.1) g.toNat → MayArrive s g ((s.val o.a).setWidth 4) →
    mk = (gangOpen x ((s.val o.a).setWidth 4)).1 →
    arr = (gangOpen x ((s.val o.a).setWidth 4)).2 ||| cixBit s.cur.1 →
    (arr ≠ mk →
      ∃ t, exec (.gang g joint o) s = .next t ∧ t.me.st = .waiting (.gang g) ∧ t.me.pc = s.me.pc ∧
        s.me.Wrote t.me .none 0 ∧ (t.gang (coreClu s.cur.1) g.toNat).opn = true ∧
        (t.gang (coreClu s.cur.1) g.toNat).mask = mk ∧ (t.gang (coreClu s.cur.1) g.toNat).arr = arr ∧
        (t.gang (coreClu s.cur.1) g.toNat).gen = x.gen ∧ ∀ l, memGet t.mem l = memGet s.mem l) ∧
    (arr = mk →
      ∃ t, exec (.gang g joint o) s = .next t ∧
        s.me.Wrote t.me o.d (toWord (mk.toNat * 2 ^ 16 +
          ((List.range (coreCIX s.cur.1)).filter fun i => mk.getLsbD i).length * 2 ^ 8 + x.gen.toNat)) ∧
        t.me.pc = s.me.pc + toWord o.len.bytes ∧ t.me.st = .ready ∧ t.me.sord = s.me.sord + 1 ∧
        (t.gang (coreClu s.cur.1) g.toNat).opn = false ∧ (t.gang (coreClu s.cur.1) g.toNat).arr = 0 ∧
        (t.gang (coreClu s.cur.1) g.toNat).gen = x.gen + 1 ∧ (t.gang (coreClu s.cur.1) g.toNat).jm = joint)

/-- TLBINV sends its shoot-down once the strand's stores are performed, and waits for its end; without SUP it raises PROT (10
R279). -/
def Obligations.Invalidations : Prop :=
  ∀ (i : Instr) (s : State) (o : Ops) (wide : Bool) (kind : BitVec 2) (asid : BitVec 12) (va : Word), s.Calm → s.Unwatched →
    shootRule s i = some (o, wide, kind, asid, va) →
    (s.me.sup = true → s.Settled → o.regsExist s.me.nreg = true →
      ∃ t x, exec i s = .next t ∧ t.shoots = s.shoots ++ [x] ∧ x.kind = kind ∧ x.asid = asid ∧ x.va = va ∧ x.wide = wide ∧
        x.sec = s.me.sec ∧ x.clu = coreClu s.cur.1 ∧ x.core = s.cur.1 ∧ x.got = [] ∧ x.acked = [] ∧ x.refused = false ∧
        WaitsFor s t (.tlbinv x.id o.d 0) ∧ t.clusters = s.clusters) ∧
    (s.me.sup = false → s.me.region = [] →
      ∃ t, exec i s = .next t ∧ Trapped s t (s.faultHere 0xA4 0 o .prot 0 0))

/-- PAGEREQ.next takes the oldest request of the chiplet into 32 bytes of the core's scratchpad, with its tag, or waits for
one; PAGEREQ.reply answers a pending tag; both raise PROT without PAGER (11 R307). -/
def Obligations.PagerResults : Prop :=
  ∀ (o : Ops) (s : State) (h : Chiplet), s.Calm → s.Unwatched → h = s.chip (coreSite s.cur.1) →
    (∀ ps, s.me.pager = true → o.regsExist s.me.nreg = true → s.mem.wf = true → wfld (s.val o.a) 56 8 = 0xF0 →
      s.checks { Need.store with align := 32 } (s.val o.a) 32 = .ok ps →
      (∀ r rest, h.pagerQ = r :: rest → s.isPager s.cur.1 = true →
        ∃ t, exec (.pagereqNext o) s = .next t ∧ Stores s t (locCore s.cur.1 (wfld (s.val o.a) 0 24)) 32 r.record ∧
          s.me.Wrote t.me o.d (toWord (r.tag % 2 ^ 32)) ∧ (t.chip (coreSite s.cur.1)).pagerQ = rest ∧
          (t.chip (coreSite s.cur.1)).pagerPend = h.pagerPend ++ [r] ∧
          t.me.pc = s.me.pc + toWord o.len.bytes ∧ t.me.st = .ready) ∧
      (h.pagerQ = [] →
        ∃ t, exec (.pagereqNext o) s = .next t ∧ WaitsFor s t (.page o.d (s.val o.a)))) ∧
    (s.me.pager = true → o.regsExist s.me.nreg = true → (s.val o.c).toNat ∈ [0, 6, 9, 10, 16] →
      (∀ r, h.pagerPend.find? (fun r => toWord (r.tag % 2 ^ 32) == s.val o.b) = some r →
        ∃ t, exec (.pagereqReply o) s = .next t ∧
          t.pageReplies = s.pageReplies ++ [{ site := coreSite s.cur.1, req := r, code := (s.val o.c).setWidth 8 }] ∧
          (t.chip (coreSite s.cur.1)).pagerPend = h.pagerPend.filter (fun x => x.tag != r.tag) ∧
          t.me.pc = s.me.pc + toWord o.len.bytes ∧ t.me.st = .ready ∧ s.me.Wrote t.me .none 0) ∧
      ((∀ r ∈ h.pagerPend, toWord (r.tag % 2 ^ 32) ≠ s.val o.b) →
        ∃ t, exec (.pagereqReply o) s = .next t ∧ ScalarDone s t o .none 0)) ∧
    (s.me.pager = false → s.me.region = [] →
      (∃ t, exec (.pagereqNext o) s = .next t ∧ Trapped s t (s.faultHere 0xB5 0 o .prot 0 0)) ∧
      ∃ t, exec (.pagereqReply o) s = .next t ∧ Trapped s t (s.faultHere 0xB5 0 o .prot 0 0))

/-- AMSEND and AMSENDC commit the region and send their message to the home core of an address or to a logical core, and wait
for its status; a misaligned handler raises ALIGN (16 R364). -/
def Obligations.SendResults : Prop :=
  ∀ (i : Instr) (s : State), s.Calm → s.Unwatched →
    (∀ o x k, sendRule s i = some (o, x, k) → o.regsExist s.me.nreg = true → (s.val o.b).toNat % 4 = 0 →
      s.routable (coreSite s.cur.1) (coreSite k) = true → (x.urg = true → s.myCore.urgUntil ≤ s.myCore.cc) →
      ∃ t m, exec i s = .next t ∧ t.sends = s.sends ++ [m] ∧ m.dest = k ∧ m.core = s.cur.1 ∧ m.slot = s.cur.2 ∧
        m.packet = none ∧ m.stage = .toDest ∧ m.d = o.d ∧ MessageOf s x o m.msg ∧ WaitsFor s t (.reply m.id) ∧
        (x.urg = true → t.myCore.urgUntil = s.myCore.cc + 256)) ∧
    (∀ o x maj, (i = .amsend x o ∧ maj = 0xC0) ∨ (i = .amsendc x o ∧ maj = 0xC1) → o.regsExist s.me.nreg = true →
      (s.val o.b).toNat % 4 ≠ 0 → s.me.region = [] →
      ∃ t, exec i s = .next t ∧ Trapped s t (s.faultHere maj 0 o .align 0 (s.val o.b)))

/-- An issue opportunity counts a cycle, does what is due on the core, and advances P; the eligible strand of greatest age leads
the group, every member of which has the leader's instruction word at the leader's PC; members' ages return to 0 and the
others' grow (07 R179 to R182). Where nothing is due, the strands are as they were. PAUSE and YIELD end as 05 R132 and R133
say; a region commits 1,024 cycles after its first store, or after 4,096 instructions (04 R103); a sample takes the next
occupied slot (19 R435).

That an opportunity at which no strand is eligible ages the slots and advances P, and that what is due comes ahead of the group, are
the model's readings (log 28). -/
def Obligations.IssueEvents : Prop :=
  (∀ (c : Nat) (s u : State), (s.core c).phase = .run → (s.clu (coreClu c)).power = .up → u = (s.cycle c).dueAt c →
    ∃ t, exec (.issueGroup c) s = .next t ∧ (t.core c).cc = (u.core c).cc ∧
      (t.core c).ptr = ((u.core c).ptr + 1) % 64 ∧ MemKept u t ∧ (∀ k, k ≠ c → t.core k = u.core k) ∧
      (u.eligible c = [] → t.issuing = []) ∧
      (∀ a ∈ u.eligible c, a.slot < 64 →
        (∀ b ∈ u.eligible c, b ≠ a → b.strand.age < a.strand.age) → (c, a.slot) ∈ t.issuing) ∧
      (∀ x ∈ t.issuing, ∀ y ∈ t.issuing, ∃ a ∈ u.eligible c, ∃ b ∈ u.eligible c,
        x = (c, a.slot) ∧ y = (c, b.slot) ∧ a.strand.pc = b.strand.pc ∧ a.word = b.word) ∧
      ∀ n p, n < 64 → u.strand? c n = some p → ∃ q, t.strand? c n = some q ∧ q.g = p.g ∧ q.pc = p.pc ∧
        ((c, n) ∈ t.issuing → q.st = .issuing ∧ q.age = 0) ∧
        ((c, n) ∉ t.issuing → q.st = p.st ∧ q.age = min (p.age + 1) 1023)) ∧
  (∀ (c : Nat) (s u : State), NothingDue s c → u = (s.cycle c).dueAt c →
    (u.core c).cc = (s.core c).cc + 1 ∧ (u.core c).ptr = (s.core c).ptr ∧ MemKept s u ∧
      (∀ n, u.strand? c n = s.strand? c n) ∧ ∀ k, k ≠ c → u.core k = s.core k) ∧
  (∀ (c n : Nat) (s : State) (p : Strand), s.strand? c n = some p →
    (∀ u, p.pauseUntil = some u → u.toNat ≤ (s.core c).cc.toNat →
      exec (.pauseEnd c n) s = .next (s.putStrand c n { p with pauseUntil := none })) ∧
    (∀ y, p.yielding = some y → y.left = 0 ∨ (s.core c).readyOthers n = [] →
      exec (.yieldEnd c n) s = .next (s.putStrand c n { p with yielding := none })) ∧
    (s.Unwatched → p.st = .ready →
      (∀ u, p.firstStore = some u → (u + 1024).toNat ≤ (s.core c).cc.toNat →
        ∃ t, exec (.regionTimerCommit c n) s = .next t ∧ RegionHanded s t c n p) ∧
      (4096 ≤ p.retired → p.stopped = false → ∃ t, exec (.regionCountCommit c n) s = .next t ∧ RegionHanded s t c n p))) ∧
  (∀ (c n : Nat) (s : State), 0 < (s.core c).sampleDue → (s.core c).phase = .run → (s.core c).sampleSlot = some n →
    ∃ t, exec (.sample c) s = .next t ∧ (t.core c).sampleDue = (s.core c).sampleDue - 1 ∧ (t.core c).sampled = n ∧
      (t.core c).slots = (s.core c).slots ∧ ∀ k, k ≠ c → t.core k = s.core k)

/-- A fault is delivered to a handler strand in the faulted strand's slot while a holder keeps that strand with FCNT one higher;
one that no handler may take ends the context with its code and SID (04 R101, R109 to R112). A deferred fault is raised at its
owner's boundary. A restorable parked strand, a queued migration, a spilled arrival and a message take a free slot in the
order of 07 Table 07.1.

That a fault which ends its context is delivered ahead of older ones is the model's reading (log 28); that a restored strand takes the
lowest free rows is its choice (log 34). -/
def Obligations.FaultAndSlotEvents : Prop :=
  (∀ (c sl h : Nat) (s : State) (p : Strand) (f : FaultRec) (rest : List Nat), (s.core c).phase = .run →
    (s.core c).faultQ = sl :: rest → s.strand? c sl = some p → p.stopped = false → p.st = .faulted f →
    (Handled s p f → (∀ n ∈ rest, Harmless s c n) → (s.core c).freeHolder = some h → (∀ w ∈ s.writes, w.own ≠ p.own) →
      (∀ l ∈ s.loads, l.own ≠ p.own) → (∀ g, g < 4 → ∀ m ∈ (s.gang (coreClu c) g).members, m ≠ (c, p.own)) →
      ∃ t hand, exec (.faultDelivery c) s = .next t ∧ t.strand? c sl = some hand ∧ HandlerOf s p hand sl f ∧
        tfind (t.core c).holders h = some (sl, { p with fcnt := p.fcnt + 1 }) ∧
        (t.core c).faultQ = rest.filter (fun n => n != sl) ∧ SlotsKept s t c sl ∧
        { t with cores := s.cores, fresh := s.fresh } = s)) ∧
  (∀ (c sl : Nat) (s : State) (p : Strand) (f : FaultRec) (before rest : List Nat), (s.core c).phase = .run →
    (s.core c).faultQ = before ++ sl :: rest → (∀ n ∈ before, Harmless s c n) → s.strand? c sl = some p →
    p.stopped = false → p.st = .faulted f → f.code ≠ .replayDiverge → ¬ Handled s p f →
    ∃ t, exec (.faultDelivery c) s = .next t ∧ tfind t.ctxs p.asid.toNat = none ∧
      HostEvent.contextEnd p.asid.toNat (BitVec.ofNat 8 f.code.num) p.sid ∈ t.events) ∧
  (∀ (c n : Nat) (s : State) (p : Strand) (d : Deferred), s.Unwatched → (s.core c).phase = .run → n < 64 →
    s.strand? c n = some p → (p.st = .ready ∧ p.walk = none ∨ ∃ cls x y, p.st = .waiting (.seq cls x y)) →
    p.stopped = false → p.stepping = false → (s.core c).deferred.find? (fun e => e.own == p.own) = some d →
    ∃ t q, exec (.deferredFault c n) s = .next t ∧ t.strand? c n = some q ∧ q.st = .faulted d.f ∧ q.g = p.g ∧ q.pc = p.pc ∧
      q.region = [] ∧ q.sdig = foldStores p.sdig p.region ∧ (t.core c).deferred = (s.core c).deferred.erase d ∧
      (t.core c).faultQ = (s.core c).faultQ ++ [n] ∧ SlotsKept s t c n ∧ MemKept s t) ∧
  (∀ (c sl n : Nat) (s : State) (e : ParkEntry), (s.core c).phase = .run →
    (∀ rest, (s.core c).restorables = (n, e) :: rest → (∀ x ∈ (s.core c).restorables, x.2.slot.isSome = true) →
      e.slot = some sl → e.blocks.length ≤ (s.core c).freeRows.length → Unparked s c sl n e e.strand.age) ∧
    ((s.core c).park = [(n, e)] → e.restorable.isSome = true → e.slot = none → s.firstOf c (e.restorable.getD 0) = true →
      (s.core c).freeSlot = some sl → e.blocks.length ≤ (s.core c).freeRows.length → Unparked s c sl n e 0) ∧
    ((s.core c).restorables.find? (fun x => x.2.slot.isNone) = some (n, e) → (s.core c).freeSlot = some sl →
      s.firstOf c (e.restorable.getD 0) = true →
      (∀ x ∈ (s.core c).restorables, (s.core c).freeRows.length < x.2.blocks.length) → (s.core c).migQ = [] →
      ∃ t, exec (.parkedRestore c) s = .next t ∧
        tfind (t.core c).park n = some { e with slot := some sl, strand := { e.strand with age := 0 } } ∧
        { t.core c with park := (s.core c).park } = s.core c ∧ { t with cores := s.cores } = s ∧
        ∀ k, k ≠ c → t.core k = s.core k)) ∧
  (∀ (c sl : Nat) (s : State), (s.core c).phase = .run → (s.core c).freeSlot = some sl → wfld (s.core c).dbg 4 2 = 0 →
    NoFirst s c →
    (∀ p rest, (s.core c).restorables = [] → (s.core c).migQ = p :: rest → (s.core c).spillQ = [] →
      ∃ t, exec (.parkedRestore c) s = .next t ∧ t.strand? c sl = some (seated s p) ∧ (t.core c).migQ = rest ∧
        SlotsKept s t c sl ∧ MemKept s t) ∧
    (∀ p rest, (s.core c).spillQ = .mig p :: rest →
      ∃ t, exec (.spillQueueRedelivery c) s = .next t ∧ t.strand? c sl = some (seated s p) ∧
        (t.core c).spillQ = rest ∧ SlotsKept s t c sl ∧ MemKept s t) ∧
    (∀ m rest, (s.core c).spillQ = .msg m :: rest →
      ∃ t, exec (.spillQueueRedelivery c) s = .next t ∧ t.strand? c sl = some (seated s (m.strand s.spine.time)) ∧
        (t.core c).spillQ = rest ∧ SlotsKept s t c sl) ∧
    (∀ m rest, NoClaims s c → (s.core c).inbuf = m :: rest → (s.ctx m.asid.toNat).mode ≠ .replay →
      ∃ t q, exec (.messageActivation c) s = .next t ∧ t.strand? c sl = some q ∧ q.pc = pcOf m.handler ∧ q.kind = .message ∧
        (∀ i, i < 6 → q.getG i = vget 0 m.payload i) ∧ q.getG 6 = m.sid ∧ q.getG 7 = m.sent ∧ q.asid = m.asid ∧
        q.sid = m.handlerSid ∧ q.st = .ready ∧ (t.core c).inbuf = rest ∧ SlotsKept s t c sl))

/-- A write is performed: its bytes stand in memory at once, or, at a chiplet reset meanwhile, nowhere (15 R344, 11 R310). A write to
a replicated line locks it and then updates every replica but those of a chiplet reset meanwhile (15 R359). The bytes of a part of a load are taken at one instant; the
load returns to the registers that no later instruction has written, or as a table entry to the PC. WAITCHG retires at a changed value (06 R146, R151, R164).

That a load older than the checkpoint updates the checkpoint's register too is the model's reading, and that a load takes the bytes
of its strand's own stores as it is performed is its choice (both log 24). -/
def Obligations.AccessEvents : Prop :=
  (∀ (s : State) (w : WriteUnit), s.mem.wf = true → s.writes.find? (fun v => v.id == w.id) = some w → NoRetry s w.core →
    (w.repl = false → s.mayWrite w = true → (w.cells.map Prod.fst).Nodup → Comes s w.sent w.core (w.cells.headD (0, 0)).1 w.route →
      s.staleReq w.core (w.cells.headD (0, 0)).1 w.route = false →
      ∃ t, exec (.writePerformed w.id) s = .next t ∧ Written s t w.cells ∧ t.writes = s.writes.filter (fun v => v.id != w.id) ∧
        { t with mem := s.mem, uncorr := s.uncorr, writes := s.writes } = s) ∧
    (w.repl = false → s.mayWrite w = true → Comes s w.sent w.core (w.cells.headD (0, 0)).1 w.route →
      s.staleReq w.core (w.cells.headD (0, 0)).1 w.route = true →
      exec (.writePerformed w.id) s = .next { s with writes := s.writes.filter fun v => v.id != w.id }) ∧
    (w.repl = true → w.locked = false → s.mayWrite w = true → (∀ x ∈ w.cells, s.replLocked x.1 = false) →
      s.replStuck w = false →
      ((∀ n ∈ w.replSites, s.staleTo w.site n = false) →
        exec (.replLockGrant w.id) s =
          .next { s with writes := s.writes.map fun v => if v.id = w.id then { v with locked := true } else v }) ∧
      (∀ n rest, w.replSites = n :: rest → s.staleTo w.site n = true → w.agent = none →
        exec (.replLockGrant w.id) s = .next { s with writes := s.writes.filter fun v => v.id != w.id })) ∧
    (w.locked = true → s.replStuck w = false → (w.cells.map fun x => x.1 % 2 ^ 36).Nodup →
      ∃ t, exec (.replUpdate w.id) s = .next t ∧ t.writes = s.writes.filter (fun v => v.id != w.id) ∧
        (∀ x ∈ w.cells, ∀ k, k < 48 → w.reps.getLsbD k = true → memGet t.mem (k * 2 ^ 36 + x.1 % 2 ^ 36) =
          if s.staleTo w.site (locSite (k * 2 ^ 36 + x.1 % 2 ^ 36)) = true then memGet s.mem (k * 2 ^ 36 + x.1 % 2 ^ 36)
          else x.2) ∧
        (∀ l, (∀ x ∈ w.cells, ∀ k, k < 48 → w.reps.getLsbD k = true → l ≠ k * 2 ^ 36 + x.1 % 2 ^ 36) →
          memGet t.mem l = memGet s.mem l) ∧
        { t with mem := s.mem, uncorr := s.uncorr, writes := s.writes } = s)) ∧
  (∀ (s : State) (l : LoadOp) (i : Nat) (u : RUnit) (p : Strand), s.Unwatched →
    s.loads.find? (fun m => m.id == l.id) = some l → (s.core l.core).allStrands.find? (fun q => q.own == l.own) = some p →
    l.parts[i]? = some u → s.mayRead l i = true → Comes s u.sent l.core (firstOf u) u.route →
    s.staleReq l.core (firstOf u) u.route = false → NoRetry s l.core →
    exec (.readPerformed l.id i) s = .next { s with
      loads := s.loads.map fun m =>
        if m.id = l.id then
          { m with parts := m.parts.set i (takenPart s p l u) }
        else m }) ∧
  (∀ (s : State) (l : LoadOp) (p : Strand) (bytes : List Byte), s.Unwatched →
    s.loads.find? (fun m => m.id == l.id) = some l → l.bytes = some bytes → s.strand? l.core l.slot = some p →
    s.loadPlace l = some (.slot l.slot, p) → Returns s l →
    (∀ n size sgn, l.dest = .g n size sgn → n < 16 →
      ∃ t q, exec (.loadReply l.id) s = .next t ∧ t.strand? l.core l.slot = some q ∧
        (∀ m, m < 16 → q.getG m =
          if m = n ∧ tfind p.board n = some l.id then loadedValue sgn size bytes else p.getG m) ∧
        q.ckpt.g = (if tfind p.ckpt.board n = some l.id then vset p.ckpt.g n (loadedValue sgn size bytes) else p.ckpt.g) ∧
        Landed s t l p q) ∧
    (∀ n, l.dest = .pair n → n + 1 < 16 →
      ∃ t q, exec (.loadReply l.id) s = .next t ∧ t.strand? l.core l.slot = some q ∧
        (∀ m, m < 16 → q.getG m =
          if m = n ∧ tfind p.board n = some l.id then BitVec.ofNat 64 (leNat bytes)
          else if m = n + 1 ∧ tfind p.board (n + 1) = some l.id then BitVec.ofNat 64 (leNat bytes / 2 ^ 64) else p.getG m) ∧
        Landed s t l p q) ∧
    (∀ reg lanes, l.dest = .lanes reg lanes → lanes.Nodup → bytes.length = 4 * lanes.length →
      ∃ t, exec (.loadReply l.id) s = .next t ∧
        (∀ k i j, lanes[k]? = some i → i < 16 → j < 4 → elem 8 ((t.core l.core).vreg (p.phys reg)) (4 * i + j) =
          if tfind p.vboard (64 * reg + (4 * i + j)) = some l.id then (nth 0 bytes (4 * k + j)).toNat
          else elem 8 ((s.core l.core).vreg (p.phys reg)) (4 * i + j)) ∧
        (∀ i, i < 16 → i ∉ lanes → lane ((t.core l.core).vreg (p.phys reg)) i = lane ((s.core l.core).vreg (p.phys reg)) i) ∧
        (∀ m, m ≠ p.phys reg → (t.core l.core).vreg m = (s.core l.core).vreg m) ∧
        t.loads = s.loads.filter (fun m => m.id != l.id) ∧ { t with cores := s.cores, loads := s.loads } = s ∧
        (∀ c, c ≠ l.core → t.core c = s.core c) ∧
        ∀ m r, s.strand? l.core m = some r →
          ∃ r', t.strand? l.core m = some r' ∧ { r' with latches := r.latches, ckpt := r.ckpt, vboard := r.vboard } = r) ∧
    (∀ base, l.dest = .table base → p.st = .waiting (.table l.id) → p.stepping = false → (s.core l.core).phase = .run →
      ∃ t, exec (.loadReply l.id) s = .next t ∧
        t.strand? l.core l.slot = some { p with
          pc := base + (BitVec.ofNat 32 (leNat bytes)).signExtend 64 * 4, st := .ready, retired := p.retired + 1,
          heldSince := none, lastRet := false } ∧
        t.loads = s.loads.filter (fun m => m.id != l.id) ∧ SlotsKept s t l.core l.slot ∧
        { t with cores := s.cores, loads := s.loads } = s)) ∧
  (∀ (s : State) (c n loc k : Nat) (p : Strand) (b r : Word) (d : Dst) (w : Bool) (od : MemOrder), s.Unwatched → n < 64 →
    (s.core c).phase = .run → s.strand? c n = some p → p.st = .waiting (.change loc k b d w od r) → p.stepping = false →
    s.staleReq c loc r = false → Comes s s.fresh c loc r →
    s.behindRspAt loc c (s.fresh, s.route (locSite loc) (coreSite c)) = false →
    (BitVec.ofNat 64 (bytesAt s loc k) ≠ b →
      ∃ t q, exec (if w then .waitchgWake c n else .waitchgPoll c n) s = .next t ∧ t.strand? c n = some q ∧
        p.Wrote q d ((BitVec.ofNat (8 * k) (bytesAt s loc k)).signExtend 64) ∧ q.pc = p.pc + toWord p.word.bytes ∧
        q.st = .ready ∧ SlotsKept s t c n ∧ { t with cores := s.cores } = s) ∧
    (BitVec.ofNat 64 (bytesAt s loc k) = b → exec (if w then .waitchgWake c n else .waitchgPoll c n) s = .next s))

/-- An arrival counts at its cell and combines its value; it waits as a join, or answers with the generation; the last one releases
the joins with VAL and closes the generation, or holds it for the takes that it owes. A take of that generation takes VAL, of a
closed one returns, and else waits; with no room to wait a step goes back to its core and is sent again (06 R167, R169, R170).

The PAS gives an operation the next sequence number and sends it to its home with a lock; full, it returns it. The home performs
it, the first of its location, and the PAS passes the result on (16 R373, R374). -/
def Obligations.RendezvousEvents : Prop :=
  ((∀ (s : State) (a : AtomOp) (p : Strand) (x y : RvCell), s.mem.wf = true → s.Unwatched → s.ColophonOff a.asid → OpAt s a p →
    AtHome s a → a.kind = .rvJoin ∨ a.kind = .rvArrive → x = s.cell a.loc → x.rel = false → y = arrivedCell x a →
    QuietCell s a.loc →
    (y.cnt ≠ y.parties → a.kind = .rvArrive ∨ s.hasRoom a.home = true →
      ∃ t, exec (.rendezvousArrive a.id) s = .next t ∧ t.cell a.loc = y ∧
        t.atoms = s.atoms.map (fun b => if b.id = a.id then
          (if a.kind = .rvJoin then { a with gen := x.gen, heldUp := false, stage := .waiting }
           else { replied s a (x.gen.setWidth 128) with gen := x.gen }) else b) ∧
        t.strand? a.core a.slot =
          some (if a.kind = .rvJoin then { p with st := .waiting (.join a.id x.gen) } else p) ∧ CellOnly s t a) ∧
    (y.cnt ≠ y.parties → a.kind = .rvJoin → s.hasRoom a.home = false →
      ∃ t, exec (.rendezvousArrive a.id) s = .next t ∧ OpMoved s t a { a with stage := .returned, heldUp := false }) ∧
    (y.cnt = y.parties →
      ∃ t, exec (.rendezvousArrive a.id) s = .next t ∧
        t.cell a.loc = (if y.owe = 0 then closedCell y else { y with rel := true }) ∧
        t.atoms = s.atoms.map (fun b =>
          if b.id = a.id then
            { replied s a (if a.kind = .rvJoin then y.val.setWidth 128 else x.gen.setWidth 128) with gen := x.gen }
          else if b.loc = a.loc ∧ b.kind = .rvJoin ∧ b.stage = .waiting ∧ b.gen = x.gen then
            { b with stage := .reply (y.val.setWidth 128), rsp := s.respNow b }
          else b) ∧
        t.strand? a.core a.slot =
          some (if a.kind = .rvJoin then { p with st := .waiting (.join a.id x.gen) } else p) ∧ CellOnly s t a)) ∧
  (∀ (s : State) (a : AtomOp) (p : Strand) (x : RvCell), s.mem.wf = true → s.Unwatched → s.ColophonOff a.asid → OpAt s a p →
    AtHome s a → a.kind = .rvWait → x = s.cell a.loc → QuietCell s a.loc →
    (x.gen ≠ a.b.setWidth 8 → ∃ t, exec (.rendezvousTake a.id) s = .next t ∧ t.cell a.loc = x ∧ CellOnly s t a ∧
      t.atoms = s.atoms.map fun b => if b.id = a.id then replied s a (x.val.setWidth 128) else b) ∧
    (x.gen = a.b.setWidth 8 → x.rel = true →
      ∃ t, exec (.rendezvousTake a.id) s = .next t ∧ t.cell a.loc = takenCell x ∧ CellOnly s t a ∧
        t.atoms = s.atoms.map fun b => if b.id = a.id then replied s a (x.val.setWidth 128) else b) ∧
    (x.gen = a.b.setWidth 8 → x.rel = false → s.hasRoom a.home = true →
      ∃ t, exec (.rendezvousTake a.id) s = .next t ∧ t.cell a.loc = x ∧ CellOnly s t a ∧
        t.atoms = s.atoms.map (fun b => if b.id = a.id then
          { a with stage := .waiting, heldUp := false, arrived := s.fresh } else b) ∧
        t.strand? a.core a.slot = some { p with st := .waiting (.join a.id a.gen) }) ∧
    (x.gen = a.b.setWidth 8 → x.rel = false → s.hasRoom a.home = false →
      ∃ t, exec (.rendezvousTake a.id) s = .next t ∧ OpMoved s t a { a with stage := .returned, heldUp := false })) ∧
  (∀ (s : State) (a : AtomOp) (p : Strand) (res : BitVec 128) (gen : BitVec 8), s.Unwatched → s.mem.wf = true → OpAt s a p →
    a.kind = .rvJoin ∨ a.kind = .rvArrive ∨ a.kind = .rvWait → a.stage = .reply res → p.st = .waiting (.join a.id gen) →
    ReplyComes s a →
    ((s.core a.core).phase = .run →
      ∃ t q, exec (.releaseReply a.id) s = .next t ∧ t.strand? a.core a.slot = some q ∧
        p.Wrote q a.d (res.setWidth 64) ∧ q.sord = p.sord + 1 ∧ q.pc = p.pc + toWord p.word.bytes ∧ q.st = .ready ∧
        t.atoms = s.atoms.filter (fun b => b.id != a.id) ∧ SlotsKept s t a.core a.slot ∧
        { t with cores := s.cores, atoms := s.atoms } = s) ∧
    ((s.core a.core).phase ≠ .run → .release a.slot a.id res ∉ (s.core a.core).replies →
      ∃ t, exec (.releaseReply a.id) s = .next t ∧ ReplyKept s t a.core (.release a.slot a.id res))) ∧
  (∀ (s : State) (a : AtomOp) (p : Strand), OpAt s a p → a.stage = .returned → (s.core a.core).phase = .run →
    ((a.kind = .rvJoin ∨ a.kind = .rvArrive ∨ a.kind = .rvWait) →
      ∃ t, exec (.rendezvousResend a.id) s = .next t ∧
        OpMoved s t a (resent s a)) ∧
    (a.scope = .pkg ∨ a.scope = .sys →
      ∃ t, exec (.pasResend a.id) s = .next t ∧ OpMoved s t a (resent s a)))) ∧
  ((∀ (s : State) (a : AtomOp) (p : Strand), OpAt s a p → s.ColophonOff a.asid → a.stage = .toPas → s.atomReady a = true →
    s.staleAt (coreSite a.core) spineSite a.route = false → s.pathClear (coreSite a.core) spineSite a.route = true →
    (s.pasHeld < 1024 →
      ∃ t r, exec (.pasAccept a.id) s = .next t ∧ t.spine = { s.spine with pasSeq := s.spine.pasSeq + 1 } ∧
        t.atoms = s.atoms.map (fun b => if b.id = a.id then { a with
          stage := .locking s.spine.pasSeq r, heldUp := false, arrived := 0, route := s.route spineSite (locSite a.loc) } else b) ∧
        (∀ c n, t.strand? c n = s.strand? c n) ∧ { t with cores := s.cores, atoms := s.atoms, spine := s.spine } = s) ∧
    (1024 ≤ s.pasHeld → ∃ t, exec (.pasAccept a.id) s = .next t ∧ OpMoved s t a { a with stage := .returned, heldUp := false })) ∧
  (∀ (s : State) (a : AtomOp) (p : Strand) (n : Word) (r : BitVec 32), s.mem.wf = true → s.Unwatched → OpAt s a p →
    s.ColophonOff a.asid → a.stage = .locking n r →
    locTag a.loc = 4 ∨ s.staleAt spineSite (locSite a.loc) a.route = false → (∃ f, a.kind = .aop f) ∨ a.kind = .cas ∨ a.kind = .cas2 →
    (∀ b ∈ s.atoms, b.id ≠ a.id → b.loc / 16 = a.loc / 16 → ∀ m, b.stage.number = some m → n.toNat < m.toNat) →
    ∃ t, exec (.pasLock a.id) s = .next t ∧ Stores s t a.loc a.bytes (atomicRule a (bytesAt s a.loc a.bytes)) ∧
      t.atoms = s.atoms.map (fun b => if b.id = a.id then
        { a with stage := .pasResult n (BitVec.ofNat 128 (bytesAt s a.loc a.bytes)), heldUp := false, rsp := s.respNow a } else b) ∧
      t.writes = s.writes ∧ t.loads = s.loads ∧ ∀ c k, t.strand? c k = s.strand? c k) ∧
  (∀ (s : State) (a : AtomOp) (p : Strand) (n : Word), OpAt s a p → s.resultLost a = false →
    s.pathClear (locSite a.loc) spineSite (s.route (locSite a.loc) spineSite) = true →
    (∀ res, a.stage = .pasResult n res →
      ∃ t, exec (.pasResult a.id) s = .next t ∧ OpMoved s t a { a with stage := .reply res, arrived := 0 }) ∧
    (a.stage = .pasFail n → ∃ t, exec (.pasResult a.id) s = .next t ∧ OpMoved s t a { a with stage := .returned })))

/-- A held presentation presents again when its lane lets it on and no earlier one may go on (17 R391); an operation that came back
unperformed leaves its core again (17 R392).

Lanes (17 R396 to R398): firmware drains a RECORD lane and fills a REPLAY lane, sets END, and reports a full lane once; a replay
that waits longer than COLTMO at a record is a divergence, which stops the context. -/
def Obligations.LaneEvents : Prop :=
  ((∀ (s : State) (c n lane : Nat) (p : Strand), (s.core c).phase = .run → s.strand? c n = some p →
    p.st = .waiting (.held lane) →
    (∀ e ∈ s.cores, ∀ x ∈ e.2.strandsWhere (fun t => t.waitNo == p.waitNo), e.1 = c ∧ x = (.slot n, p)) →
    s.mayPresent p.asid.toNat lane p = true →
    (∀ e ∈ s.heldStrands p.asid.toNat lane, e.2.2.waitNo < p.waitNo → s.mayPresent p.asid.toNat lane e.2.2 = false) →
    exec (.presentation p.waitNo) s = .next (s.putStrand c n { p with st := .ready })) ∧
  (∀ (s : State) (a : AtomOp) (p : Strand), OpAt s a p → a.stage = .returned → (s.core a.core).phase = .run →
    (∀ m ∈ s.sends, m.id ≠ a.id) →
    ∃ t, exec (.presentationResend a.id) s = .next t ∧ OpMoved s t a (resent s a)) ∧
  (∀ (s : State) (m : SendOp), s.atom? m.id = none → m ∈ s.sends → (s.sends.map (·.id)).Nodup → m.stage = .returned →
    m.packet.isSome = true ∨ (s.core m.core).phase = .run →
    exec (.presentationResend m.id) s =
      .next { s with sends := s.sends.map fun x => if x.id = m.id then
        { m with stage := .toDest, sent := s.fresh,
                 route := if m.packet.isSome = true then m.route else s.route (coreSite m.core) (coreSite m.dest) } else x })) ∧
  ((∀ (s : State) (a : Nat) (x : Ctx), tfind s.ctxs a = some x →
    (x.mode = .replay → ∃ t, exec (.endSet a) s = .next t ∧ tfind t.ctxs a = some { x with endSet := true } ∧
      { t with ctxs := s.ctxs } = s) ∧
    (x.mode ≠ .replay → exec (.endSet a) s = .next s)) ∧
  (∀ (s : State) (a lane : Nat) (recs : List (BitVec 256)), s.mem.wf = true → (s.ctx a).mode = .replay →
    recs.length ≤ 2 ^ (s.ctx a).segLog - ((s.laneOf a lane).q - (s.laneOf a lane).p).toNat →
    ((List.range recs.length).flatMap fun i => s.recordLocs a lane ((s.laneOf a lane).q.toNat + i)).Nodup →
    (∀ i, i < recs.length → (s.recordLocs a lane ((s.laneOf a lane).q.toNat + i)).length = 32) →
    ∃ t, exec (.laneFill a lane recs) s = .next t ∧ laneRecords { s with mem := t.mem } a lane recs.length = recs ∧
      t.laneOf a lane = { s.laneOf a lane with q := (s.laneOf a lane).q + BitVec.ofNat 32 recs.length } ∧
      { t with mem := s.mem, uncorr := s.uncorr, lanes := s.lanes } = s) ∧
  (∀ (s : State) (a lane n : Nat), (s.ctx a).mode = .record → 0 < n → n ≤ s.drainable a lane →
    ∃ t, exec (.laneDrain a lane n) s = .next t ∧ t.events = s.events ++ [.drained a lane (laneRecords s a lane n)] ∧
      t.laneOf a lane = { s.laneOf a lane with q := (s.laneOf a lane).q + BitVec.ofNat 32 n, waited := 0, warned := false } ∧
      { t with lanes := s.lanes, events := s.events } = s) ∧
  (∀ (s : State) (a lane : Nat), (s.ctx a).mode = .record → s.laneFull a lane 0 = true → (s.laneOf a lane).warned = false →
    s.stallLimit a lane < (s.laneOf a lane).waited →
    ∃ t, exec (.laneStallReport a lane) s = .next t ∧ t.events = s.events ++ [.laneStall a lane] ∧
      t.laneOf a lane = { s.laneOf a lane with warned := true } ∧ { t with lanes := s.lanes, events := s.events } = s) ∧
  ∀ (s : State) (a lane : Nat), (s.ctx a).mode = .replay → (s.ctx a).stop = false → s.laneWaits a lane = true →
    s.stallLimit a lane < (s.laneOf a lane).waited →
    ∃ t bits, exec (.replayStall a lane) s = .next t ∧ t.ctx a = { s.ctx a with stop := true } ∧
      t.events = s.events ++ [.divergence a bits] ∧ (bits.extractLsb' 160 16).toNat = lane % 2 ^ 16 ∧
      t.agenda = (s.coresOf a).map .preemptionRequest ++ s.agenda ∧ t.cores = s.cores)

/-- A message that reaches a core which takes its context's messages is accepted while there is room, in its buffer or, pre-empted,
in its spill queue, whose entry in memory it fills, and else refused; another core does not take it (16 R368, R369, R372; 07 R202).
Its status reaches its sender, whose send retires with it (16 R364, R365). -/
def Obligations.MessageEvents : Prop :=
  (∀ (s : State) (m : SendOp) (g : ActMsg), SendAt s m → g = { m.msg with arrived := s.spine.time } →
    (m.packet = none → s.staleAt (coreSite m.core) (coreSite m.dest) m.route = true →
      ∃ t, exec (.messageArrival m.id) s = .next t ∧ SendMoved s t m { m with stage := .stale }) ∧
    (m.packet.isSome = true ∨ s.staleAt (coreSite m.core) (coreSite m.dest) m.route = false →
      (s.takesMsgs m.dest m.msg.asid = false →
        ∃ t, exec (.messageArrival m.id) s = .next t ∧ SendMoved s t m (statused s m 2)) ∧
      (s.takesMsgs m.dest m.msg.asid = true →
        ((s.core m.dest).phase = .run → (s.core m.dest).inbuf.length < (s.core m.dest).quota →
          ∃ t, exec (.messageArrival m.id) s = .next t ∧ Answered s t m 0 ∧ t.mem = s.mem ∧ t.uncorr = s.uncorr ∧
            (t.core m.dest).inbuf = (s.core m.dest).inbuf ++ [g] ∧ (t.core m.dest).spillQ = (s.core m.dest).spillQ) ∧
        ((s.core m.dest).phase ≠ .run → spilled s m.dest < 1024 → s.mem.wf = true →
          ∃ t, exec (.messageArrival m.id) s = .next t ∧ Answered s t m 0 ∧ EntryWritten s t m.dest (some g.word) ∧
            (t.core m.dest).spillQ = (s.core m.dest).spillQ ++ [.msg g] ∧ (t.core m.dest).inbuf = (s.core m.dest).inbuf) ∧
        (((s.core m.dest).phase = .run ∧ (s.core m.dest).quota ≤ (s.core m.dest).inbuf.length) ∨
            ((s.core m.dest).phase ≠ .run ∧ 1024 ≤ spilled s m.dest) →
          ∃ t, exec (.messageArrival m.id) s = .next t ∧ Answered s t m 1 ∧ t.mem = s.mem ∧ t.uncorr = s.uncorr ∧
            (t.core m.dest).inbuf = (s.core m.dest).inbuf ∧ (t.core m.dest).spillQ = (s.core m.dest).spillQ)))) ∧
  (∀ (s : State) (m : SendOp) (p : Strand) (st : BitVec 8), s.Unwatched →
    s.sends.find? (fun x => x.id == m.id) = some m → m.stage = .status st →
    (m.packet = none → s.waiter m.core (fun w => w == .reply m.id) = some (.slot m.slot, p) →
      s.strand? m.core m.slot = some p → p.stepping = false → p.asid = m.msg.asid → p.lh = m.msg.lh →
      s.statusLost m = false → s.statusStuck m = false → s.behindRsp m.dest m.core m.msg.urg m.rsp = false →
      ∃ t q, exec (.sendStatus m.id) s = .next t ∧ t.strand? m.core m.slot = some q ∧
        p.Wrote q m.d (st.setWidth 64) ∧ q.sord = p.sord + 1 ∧ q.pc = p.pc + toWord p.word.bytes ∧ q.st = .ready ∧
        t.sends = s.sends.filter (fun x => x.id != m.id) ∧ SlotsKept s t m.core m.slot ∧
        { t with cores := s.cores, sends := s.sends } = s) ∧
    (m.packet.isSome = true → st = 1 → (s.sends.map (·.id)).Nodup →
      ∃ t, exec (.sendStatus m.id) s = .next t ∧ SendMoved s t m { m with stage := .toDest }))

/-- An arriving strand takes a free slot as READY when no earlier claimant waits, else a place in the migration queue or, at a
pre-empted core, in the spill queue; without room, or at a core given to another context meanwhile, it goes back and is sent
again (06 R174; 07 R203). One for a chiplet reset
meanwhile is back at its source, FAULTED with STALE, deferred (11 R310). -/
def Obligations.MigrationEvents : Prop :=
  (∀ (s : State) (m : MigOp), MigAt s m → s.staleAt (coreSite m.src) (coreSite m.dest) m.route = false →
    (∀ n, (s.core m.dest).phase = .run → (s.core m.dest).freeSlot = some n → NoClaims s m.dest →
      wfld (s.core m.dest).dbg 4 2 = 0 →
      ∃ t, exec (.migrationArrival m.id) s = .next t ∧ Arrived s t m ∧ t.mem = s.mem ∧
        t.strand? m.dest n = some (seated s m.strand) ∧ SlotsKept s t m.dest n) ∧
    ((s.core m.dest).phase = .run → SlotsClaimed s m.dest → (s.core m.dest).migQ.length < 4 →
      ∃ t, exec (.migrationArrival m.id) s = .next t ∧ Arrived s t m ∧ t.mem = s.mem ∧
        t.core m.dest = { s.core m.dest with migQ := (s.core m.dest).migQ ++ [m.strand] }) ∧
    ((s.core m.dest).phase ≠ .run → spilled s m.dest < 1024 → s.mem.wf = true →
      ∃ t, exec (.migrationArrival m.id) s = .next t ∧ Arrived s t m ∧ EntryWritten s t m.dest none ∧
        t.core m.dest = { s.core m.dest with spillQ := (s.core m.dest).spillQ ++ [.mig m.strand] }) ∧
    (((s.core m.dest).phase = .run ∧ SlotsClaimed s m.dest ∧ 4 ≤ (s.core m.dest).migQ.length) ∨
        ((s.core m.dest).phase ≠ .run ∧ 1024 ≤ spilled s m.dest) →
      exec (.migrationArrival m.id) s = .next { s with
        migs := s.migs.map fun x => if x.id = m.id then { m with stage := .returned, heldUp := false } else x })) ∧
  (∀ (s : State) (m : MigOp), MigAt s m → s.staleAt (coreSite m.src) (coreSite m.dest) m.route = true →
    exec (.migrationArrival m.id) s =
      .next { s with fresh := s.fresh + 1,
                     migs := s.migs.map fun x => if x.id = m.id then { m with stage := .stale, since := s.fresh } else x }) ∧
  (∀ (s : State) (m : MigOp), s.migs.find? (fun x => x.id == m.id && x.stage == .toDest) = some m → (s.migs.map (·.id)).Nodup →
    (s.core m.dest).serves m.strand.asid = false →
    exec (.migrationArrival m.id) s = .next { s with
      migs := s.migs.map fun x => if x.id = m.id then { m with stage := .returned, heldUp := false } else x }) ∧
  (∀ (s : State) (m : MigOp), m ∈ s.migs → (s.migs.map (·.id)).Nodup → m.stage = .returned →
    m.heldUp = false ∨ (s.core m.src).running = true →
    exec (.migrationResend m.id) s = .next { s with migs := s.migs.map fun x => if x.id = m.id then
      { m with stage := .toDest, heldUp := false, route := s.route (coreSite m.src) (coreSite m.dest), sent := s.fresh } else x }) ∧
  (∀ (s : State) (m : MigOp) (n : Nat), s.migs.find? (fun x => x.id == m.id && x.stage == .stale) = some m →
    (s.core m.src).phase = .run → (s.core m.src).freeSlot = some n → wfld (s.core m.src).dbg 4 2 = 0 →
    (s.core m.src).serves m.strand.asid = true → s.firstOf m.src m.since = true →
    ∃ t, exec (.migrationStale m.id) s = .next t ∧ t.migs = s.migs.filter (fun x => x.id != m.id) ∧
      t.strand? m.src n = some { seated s m.strand with
        st := .faulted { code := .stale, sub := 0, deferred := true, word := m.word, pc := m.pc, addr := 0 } } ∧
      (t.core m.src).faultQ = (s.core m.src).faultQ ++ [n] ∧ SlotsKept s t m.src n ∧
      { t with cores := s.cores, migs := s.migs, fresh := s.fresh } = s)

/-- The pager's reply makes its sleeping strand READY, or FAULTED with the code that it names and SUB 0x70; at a core that is not in
RUN it is written to the reply area (04 R110; 07 R202). What is under way to or from a chiplet that has been reset is answered
STALE: the strand that waits faults at its load, atomic, rendezvous, WAITCHG or send (11 R310). A packet that a router returned
leaves again by the route entry of now, and with no route its context ends (14 R334).

That a strand which ran on after the load goes back to the load's PC, its later loads dropped and its region committed, is the
model's reading (log 19). -/
def Obligations.ReplyEvents : Prop :=
  (∀ (s : State) (r : PageReply) (c n : Nat) (p : Strand) (w : PageWait),
    s.pageReplies.find? (fun x => x.site == r.site && x.req.tag == r.req.tag) = some r → r.req.op = none →
    s.cores.findSome? (fun e => (e.2.sleeper r.req).map fun pl => (e.1, pl)) = some (c, .slot n) → n < 64 →
    s.strand? c n = some p → p.st = .sleeping w → p.stepping = false →
    ((s.core c).phase = .run → r.code = 0 →
      ∃ t, exec (.pageReply r.site r.req.tag) s = .next t ∧ t.strand? c n = some { p with st := .ready } ∧
        SlotsKept s t c n ∧ { t with cores := s.cores, pageReplies := s.pageReplies } = s ∧
        t.pageReplies = s.pageReplies.erase r) ∧
    (∀ code, (s.core c).phase = .run → (r.code, code) ∈ replyFault →
      ∃ t, exec (.pageReply r.site r.req.tag) s = .next t ∧
        t.strand? c n = some { p with
          walk := none,
          st := .faulted { code := code, sub := 0x70, deferred := false, word := w.word, pc := p.pc, addr := w.va } } ∧
        (t.core c).faultQ = (s.core c).faultQ ++ [n] ∧ SlotsKept s t c n ∧ t.pageReplies = s.pageReplies.erase r) ∧
    ((s.core c).phase ≠ .run → s.mem.wf = true →
      ∃ t, exec (.pageReply r.site r.req.tag) s = .next t ∧
        ReplyKept { s with pageReplies := s.pageReplies.erase r } t c (.page n r.code))) ∧
  ((∀ (s : State) (l : LoadOp) (p : Strand), s.Unwatched → s.loads.find? (fun m => m.id == l.id) = some l → s.staleLoad l ≠ .no →
    s.loadPlace l = some (.slot l.slot, p) → p.st = .ready ∨ p.st = .waiting (.table l.id) →
    s.strand? l.core l.slot = some p → p.stepping = false →
    ∃ t, exec (.staleResponse l.id) s = .next t ∧ StaleAt s t l.core l.slot p l.pc l.word (s.staleLoad l) ∧
      t.loads = (s.keptLoads l.core p.own p.region).filter fun m => m.own != l.own || decide (m.seq < l.seq)) ∧
  (∀ (s : State) (a : AtomOp) (p : Strand), s.Unwatched → (∀ l ∈ s.loads, l.id ≠ a.id) → s.atom? a.id = some a →
    s.staleAtom a ≠ .no → s.staleWaiter a.core a.id = some (.slot a.slot, p) →
    s.strand? a.core a.slot = some p → p.stepping = false →
    ∃ t, exec (.staleResponse a.id) s = .next t ∧ StaleAt s t a.core a.slot p a.pc a.word (s.staleAtom a) ∧
      t.atoms = s.atoms.filter fun b => b.id != a.id) ∧
  (∀ (s : State) (m : SendOp) (p : Strand), s.Unwatched → (∀ l ∈ s.loads, l.id ≠ m.id) → s.atom? m.id = none →
    s.sends.find? (fun x => x.id == m.id && x.packet.isNone) = some m → s.staleSend m ≠ .no →
    s.staleWaiter m.core m.id = some (.slot m.slot, p) → s.strand? m.core m.slot = some p → p.stepping = false →
    ∃ t, exec (.staleResponse m.id) s = .next t ∧ StaleAt s t m.core m.slot p m.pc m.word (s.staleSend m) ∧
      t.sends = s.sends.filter fun x => x.id != m.id) ∧
  (∀ (s : State) (id c n : Nat) (p : Strand), s.Unwatched → (∀ l ∈ s.loads, l.id ≠ id) → s.atom? id = none →
    (∀ m ∈ s.sends, m.id ≠ id) → s.staleWatch id = some (c, .slot n, p) → s.strand? c n = some p → p.stepping = false →
    ∃ t, exec (.staleResponse id) s = .next t ∧ StaleAt s t c n p p.pc p.word .no)) ∧
  (∀ (s : State) (id : Nat) (f : Flight), (s.flights id).find? (fun f => !s.pathClear f.src f.dst f.route) = some f →
    (s.routable f.src f.dst = true →
      ∃ t, exec (.routedPacketReturn id) s = .next t ∧ Rerouted s t id f (s.route f.src f.dst)) ∧
    (s.routable f.src f.dst = false →
      ∃ t, exec (.routedPacketReturn id) s = .next t ∧ tfind t.ctxs f.asid = none ∧
        HostEvent.contextEnd f.asid 0x12 f.sid ∈ t.events))

/-- A dispatcher places the next index of a launch, or a queued child, in the lowest free slot of its core (11 R304). A thief asks
its victim, which gives up the upper half of its range; the thief takes it, or asks the next rank after an empty reply (11 R305). -/
def Obligations.DispatcherEvents : Prop :=
  (∀ (s : State) (site c sl : Nat) (r : DispRange), s.nextPlacement site = some (c, .inr r) → r.asid < 4096 → s.ColophonOff r.asid →
    (s.core c).freeSlot = some sl → wfld (s.core c).dbg 4 2 = 0 →
    (∀ x ∈ (s.chip site).ranges, x.asid = r.asid → x.lh = r.lh → x = r) → r.out = [] →
    ∃ t q, exec (.dispatcherPlacement site) s = .next t ∧ t.strand? c sl = some q ∧ LaunchedAs s r.asid r.lh r.s q ∧
      RangesOnly s t site ((s.chip site).ranges.map fun x =>
        if x.asid = r.asid ∧ x.lh = r.lh then { x with s := x.s + 1, n := x.n - 1 } else x) ∧
      SlotsKept s t c sl ∧ { t with cores := s.cores, chiplets := s.chiplets, fresh := s.fresh } = s) ∧
  (∀ (s : State) (site c sl : Nat) (p : Strand), s.nextPlacement site = some (c, .inl p) → s.ColophonOff p.asid.toNat →
    (s.core c).freeSlot = some sl → wfld (s.core c).dbg 4 2 = 0 → p.wait? = none →
    (∀ k ∈ s.siteCores site, (∀ e ∈ (s.core k).slots, e.2.wait? ≠ some .spawn) ∧
      ∀ e ∈ (s.core k).park, e.2.strand.wait? ≠ some .spawn) →
    ∃ t, exec (.dispatcherPlacement site) s = .next t ∧ t.strand? c sl = some (seated s p) ∧
      (t.chip site).children = (s.chip site).children.erase p ∧ SlotsKept s t c sl ∧ MemKept s t) ∧
  (∀ (s : State) (site asid lh v : Nat) (r : DispRange), (s.chip site).range asid (BitVec.ofNat 32 lh) = some r → r.n = 0 →
    r.asking = false → (s.ctx asid).mode ≠ .replay →
    (s.bestCore site asid (BitVec.ofNat 32 lh) (some (s.launch asid (BitVec.ofNat 32 lh).toNat).cap)).isSome = true →
    s.victim site r = some v →
    ∃ t x, exec (.stealRequest site asid lh) s = .next t ∧ t.steals = s.steals ++ [x] ∧ x.asid = asid ∧
      x.lh = BitVec.ofNat 32 lh ∧ x.thief = site ∧ x.victim = v ∧ x.ans = none ∧
      RangesOnly s t site ((s.chip site).ranges.map fun y =>
        if y.asid = asid ∧ y.lh = BitVec.ofNat 32 lh then { y with asking := true } else y) ∧
      { t with chiplets := s.chiplets, steals := s.steals, fresh := s.fresh } = s) ∧
  (∀ (s : State) (x : Steal) (r : DispRange), s.steals.find? (fun y => y.id == x.id && y.ans.isNone) = some x →
    (s.steals.map (·.id)).Nodup → s.ColophonOff x.asid → (s.chip x.victim).range x.asid x.lh = some r →
    ∃ t, exec (.stealAnswer x.id) s = .next t ∧
      t.steals = s.steals.map (fun y => if y.id = x.id then { x with ans := some (r.s + r.n - r.n / 2, r.n / 2) } else y) ∧
      RangesOnly s t x.victim ((s.chip x.victim).ranges.map fun y =>
        if y.asid = x.asid ∧ y.lh = x.lh then { y with n := y.n - r.n / 2 } else y) ∧
      { t with chiplets := s.chiplets, steals := s.steals } = s) ∧
  (∀ (s : State) (x : Steal) (r : DispRange) (first count : Nat), s.steals.find? (fun y => y.id == x.id) = some x →
    x.ans = some (first, count) → (s.chip x.thief).range x.asid x.lh = some r → r.n = 0 →
    ∃ t, exec (.stealReply x.id) s = .next t ∧ t.steals = s.steals.filter (fun y => y.id != x.id) ∧
      RangesOnly s t x.thief ((s.chip x.thief).ranges.map fun y =>
        if y.asid = x.asid ∧ y.lh = x.lh then
          (if count = 0 then { y with asked := y.asked + 1, asking := false }
           else { y with s := first, n := count, asked := 0, asking := false })
        else y) ∧
      { t with chiplets := s.chiplets, steals := s.steals } = s)

/-- A request takes a core with a context out of RUN: each ready strand is at its boundary, its open region aborted; a strand in a
wait instruction keeps its wait, to execute it again; and the input buffer has moved to the spill queue (07 R198, R199; 04 Table
04.7). QUIESCE ends once the issued work has settled; a save writes the register file, the scratchpad and each strand's PC at their
places of the save area and nothing beyond the area; a saved core whose cluster has power restores, takes what stands in the save
area, and is in RUN with P at 0 and no latch held (07 R199 to R203). A saved logical core moves to a spare core, whose cycle count
runs on (14 R328; 05 R140). -/
def Obligations.PreemptionEvents : Prop :=
  (∀ (s : State) (c : Nat), s.Unwatched → s.mem.wf = true → (s.core c).phase = .run → (s.core c).ctxv = true → Ungang s c →
    ∃ t, exec (.preemptionRequest c) s = .next t ∧ (t.core c).phase = .quiesce ∧ (t.core c).inbuf = [] ∧
      (t.core c).spillQ = (s.core c).spillQ ++ (s.core c).inbuf.map .msg ∧ (∀ k, k ≠ c → t.core k = s.core k) ∧
      (∀ l, l ∉ s.areaFrom (s.core c).savea (0x200000 + 128 * s.spillBase c)
          (128 * ((s.core c).spillQ.length + (s.core c).inbuf.length)) → memGet t.mem l = memGet s.mem l) ∧
      (∀ n p, s.strand? c n = some p → p.st = .ready →
        ∃ q, t.strand? c n = some q ∧ q.st = .ready ∧ q.pauseUntil = none ∧ q.yielding = none ∧
          q.pc = (if p.ckptDue then p.pc else p.ckpt.pc) ∧ q.g = (if p.ckptDue then p.g else p.ckpt.g) ∧
          (p.ckptDue = false → q.region = [] ∧ q.sdig = p.ckpt.sdig)) ∧
      ∀ n p w, s.strand? c n = some p → p.st = .waiting w → w.reexecutes = true →
        ∃ q, t.strand? c n = some q ∧ q.st = .kept w ∧ q.pc = p.pc ∧ q.g = p.g) ∧
  (∀ (s : State) (c : Nat), (s.core c).phase = .restoring →
    ∃ t, exec (.preemptionRequest c) s = .next t ∧ t.core c = { s.core c with preemptAsked := true }) ∧
  (∀ (s : State) (c : Nat), (s.core c).phase = .quiesce →
    (s.settled c = true → ∃ t, exec (.quiesceEnd c) s = .next t ∧ (t.core c).phase = .saving ∧
      (∀ k, k ≠ c → t.core k = s.core k) ∧ MemKept s t) ∧
    (s.settled c = false → exec (.quiesceEnd c) s = .next s)) ∧
  (∀ (s : State) (c : Nat), s.mem.wf = true → (s.core c).phase = .saving →
    ∃ t v, exec (.saveComplete c) s = .next t ∧ t.core c = { s.core c with phase := .saved, saves := (s.core c).saves + 1 } ∧
      t.saved = s.saved.filter (fun w => w.image.savea != (s.core c).savea) ++ [v] ∧ v.image = t.core c ∧ v.core = c ∧
      v.asid = BitVec.ofNat 12 (s.core c).asid ∧ v.stashed = false ∧ t.events = s.events ++ [.saved c] ∧
      t.agenda = (if (s.core c).resumeAsked then [.resumeMessage c] else []) ++ s.agenda ∧
      (∀ l, (∀ o, o < 0x200000 → s.saveLoc c o ≠ some l) → memGet t.mem l = memGet s.mem l) ∧
      (inHbm (s.core c).savea.toNat 0x400000 = true → ∀ o b, o < 0x200000 → s.saveByte c o = some b →
        ∃ l, s.saveLoc c o = some l ∧ memGet t.mem l = b) ∧
      (∀ n i, n < 384 → i < 64 →
        s.saveByte c (0x10000 + 64 * n + i) = some (((s.core c).vreg n).extractLsb' (8 * i) 8)) ∧
      (∀ o, o < s.coreWin c → s.saveByte c (0x80000 + o) = some (memGet s.mem (locCore c o))) ∧
      ∀ n p i, n < 64 → i < 8 → s.strand? c n = some p →
        s.saveByte c (0x1000 + 256 * n + i) = some (p.pc.extractLsb' (8 * i) 8)) ∧
  (∀ (s : State) (c : Nat),
    ((s.core c).phase = .saved → (s.clu (coreClu c)).power = .up →
      (∃ v ∈ s.saved, v.image.savea = (s.core c).savea) →
      ∃ t, exec (.resumeMessage c) s = .next t ∧
        t.core c = { s.core c with phase := .restoring, resumeAsked := false } ∧ { t with cores := s.cores } = s) ∧
    ((s.core c).phase = .saved → (s.clu (coreClu c)).power = .gated →
      ∃ t, exec (.resumeMessage c) s = .next t ∧ t.core c = { s.core c with resumeAsked := true } ∧
        (t.clu (coreClu c)).power = .asking ∧ t.spine.wakeQ = s.spine.wakeQ ++ [coreClu c]) ∧
    ((s.core c).phase = .quiesce ∨ (s.core c).phase = .saving →
      ∃ t, exec (.resumeMessage c) s = .next t ∧ t.core c = { s.core c with resumeAsked := true } ∧
        { t with cores := s.cores } = s)) ∧
  (∀ (s : State) (c : Nat) (v : Saved), s.mem.wf = true → (s.core c).phase = .restoring →
    s.saved.find? (fun w => w.image.savea == (s.core c).savea) = some v → v.stashed = false → v.core = c →
    v.bytes = s.padBytes c → inHbm (s.core c).savea.toNat 0x400000 = true →
    (s.core c).replies = [] → (s.core c).stopAsks = [] → (s.core c).preemptAsked = false →
    ∃ t, exec (.restoreComplete c) s = .next t ∧ Resumed s t c ∧
      t.saved = s.saved.filter (fun w => w.image.savea != (s.core c).savea) ∧
      t.ops = s.ops ++ v.ops.map (fun o => o.back c) ∧ ∀ k, k ≠ c → t.core k = s.core k) ∧
  (∀ (s : State) (c d : Nat) (p : Partition), (s.core c).phase = .saved →
    (∃ v ∈ s.saved, v.core = c ∧ v.image.savea = (s.core c).savea) → wfld (s.core c).cfg 0 2 = 0 → s.liveCore d = true →
    (s.core d).lcore = 0xFFFF → (s.core d).ctxv = false → (s.core c).lcore ≠ 0xFFFF →
    (s.site (coreSite c)).kind = (s.site (coreSite d)).kind → p = s.partn (s.site (coreSite c)).part.toNat →
    ∃ t, exec (.logicalCoreRebind c d) s = .next t ∧ (t.core d).lcore = (s.core c).lcore ∧ (t.core d).phase = .saved ∧
      (t.core d).savea = (s.core c).savea ∧ (t.core d).cc = (s.core d).cc ∧ (t.core c).lcore = 0xFFFF ∧ (t.core c).slots = [] ∧
      t.partn (s.site (coreSite c)).part.toNat = { p with cores := p.cores.map fun k => if k = c then d else k })

/-- A line that a strand misses enters the instruction cache with its bytes (07 R179, 10 R264); a walk enters the leaf that it
finds in the TLB (10 R277, R278); a shoot-down drops its entries and the walk cache, and its root's acknowledgement retires the
TLBINV with their number, the link chiplets having dropped theirs when it is wide (23 R465; that they have by then is the model's
reading, log 25); a full root refuses it, and it is sent again (10 R279 to R281). -/
def Obligations.ClusterEvents : Prop :=
  (∀ (s : State) (k line c : Nat) (e : TlbEntry) (v : Option Nat) (more : List (Nat × TlbEntry)),
    s.fetchMisses k line = (c, e) :: more →
    ((s.clu k).icSet line).length < 8 →
    ∃ t, exec (.icacheFill k line v) s = .next t ∧
      tfind (t.clu k).icache line = some (BitVec.ofNat 512
        (memVal s.mem (s.entryLocs (coreSite c) true e (BitVec.ofNat 64 (64 * line)) 64))) ∧
      (∀ l, l ≠ line → tfind (t.clu k).icache l = tfind (s.clu k).icache l) ∧ OneCluster s t k ∧ MemKept s t) ∧
  (∀ (s : State) (k : Nat) (w : Walk) (big : Bool) (pte : Word), ((s.clu k).walks.take 8).find? (fun x => x.id == w.id) = some w →
    (s.walkTables k w.asid w.va).leaf = some (big, pte) → s.walkWay k (s.walkTables k w.asid w.va).sites = .clear →
    ∃ t e, exec (.tlbWalk k w.id) s = .next t ∧ t.tlbFind k w.asid w.sec w.va = some e ∧ e.pte = pte ∧ e.big = big ∧
      (t.clu k).walks = (s.clu k).walks.filter (fun x => x.id != w.id) ∧ OneCluster s t k ∧ MemKept s t ∧
      (∀ c n kind va p, w.waiters = [(c, n, kind, va)] → kind ≠ .engine → s.strand? c n = some p → p.walk = some w.id →
        t.strand? c n = some { p with walk := none }) ∧
      ∀ c n va o, w.waiters = [(c, n, .engine, va)] → EngAt s o → o.id = n → o.walk = some w.id →
        t.ops = s.ops.map fun y => if y.id = o.id then
          { o with walk := none, pages := tput o.pages (va.toNat / 2 ^ 16) (.page e) } else y) ∧
  (∀ (s : State) (k : Nat) (w : Walk), ((s.clu k).walks.take 8).find? (fun x => x.id == w.id) = some w →
    s.walkWay k (s.walkTables k w.asid w.va).sites = .hole → exec (.tlbWalk k w.id) s = .next s) ∧
  (∀ (s : State) (x : Shoot), s.shoots.find? (fun y => y.id == x.id) = some x →
    (x.wide = false → x.refused = false → x.got = [] → (s.clu x.clu).power = .up →
      ∃ t, exec (.shootdownRequest x.id x.clu) s = .next t ∧ (t.clu x.clu).walkCache = [] ∧
        (t.clu x.clu).tlb = (s.clu x.clu).tlb.filter (fun e => !x.drops e) ∧ OneCluster s t x.clu ∧ MemKept s t) ∧
    (x.wide = true → x.refused = false → x.got = [] → (s.shootRoot x) = x.clu → 8 ≤ (s.clu x.clu).mailbox.length →
      exec (.shootdownRequest x.id x.clu) s =
        .next { s with shoots := s.shoots.map fun y => if y.id = x.id then { y with refused := true } else y }) ∧
    exec (.shootdownResend x.id) s =
      .next { s with shoots := s.shoots.map fun y => if y.id = x.id then { y with refused := false } else y } ∧
    (∀ mark n p d, s.Unwatched → x.wide = false → x.got = [(x.clu, mark)] → x.acked = [] →
      s.drainedClu x.clu mark = true →
      s.waiter x.core (fun w => match w with | .tlbinv m _ _ => m == x.id | _ => false) = some (.slot x.slot, p) →
      s.strand? x.core x.slot = some p → p.st = .waiting (.tlbinv x.id d n) → p.stepping = false →
      ∃ t q, exec (.shootdownAck x.id x.clu) s = .next t ∧ t.strand? x.core x.slot = some q ∧
        p.Wrote q d (BitVec.ofNat 64 n) ∧ q.pc = p.pc + toWord p.word.bytes ∧ q.st = .ready ∧
        t.shoots = s.shoots.filter (fun y => y.id != x.id) ∧ SlotsKept s t x.core x.slot ∧ MemKept s t) ∧
    (∀ mark, x.wide = true → x.got = [(x.clu, mark)] → x.acked = [] → s.shootRoot x = x.clu → s.treeChildren x.clu = [] →
      (s.clu x.clu).mailbox.head? = some x.id → (s.links.any fun e => !e.2.sent.isEmpty) = false →
      s.drainedClu x.clu mark = true →
      ∃ t, exec (.shootdownAck x.id x.clu) s = .next t ∧ t.shoots = s.shoots.filter (fun y => y.id != x.id) ∧
        ∀ l, (t.link l).tcache = (s.link l).tcache.filter fun e => !x.drops e))

/-- A matrix entry starts once its waits are over and its checks pass, a drain into a circular buffer with its claim (09 R246, R247,
R256); a row of a stream adds its block sums to its cells, and no other cell changes (09 R242, R255); a row of a drain writes its
cells, rounded, and with CLR leaves them +0 (09 R256); an entry completes in order, and ESEQ[2] advances (09 R258): a load fills the
back buffer (09 R251), a codebook load its codebook (09 R252), a swap exchanges the buffers (09 R253), and a clear leaves a set of +0
with its SHAPE and no POISON, free for spill when no other entry names it (09 R254).

That a cell may hold an uncorrectable error, which ends a stream's or a drain's row, is the model's reading (log 23). -/
def Obligations.MatrixEvents : Prop :=
  (∀ (s : State) (c : Nat) (e : MEntry), EntryAt s c e → (s.core c).entryReady e = true → e.pair = none → (s.core c).park = [] →
    e.body.empty = false → (s.core c).earlyChecks e.body = none →
    (s.claimFor c e.body).placeChecks c e.body ((s.core c).entryBase e.body) = none →
    ((∀ x b st m, e.body = .drain x b st m → x.src = false) → ∃ t, exec (.matrixEntryStart c e.ticket.toNat) s = .next t ∧
      EntryOnly s t c e { e with st := .running, base := (s.core c).entryBase e.body, claim := (s.core c).takeSlot e.body }) ∧
    (∀ x b st m, e.body = .drain x b st m → x.src = true → ∃ t, exec (.matrixEntryStart c e.ticket.toNat) s = .next t ∧
      (t.core c).mtx.queue = (s.core c).mtx.queue.map (fun f => if f.ticket = e.ticket then { e with
        st := .running, claim := some ((s.core c).cb x.cb.toNat).claims,
        base := ((s.core c).cb x.cb.toNat).slotAddr ((s.core c).cb x.cb.toNat).claims } else f) ∧
      (t.core c).cb x.cb.toNat = { (s.core c).cb x.cb.toNat with claims := ((s.core c).cb x.cb.toNat).claims + 1 } ∧
      { t with cores := s.cores } = s ∧ ∀ k, k ≠ c → t.core k = s.core k)) ∧
  (∀ (s : State) (c : Nat) (e : MEntry) (x : MStreamX) (base st : Word) (m set r : Nat) (row sc : Word × Nat)
    (a : List FV) (ea : List Byte), s.Unwatched → EntryAt s c e → e.st = .running → (s.core c).phase = .run →
    e.body = .stream x base st m →
    (∀ f ∈ (s.core c).mtx.queue.takeWhile (fun f => f.ticket != e.ticket), f.st = .running →
      ∀ y b st m, f.body ≠ .stream y b st m) →
    row = (e.base + BitVec.ofNat 64 e.row * st, x.klen.toNat * x.afmt.bytes) →
    sc = (e.base + BitVec.ofNat 64 m * st + BitVec.ofNat 64 (4 * e.row), if x.asc then 4 else 0) →
    s.spansUncorr c [row, sc] = none →
    a = (List.range x.klen.toNat).map (fun k => elemValue x.afmt.elem
      (leNat ((((spanLocs c row).map (memGet s.mem)).drop (x.afmt.bytes * k)).take x.afmt.bytes))) →
    ea = (spanLocs c sc).map (memGet s.mem) → (set, r) = (s.core c).mtx.place x.set.toNat x.row0.toNat e.row → set < 4 →
    x.col0.toNat + x.nlen.toNat ≤ shapeCols ((s.core c).mtx.set set).shape →
    (x.clr = true ∨ ((s.core c).mtx.set set).rowBad r x.col0.toNat x.nlen.toNat = false) →
    ∃ t, exec (.matrixRowAdd c e.ticket.toNat) s = .next t ∧
      (∀ i col, col < shapeCols ((s.core c).mtx.set set).shape → ((t.core c).mtx.set set).cell i col =
        if i = r ∧ x.col0.toNat ≤ col ∧ col < x.col0.toNat + x.nlen.toNat then
          (s.core c).mtx.front.accumulate a ea (col - x.col0.toNat) (if x.clr then 0 else ((s.core c).mtx.set set).cell i col)
        else ((s.core c).mtx.set set).cell i col) ∧
      (∀ n, n ≠ set → (t.core c).mtx.set n = (s.core c).mtx.set n) ∧
      (t.core c).mtx.queue = (s.core c).mtx.queue.map (fun f => if f.ticket = e.ticket then
        { e with row := e.row + 1, st := if e.row + 1 = m then .ended else .running } else f) ∧
      (t.core c).mtx.front = (s.core c).mtx.front ∧ { t with cores := s.cores } = s ∧ ∀ k, k ≠ c → t.core k = s.core k) ∧
  (∀ (s : State) (c : Nat) (e : MEntry) (x : MDrainX) (base st : Word) (m set r : Nat) (cells : List Host.Cell), s.mem.wf = true →
    s.Unwatched → EntryAt s c e → e.st = .running → (s.core c).phase = .run → e.body = .drain x base st m →
    (set, r) = (s.core c).mtx.place x.set.toNat x.row0.toNat e.row → set < 4 →
    x.col0.toNat + x.nlen.toNat ≤ shapeCols ((s.core c).mtx.set set).shape →
    ((s.core c).mtx.set set).rowBad r x.col0.toNat x.nlen.toNat = false →
    cells = (List.range x.nlen.toNat).flatMap (fun n =>
      (spanLocs c (e.base + BitVec.ofNat 64 e.row * st + BitVec.ofNat 64 (x.dfmt.bytes * n), x.dfmt.bytes)).zip
        (leBytes x.dfmt.bytes (drainRule x.dfmt x.sat (((s.core c).mtx.set set).cell r (x.col0.toNat + n))))) →
    (cells.map (·.1)).Nodup →
    ∃ t, exec (.matrixRowAdd c e.ticket.toNat) s = .next t ∧ Written s t cells ∧
      (∀ i col, col < shapeCols ((s.core c).mtx.set set).shape → ((t.core c).mtx.set set).cell i col =
        if x.clr = true ∧ i = r ∧ x.col0.toNat ≤ col ∧ col < x.col0.toNat + x.nlen.toNat then 0
        else ((s.core c).mtx.set set).cell i col) ∧
      (∀ n, n ≠ set → (t.core c).mtx.set n = (s.core c).mtx.set n) ∧
      (t.core c).mtx.queue = (s.core c).mtx.queue.map (fun f => if f.ticket = e.ticket then
        { e with row := e.row + 1, st := if e.row + 1 = m then .ended else .running } else f) ∧
      { (t.core c).mtx with acc := (s.core c).mtx.acc, queue := (s.core c).mtx.queue } = (s.core c).mtx ∧
      ∀ k, k ≠ c → t.core k = s.core k) ∧
  ∀ (s : State) (c : Nat) (e : MEntry), EntryAt s c e → (s.core c).phase = .run ∨ (s.core c).phase = .quiesce →
    Waitless s c → (s.core c).done = [] → e.ticket = vget 0 (s.core c).eseq 2 + 1 →
    ((e.st = .running ∧ e.body = .swap) ∨ ((e.st = .void ∨ e.st = .ended) ∧ e.claim = none) →
      ∃ t, EntryGone s t c e ∧
        (e.st = .running → (t.core c).mtx.front = (s.core c).mtx.back ∧ (t.core c).mtx.back = (s.core c).mtx.front) ∧
        (e.st ≠ .running → (t.core c).mtx.front = (s.core c).mtx.front ∧ (t.core c).mtx.back = (s.core c).mtx.back) ∧
        (t.core c).mtx.acc = (s.core c).mtx.acc) ∧
    (∀ wf src st sc, e.st = .running → e.body = .load wf src st sc → s.Unwatched → s.spansUncorr c (e.body.spans src) = none →
      ∃ t, EntryGone s t c e ∧ (t.core c).mtx.front = (s.core c).mtx.front ∧ (t.core c).mtx.acc = (s.core c).mtx.acc ∧
        TileLoaded s c (s.core c).mtx.back (t.core c).mtx.back wf src st sc) ∧
    (∀ a, e.st = .running → e.body = .book a → s.Unwatched → s.spansUncorr c [(a, 32)] = none →
      ∃ t, EntryGone s t c e ∧ (t.core c).mtx.front = (s.core c).mtx.front ∧ (t.core c).mtx.acc = (s.core c).mtx.acc ∧
        { (t.core c).mtx.back with codebook := (s.core c).mtx.back.codebook } = (s.core c).mtx.back ∧
        ∀ i, i < 16 → tget 0 (t.core c).mtx.back.codebook i =
          BitVec.ofNat 16 (memVal s.mem (spanLocs c (a + BitVec.ofNat 64 (2 * i), 2)))) ∧
    ∀ shape n, e.st = .running → e.body = .clear shape n → n < 4 → s.Unwatched →
      ∃ t, EntryGone s t c e ∧ (t.core c).mtx.front = (s.core c).mtx.front ∧ (t.core c).mtx.back = (s.core c).mtx.back ∧
        (∀ i col, ((t.core c).mtx.set n).cell i col = 0) ∧ ((t.core c).mtx.set n).shape = shape ∧
        ((t.core c).mtx.set n).poison = false ∧ ((s.core c).mtx.queue = [e] → ((t.core c).mtx.set n).free = true) ∧
        ∀ k, k ≠ n → (t.core c).mtx.set k = (s.core c).mtx.set k

/-- A copy starts when an engine of its cluster is free for it, and moves its bytes in spans of at most 4 KiB, those of a fill to its
claim and those of a drain from its slot; an ended operation completes with ESEQ of its class; the base die starts the oldest HGEMV
of its stack, and writes its outputs one by one (11 R288, R292 to R294, R300 to R302; 03 R89). A remote operation of no bytes ends
with status 0, one whose queue pair is missing or another context's with status 10, one whose queue pair is not RTS with status 1 and
nothing read; one of an RTS queue pair reads its bytes and sends its packets (23 R457, R462, R463). An operation that completes with a
status from 2 to 9 moves its queue pair to ERROR and flushes it (23 R464, R466).

That a span counts 4,096 bytes from the first byte of its operation, and that a remote operation's packets take numbers of their own,
are the model's choices (log 29); that a span is one act is too (log 25). -/
def Obligations.EngineEvents : Prop :=
  (∀ (s : State) (o : EngOp), EngAt s o → s.copyMayStart o = true → o.body.nothing = false →
    (s.core o.core).copyCheck o.body = none →
    (∀ src dst pl ro le a b d e lo sy ba, o.body = .copy src dst pl ro le a b d e lo sy ba →
      ∃ t, exec (.engineStart o.id) s = .next t ∧ EngMoved s t o { o with st := .running }) ∧
    (∀ cb ad sd pl ro le lo sy, o.body = .drain cb ad sd pl ro le lo sy →
      ∃ t, exec (.engineStart o.id) s = .next t ∧
        EngMoved s t o { o with
          st := .running, slotNo := some (((s.core o.core).cb cb.toNat).pops + BitVec.ofNat 32 (s.drainsOn o.core cb).length) }) ∧
    (∀ cb ad sd pl ro le lo sy, o.body = .fill cb ad sd pl ro le lo sy →
      ∃ t, exec (.engineStart o.id) s = .next t ∧
        t.ops = s.ops.map (fun x => if x.id = o.id then
          { o with st := .running, slotNo := some ((s.core o.core).cb cb.toNat).claims } else x) ∧
        (t.core o.core).cb cb.toNat =
          { (s.core o.core).cb cb.toNat with claims := ((s.core o.core).cb cb.toNat).claims + 1 })) ∧
  (∀ (s : State) (o : EngOp) (n : Nat) (pairs : List (Word × Word)) (pages : Tbl Got), s.mem.wf = true → s.Unwatched →
    EngAt s o → o.st = .running → s.opRuns o = true → o.walk = none → s.opWriting o = false →
    (∀ x w xv y st, o.body ≠ .hgemv x w xv y st) → o.qp? = none →
    n = min 4096 (o.body.total - o.pos) → pairs = (locsFrom o.pos n).map (s.copyPair o) →
    s.engPages o (pairs.flatMap fun p => [p.1, p.2]) = pages →
    SpanClear s o pages (pairs.map Prod.fst) (pairs.map Prod.snd) → ((spanCells s o pages pairs).map Prod.fst).Nodup →
    ∃ t, exec (.engineSpan o.id) s = .next t ∧ Written s t (spanCells s o pages pairs) ∧
      t.ops = s.ops.map (fun x => if x.id = o.id then
        { o with pos := o.pos + n, pages := [], st := if o.pos + n = o.body.total then .ended else .running } else x) ∧
      (∀ c, t.core c = s.core c)) ∧
  (∀ (s : State) (o : EngOp) (cb : BitVec 4) (ad sd : Word) (pl ro le i : Nat) (lo sy : Bool) (n : BitVec 32), o.slotNo = some n →
    (o.body = .fill cb ad sd pl ro le lo sy → s.copyPair o i =
      (ad + BitVec.ofNat 64 (i / le) * sd + BitVec.ofNat 64 (i % le), ((s.core o.core).cb cb.toNat).slotAddr n + BitVec.ofNat 64 i)) ∧
    (o.body = .drain cb ad sd pl ro le lo sy → s.copyPair o i =
      (((s.core o.core).cb cb.toNat).slotAddr n + BitVec.ofNat 64 i, ad + BitVec.ofNat 64 (i / le) * sd + BitVec.ofNat 64 (i % le)))) ∧
  (∀ (s : State) (o : EngOp) (x : HgemvX) (w xv y : Word) (stack : Nat) (ax aw as ay : List Word) (pages : Tbl Got) (ls : List Nat)
    (v : BitVec 32), s.mem.wf = true → s.Unwatched → EngAt s o → o.st = .running → s.opRuns o = true → o.walk = none →
    s.opWriting o = false → o.body = .hgemv x w xv y stack → (ax, aw, as) = hgemvReads x w xv o.pos →
    ay = (List.range 4).map (fun i => y + BitVec.ofNat 64 (4 * o.pos + i)) → s.engPages o (ax ++ aw ++ as ++ ay) = pages →
    SpanClear s o pages (ax ++ aw ++ as) [] → (∀ a ∈ ax, wfld a 56 8 = 0 ∨ wfld a 56 8 = 0xF2 ∨ wfld a 56 8 = 0xF5) →
    (∀ a ∈ aw, ∃ l r, s.engByte o pages true false a = .ok [l] true r ∧ l / 2 ^ 36 = stack) →
    (∀ a ∈ ay, ∃ l b, s.engByte o pages x.acc true a = .ok [l] b false ∧ s.bad l = false ∧
      s.wayTo (coreSite o.core) (locSite l) = .clear ∧ s.replLocked l = false) →
    ls = ay.map (fun a => (s.engByte o pages x.acc true a).locs.headD 0) → ls.Nodup →
    v = hgemvRule x (ax.map (spanByte s o pages)) (aw.map (spanByte s o pages)) (as.map (spanByte s o pages))
      (BitVec.ofNat 32 (leNat (ls.map (memGet s.mem)))) →
    ∃ t, exec (.engineSpan o.id) s = .next t ∧ Written s t (ls.zip (leBytes 4 v.toNat)) ∧
      t.ops = s.ops.map (fun b => if b.id = o.id then
        { o with pos := o.pos + 1, pages := [], st := if o.pos + 1 = x.n.toNat then .ended else .running } else b) ∧
      (∀ c, t.core c = s.core c)) ∧
  (∀ (s : State) (o : EngOp), EngAt s o → o.st = .ended → s.opRuns o = true → s.opWriting o = false → o.cls < 3 → o.slotNo = none →
    o.qp? = none → o.engine < 4 →
    Waitless s o.core → (s.core o.core).done = [] → o.ticket = vget 0 (s.core o.core).eseq o.cls + 1 →
    ∃ t, exec (.engineComplete o.id) s = .next t ∧ SequenceAt s t o.core o.cls o.ticket ∧
      t.ops = s.ops.filter (fun x => x.id != o.id) ∧ (t.core o.core).slots = (s.core o.core).slots ∧
      (∀ n, vget 0 (t.chip (coreSite o.core)).engDone n =
        vget 0 (s.chip (coreSite o.core)).engDone n + if o.cls = 0 ∧ n = o.engine then 1 else 0) ∧
      ∀ k, k ≠ o.core → t.core k = s.core k) ∧
  (∀ (s : State) (o : EngOp) (qp : Nat) (q : Qp), EngAt s o → o.st = .ended → s.opRuns o = true → s.opWriting o = false → o.cls = 3 →
    o.qp? = some qp → tfind s.qps qp = some q → s.earlierPosts o = [] → Waitless s o.core → (s.core o.core).done = [] →
    o.ticket = vget 0 (s.core o.core).eseq 3 + 1 → ∃ t, exec (.engineComplete o.id) s = .next t ∧ SequenceAt s t o.core 3 o.ticket ∧
      (t.core o.core).rma = (s.core o.core).rma.map (fun r => if r.ticket = o.ticket then
        { r with done := true, status := o.status, qst := if 2 ≤ o.status ∧ o.status ≤ 9 then 3 else BitVec.ofNat 2 q.st.num } else r) ∧
      (2 ≤ o.status → o.status ≤ 9 → tfind t.qps qp = some { q with st := .error, backoff := false } ∧
        t.events = s.events ++ [.qpError qp o.status] ∧
        t.ops = (s.ops.filter (fun x => x.id != o.id)).map (fun e => if e.qp? = some qp ∧ e.asid = o.asid then
          { e with st := .ended, status := 1 } else e)) ∧
      (o.status < 2 ∨ 9 < o.status → t.qps = s.qps ∧ t.events = s.events ∧ t.ops = s.ops.filter (fun x => x.id != o.id))) ∧
  (∀ (s : State) (o : EngOp) (x : HgemvX) (w xv y : Word) (stack : Nat), EngAt s o → o.body = .hgemv x w xv y stack →
    (∀ e ∈ s.atBaseDie stack, e.st ≠ .running) →
    (s.atBaseDie stack).find? (fun e => e.st == .queued && s.opRuns e) = some o →
    ∃ t, exec (.baseDieStart stack) s = .next t ∧
      EngMoved s t o { o with st := if x.k = 0 ∨ x.n = 0 then .ended else .running }) ∧
  (∀ (s : State) (o : EngOp) (op : RmaOp) (a off : Word) (key : BitVec 32) (qp len : Nat) (sy fe : Bool), PostTurn s o qp fe →
    o.body = .rma op a off key qp len sy fe →
    (len = 0 → ∃ t, exec (.rmapostStart o.id) s = .next t ∧
      t.ops = s.ops.map (fun x => if x.id = o.id then { o with st := .ended, status := 0 } else x) ∧ MemKept s t) ∧
    (∀ q, PostChecked s o op a len qp q → q.st ≠ .rts → ∃ t, exec (.rmapostStart o.id) s = .next t ∧
      t.ops = s.ops.map (fun x => if x.id = o.id then { o with pages := [], st := .ended, status := 1 } else x) ∧ MemKept s t) ∧
    (∀ q, PostChecked s o op a len qp q → q.st = .rts → s.Unwatched →
      (∀ x ∈ postReads op a len, ∀ l ∈ (s.engByte o (s.engPages o (postReads op a len ++ postWrites op a len)) true false x).locs,
        s.bad l = false ∧ s.wayTo (coreSite o.core) (locSite l) = .clear ∧ s.replLocked l = false) →
      s.routable (coreSite o.core) (nth 0 linkSites (qpLink qp)) = true → (tget 0 s.spine.froute q.rmod.toNat).getLsbD 63 = true →
      ((s.link (qpLink qp)).port q.port.toNat).st = 2 → qp ∈ (s.link (qpLink qp)).lru →
      ∃ t ps, exec (.rmapostStart o.id) s = .next t ∧ PostSent s t o op a off key qp len q ps ∧ MemKept s t) ∧
    (0 < len → (∀ q, tfind s.qps qp = some q → q.asid.toNat ≠ o.asid) → o.cls = 3 → Waitless s o.core →
      (∃ p ∈ (s.core o.core).allStrands, p.own = o.own) →
      ∃ t, exec (.rmapostStart o.id) s = .next t ∧
        t.ops = s.ops.map (fun x => if x.id = o.id then { o with st := .ended, failed := true, status := 10 } else x) ∧
        (t.core o.core).deferred = (s.core o.core).deferred ++ [{
          own := o.own,
          f := { code := .engine, sub := 0x91, deferred := true, word := o.word, pc := o.pc, addr := 0 } }] ∧
        MemKept s t))

/-- Bring-up of a site, step by step (14 R325, Table 14.2): the firmware image that the module carries, the first one given, is
verified (18 R418), the clock arrives, the self-test reports
cores and grade, the edges train, routes are written, the site is enabled; a site whose time is up has failed, and one with no way
to the Spine is isolated (14 R331, R333). -/
def Obligations.BringupEvents : Prop :=
  (∀ (s : State) (given image : FwImage), image = s.spine.fw.getD given → s.spine.powered = false →
    (image.signed = true → s.spine.minVersion ≤ image.version →
      ∃ t, exec (.powerGood given) s = .next t ∧ Started s t image) ∧
    (image.signed = false ∨ image.version < s.spine.minVersion →
      exec (.powerGood given) s = .next { s with spine := { s.spine with recovery := true, fw := some image } })) ∧
  (∀ (s : State) (image : FwImage),
    (s.spine.recovery = true → image.signed = true → s.spine.minVersion ≤ image.version →
      ∃ t, exec (.firmwareUpdate image) s = .next t ∧ Started s t image) ∧
    (s.spine.recovery = false → image.signed = true → s.spine.minVersion ≤ image.version →
      exec (.firmwareUpdate image) s = .next { s with spine := { s.spine with fw := some image } }) ∧
    (image.signed = false ∨ image.version < s.spine.minVersion → exec (.firmwareUpdate image) s = .next s)) ∧
  (∀ (s : State) (n : Nat),
    ((s.site n).st = .off → (s.site n).kind ≠ .empty →
      (∃ d m, d < 4 ∧ neighbour n d = some m ∧ (s.site m).st ∈ [SiteState.clocked, .probed, .trained, .routed, .live]) →
      ∃ t, exec (.clockForwarding n) s = .next t ∧ SiteOnly s t n { s.site n with st := .clocked } ∧
        { t with sites := s.sites } = s) ∧
    (∀ g cores, (s.site n).st = .clocked →
      ∃ t, exec (.selfTestDone n g cores) s = .next t ∧
        SiteOnly s t n { s.site n with st := .probed, cores := cores &&& coreMask (s.site n).kind } ∧
        (t.region (siteRegion n)).grade = g ∧
        (s.regionUsed (siteRegion n) = false →
          (t.region (siteRegion n)).running = g ∧ (t.region (siteRegion n)).mhz = BitVec.ofNat 16 (gradeRule g)) ∧
        { t with sites := s.sites, regions := s.regions } = s) ∧
    (∀ failed, (s.site n).st = .probed →
      ∃ t, exec (.edgeTrainingDone n failed) s = .next t ∧
        SiteOnly s t n { s.site n with st := .trained, failedEdges := failed } ∧ { t with sites := s.sites } = s) ∧
    ((s.site n).kind ≠ .empty → (s.site n).st = .off ∨ (s.site n).st = .clocked →
      ∃ t, exec (.bringupTimeout n) s = .next t ∧ SiteOnly s t n { s.site n with st := .failed } ∧
        { t with sites := s.sites } = s) ∧
    ((s.site n).st = .trained → s.island true n = false →
      ∃ t, exec (.routeWrite n) s = .next t ∧ SiteOnly s t n { s.site n with st := .routed } ∧
        (t.chip n).route = s.routeTable true n ∧ { t with sites := s.sites, chiplets := s.chiplets } = s) ∧
    ((s.site n).st = .live → s.island false n = false →
      ∃ t, exec (.routeWrite n) s = .next t ∧ (t.chip n).route = s.routeTable false n ∧ { t with chiplets := s.chiplets } = s) ∧
    ((s.site n).st = .trained → s.island true n = true →
      ∃ t, exec (.routeWrite n) s = .next t ∧ SiteOnly s t n { s.site n with st := .isolated } ∧ { t with sites := s.sites } = s) ∧
    ((s.site n).st = .routed →
      ∃ t, exec (.siteEnable n) s = .next t ∧ SiteOnly s t n { s.site n with st := .live } ∧
        (∀ c ∈ s.siteCores n, tfind t.cores c = some { s.core c with ptr := 0, cc := 0 }) ∧
        (∀ c, c ∉ s.siteCores n → t.core c = s.core c) ∧
        { t with sites := s.sites, cores := s.cores, spine := s.spine } = s ∧
        t.spine = { s.spine with incs := tput s.spine.incs n (s.site n).inc }))

/-- Partitions and joined regions (14 R326, R327, R335), failures (14 R334) and resets (11 R309; 14 R325): a new partition's sites
take logical numbers in the order of their site numbers, unless it would change the frequency of regions in use (the model's choice:
log 41); a frequency change reaches every joined region; a failed site ends the
contexts that have something there; a chiplet reset advances the incarnation; a module reset turns every site off and keeps
memory (log 6). -/
def Obligations.PartitionEvents : Prop :=
  (∀ (s : State) (part : Nat) (sites chips : List Nat), part < 64 → s.partn part = Partition.blank →
    (∀ e ∈ s.ctxs, e.2.part ≠ part) → chips = (List.range 324).filter sites.contains →
    (∀ n ∈ chips, (s.site n).st = .live ∧ s.compute n = true ∧ (s.site n).lchip = 0xFFFF) →
    (∃ n ∈ chips, (s.site n).kind = .bClass) →
    (∀ w ∈ s.writes, coreSite w.core ∉ chips ∧ ∀ x ∈ w.cells, locSite x.1 ∉ chips) →
    ((s.withPartition part chips).speedsFit = true → ∃ t, exec (.partitionCreate part sites 0 []) s = .next t ∧
      t.partn part = { chips := chips, cores := chips.flatMap s.siteCores, donors := [], d := 0, repset := 0 } ∧
      (∀ i n, chips[i]? = some n → t.site n =
        { s.site n with lchip := BitVec.ofNat 16 i, part := BitVec.ofNat 6 part }) ∧
      (∀ n, n ∉ chips → t.site n = s.site n) ∧ t.mem = s.mem ∧ t.ctxs = s.ctxs) ∧
    ((s.withPartition part chips).speedsFit = false → exec (.partitionCreate part sites 0 []) s = .next s)) ∧
  (∀ (s : State) (r : Nat) (mhz : BitVec 16), r < 36 → s.regionsBusy (s.joined? r) = false →
    (mhz.toNat = gradeRule (s.lowestGrade (s.joined? r)) →
      ∃ t, exec (.regionFrequencyChange r mhz) s = .next t ∧
        (∀ q ∈ s.joined? r, (t.region q).mhz = mhz ∧ (t.region q).running = s.lowestGrade (s.joined? r)) ∧
        (∀ q, q ∉ s.joined? r → t.region q = s.region q) ∧ { t with regions := s.regions } = s) ∧
    (mhz.toNat ≠ gradeRule (s.lowestGrade (s.joined? r)) → exec (.regionFrequencyChange r mhz) s = .next s)) ∧
  (∀ (s : State) (r : Nat) (mhz : BitVec 16), s.regionsBusy (s.joined? r) = true →
    exec (.regionFrequencyChange r mhz) s = .next s) ∧
  (∀ (s : State) (n : Nat), (s.site n).st = .live →
    ∃ t, exec (.siteFailure n) s = .next t ∧ SiteOnly s t n { s.site n with st := .failed } ∧
      ∀ e ∈ s.ctxs, s.contextAt e.1 n = true ∨ s.donates e.2.part n = true → tfind t.ctxs e.1 = none) ∧
  (∀ (s : State) (n : Nat), (s.site n).st = .live → s.siteBusy n = false → s.compute n = true →
    ∃ t, exec (.chipletReset n) s = .next t ∧
      SiteOnly s t n { s.site n with st := .clocked, inc := (s.site n).inc + 1 } ∧
      (∀ c, c / 16 = n → (t.core c).slots = [] ∧ (t.core c).lcore = (s.core c).lcore ∧ (t.core c).savea = (s.core c).savea) ∧
      (∀ c, c / 16 ≠ n → t.core c = s.core c) ∧ (t.chip n).pagerCore = (s.chip n).pagerCore ∧ t.mem = s.mem) ∧
  ∀ s : State, ∃ t, exec .moduleReset s = .next t ∧ (∀ n, (t.site n).st = .off) ∧ (∀ c, (t.core c).slots = []) ∧
    t.ctxs = [] ∧ t.parts = [] ∧ t.qps = [] ∧ t.spine.powered = false ∧ t.spine.tokens = 32 ∧ t.spine.colTmo = 10000 ∧
    t.spine.minVersion = s.spine.minVersion ∧ t.spine.fw = s.spine.fw ∧ t.mem = s.mem

/-- Clusters wake in the order of their requests, each with an inrush token that it returns, and are gated while no context is assigned
to their cores (18 R416, 10 R282); host ports go down and come up (23 R455). -/
def Obligations.PowerEvents : Prop :=
  (∀ (s : State) (k : Nat) (rest : List Nat), s.spine.wakeQ = k :: rest →
    (0 < s.spine.tokens →
      ∃ t, exec .inrushGrant s = .next t ∧ (t.clu k).power = .waking ∧
        t.clu k = { s.clu k with power := .waking } ∧
        t.spine = { s.spine with wakeQ := rest, tokens := s.spine.tokens - 1 } ∧ OneCluster s t k ∧
        { t with clusters := s.clusters, spine := s.spine } = s) ∧
    (s.spine.tokens = 0 → exec .inrushGrant s = .next s)) ∧
  (∀ (s : State) (k : Nat),
    ((s.clu k).power = .waking →
      ∃ t, exec (.stableSupply k) s = .next t ∧ t.clu k = { s.clu k with power := .up, tlb := [], plru := [], walkCache := [] } ∧
        t.spine = { s.spine with tokens := s.spine.tokens + 1 } ∧ OneCluster s t k ∧
        { t with clusters := s.clusters, spine := s.spine, agenda := s.agenda } = s) ∧
    ((s.clu k).power = .up → (s.clu k).cfg.getLsbD 29 = false → (∀ c, c / 4 = k → (s.core c).ctxv = false) →
      ∃ t, exec (.clusterPowerGating k) s = .next t ∧ t.clu k = { s.clu k with power := .gated } ∧ OneCluster s t k) ∧
    ((s.clu k).cfg.getLsbD 29 = true ∨ (∃ c, c / 4 = k ∧ (s.core c).ctxv = true) → exec (.clusterPowerGating k) s = .next s)) ∧
  (∀ s : State,
    exec (.hostPortFailover false) s = .next { s with spine := { s.spine with port0 := false } } ∧
    exec (.hostPortFailover true) s = .next { s with spine := { s.spine with port1 := false } } ∧
    exec (.hostPortUp false) s = .next { s with spine := { s.spine with port0 := true } } ∧
    exec (.hostPortUp true) s = .next { s with spine := { s.spine with port1 := true } })

/-- TIME is set while no context lives, and else only slewed: it never steps and never runs backwards (05 R141; how
fast it slews is the model's choice, log 5); the secure element reports (18 R419); firmware
writes registers (14 R343). In recovery neither runs (18 R418). -/
def Obligations.ModuleEvents : Prop :=
  (∀ (s : State) (delta : Int),
    (s.ctxs = [] →
      exec (.timeDiscipline delta) s =
        .next { s with spine := { s.spine with time := s.spine.time + BitVec.ofInt 64 delta, slew := 0 } }) ∧
    (s.ctxs ≠ [] → exec (.timeDiscipline delta) s = .next { s with spine := { s.spine with slew := delta } })) ∧
  (∀ (z : Spine) (ns : Nat), ∃ k, ns - ns / 2 ≤ k ∧ k ≤ ns + ns / 2 ∧ (z.advance ns).time = z.time + BitVec.ofNat 64 k ∧
    (z.advance ns).slew = z.slew - ((k : Int) - ns)) ∧
  (∀ (s : State) (nonce : BitVec 512),
    (∀ f, s.spine.recovery = false → s.spine.fw = some f →
      ∃ t bits sig, exec (.attestation nonce) s = .next t ∧ t.events = s.events ++ [.report bits sig] ∧ ReportOf s f nonce bits ∧
        { t with events := s.events, fresh := s.fresh } = s) ∧
    (s.spine.recovery = true → exec (.attestation nonce) s = .next s)) ∧
  (∀ (s : State) (num : BitVec 12) (unit idx : Nat) (v : Word), s.spine.recovery = true →
    exec (.firmwareRegisterWrite num unit idx v) s = .next s) ∧
  ∀ (s : State) (unit idx : Nat) (v : Word), s.spine.recovery = false →
    exec (.firmwareRegisterWrite 0x413 unit idx v) s = .next { s with spine := { s.spine with colTmo := v.setWidth 24 } } ∧
    (idx < 36864 → ∃ t, exec (.firmwareRegisterWrite 0x423 unit idx v) s = .next t ∧ tget 0 t.spine.worlds idx = v ∧
      (∀ i, i ≠ idx → tget 0 t.spine.worlds i = tget 0 s.spine.worlds i) ∧ { t with spine := s.spine } = s) ∧
    (∃ t, exec (.firmwareRegisterWrite 0x300 unit idx v) s = .next t ∧
      t.chip unit = { s.chip unit with pagerCore := v.setWidth 16 } ∧ (∀ n, n ≠ unit → t.chip n = s.chip n) ∧
      { t with chiplets := s.chiplets } = s) ∧
    (unit < 4096 → ∃ t, exec (.firmwareRegisterWrite 0x404 unit idx v) s = .next t ∧
      (∀ i, i < 64 → (tget 0 t.spine.asidRoot unit).getLsbD i = (v.getLsbD i && (decide (i < 2) || (decide (16 ≤ i) && decide (i < 55))))) ∧
      ∀ a, a ≠ unit → tget 0 t.spine.asidRoot a = tget 0 s.spine.asidRoot a) ∧
    exec (.firmwareRegisterWrite 0x400 unit idx v) s = .next s

/-- Firmware creates the contexts whose requests it accepts, with the record that the request names, and reports the others (18 R404,
17 R386); a context that ends leaves every core free and an event (18 R404). Both requests are answered (23 R453). A kick marks an unmapped queue, takes the control block
that system software wrote for it (18 R405) and brings an epoch; a
doorbell write of another form is dropped and counted (18 R413, 23 R452); an epoch maps runnable queues and unmaps idle ones, and a
queue of priority 0, or one that has waited long enough against one mapped for 20 µs, displaces another (18 R414). When firmware takes
a control block, and that it takes none while its queue is mapped, are the model's choices (log 41); so is the instant from which a
queue waits (log 20). -/
def Obligations.ContextEvents : Prop :=
  (∀ (s : State) (r : CtxReq),
    (s.accepts r = true → r.mode = .off →
      ∃ t x, exec (.contextCreate r) s = .next t ∧ tfind t.ctxs r.asid = some x ∧ x.part = r.part ∧ x.sec = r.sec ∧
        x.mode = r.mode ∧ x.quota = r.quota ∧ x.slotQuota = r.slotQuota ∧ x.nextLn = 0 ∧
        (r.privileged = [] → x.launches = [] ∧ x.nextLh = 0) ∧
        tfind t.spine.asidRoot r.asid = some (r.root &&& BitVec.ofNat 64 (2 ^ 55 - 2 ^ 16 + 3)) ∧
        (∀ a, a ≠ r.asid → tfind t.ctxs a = tfind s.ctxs a) ∧ Responded t true 0) ∧
    (s.accepts r = false → exec (.contextCreate r) s =
      .next (State.respond { s with events := s.events ++ [.contextRefused r.asid] } false 0))) ∧
  (∀ (s : State) (a : Nat),
    ((tfind s.ctxs a).isSome = true →
      ∃ t, exec (.contextEnd a) s = .next t ∧ tfind t.ctxs a = none ∧ HostEvent.contextEnd a 0 0 ∈ t.events ∧
        (∀ c, (s.core c).ctxv = true → (s.core c).asid = a → (t.core c).ctxv = false ∧ (t.core c).slots = []) ∧
        (s.Unwatched → ∀ c, (s.core c).asid ≠ a → t.core c = s.core c) ∧ (∀ e ∈ t.spine.queues, e.2.asid ≠ a) ∧
        Responded t true 0) ∧
    (tfind s.ctxs a = none → Refuses (.contextEnd a) s)) ∧
  (∀ (s : State) (q : Nat) (x : Queue), s.queue? q = some x →
    (s.slotOf q = none →
      ∃ t, exec (.kick q) s = .next t ∧ t.queue? q = some { x with pending := true, qcb := qcbAfter s q x } ∧
        tfind t.spine.blocks q = none ∧ t.agenda = .epoch :: s.agenda ∧ { t with spine := s.spine, agenda := s.agenda } = s) ∧
    ((s.slotOf q).isSome = true → exec (.kick q) s = .next s)) ∧
  (∀ (s : State) (q a : Nat) (b : Qcb), s.queue? q = none →
    (tfind s.spine.blocks q = none → exec (.kick q) s = .next s) ∧
    (s.slotOf q = none → tfind s.spine.blocks q = some (a, b) → b.queue = q → (tfind s.ctxs a).isSome = true → QcbFits b →
      ∃ t x, exec (.kick q) s = .next t ∧ t.queue? q = some x ∧ x.asid = a ∧ x.qcb = b ∧ x.pending = true ∧
        tfind t.spine.blocks q = none ∧ t.agenda = .epoch :: s.agenda ∧ { t with spine := s.spine, agenda := s.agenda } = s)) ∧
  (∀ (s : State) (offset bytes : Nat) (v : Word),
    (bytes = 8 → offset % 8 = 0 → offset < 0x80000 → v = BitVec.ofNat 64 (offset / 8) →
      exec (.doorbellWrite offset bytes v) s = exec (.kick (offset / 8)) s ∧
        ∃ t, exec (.doorbellWrite offset bytes v) s = .next t) ∧
    (bytes ≠ 8 ∨ offset % 8 ≠ 0 ∨ 0x80000 ≤ offset ∨ v ≠ BitVec.ofNat 64 (offset / 8) →
      exec (.doorbellWrite offset bytes v) s = .next { s with spine := { s.spine with dropped := s.spine.dropped + 1 } })) ∧
  (∀ (s : State) (q a : Nat) (x : Queue) (c : Ctx), s.ctxs = [(a, c)] → s.spine.queues = [(q, x)] → x.asid = a →
    1 ≤ c.slotQuota →
    (s.spine.hw = [] → s.queueRunnable x = true →
      ∃ t y, exec .epoch s = .next t ∧ t.spine.hw = [(0, { queue := q, asid := a, sec := c.sec, fetched := [], mappedAt := s.spine.time, timed := none, held := false })] ∧
        t.queue? q = some y ∧ y.pending = false ∧ y.runnable = true ∧ t.spine.lastEpoch = s.spine.time) ∧
    (∀ h w, s.spine.hw = [(h, w)] → w.queue = q → s.queueRunnable x = false → x.writing = none →
      ∃ t, exec .epoch s = .next t ∧ t.spine.hw = [] ∧ t.spine.lastEpoch = s.spine.time)) ∧
  ∀ (s : State) (p q a h : Nat) (x y : Queue) (c : Ctx) (w : HwSlot), s.ctxs = [(a, c)] → s.spine.queues = [(p, x), (q, y)] → p ≠ q →
    x.asid = a → y.asid = a → c.slotQuota = 1 → s.spine.hw = [(h, w)] → w.queue = p → w.asid = a → x.writing = none →
    s.queueRunnable x = true → s.queueRunnable y = true →
    (prioRule y.qcb.prio (waitedRule s y) < x.qcb.prio → (y.qcb.prio = 0 ∨ 20000 ≤ (s.spine.time - w.mappedAt).toNat) →
      ∃ t v, exec .epoch s = .next t ∧ t.spine.hw = [(h, { queue := q, asid := a, sec := c.sec, fetched := [], mappedAt := s.spine.time, timed := none, held := false })] ∧
        t.queue? p = some v ∧ v.since = s.spine.time ∧ v.qcb = x.qcb) ∧
    (x.qcb.prio ≤ prioRule y.qcb.prio (waitedRule s y) ∨ (y.qcb.prio ≠ 0 ∧ (s.spine.time - w.mappedAt).toNat < 20000) →
      ∃ t, exec .epoch s = .next t ∧ t.spine.hw = [(h, w)])

/-- At issue a launch takes the context's next number and handle and gives each
chiplet its share of the indices (18 R409, R410); an active-message launch sends its message (18 Table 18.3); a timed launch waits
for its time (16 R380); a BARRIER, a SIGNAL and a COPY complete after every earlier packet, with their writes (18 Table 18.3). -/
def Obligations.PacketEvents : Prop :=
  (∀ (s : State) (h n : Nat) (w : HwSlot) (x : Queue) (p : Packet), MayLaunch s h n w x p →
    (p.type = 1 → ∃ t, exec (.rangedLaunch h) s = .next t ∧ LaunchStarted s t h n w p false) ∧
    (∀ fire past, p.type = 3 → w.timed = some (fire, past) → fire.toNat ≤ s.spine.time.toNat →
      s.launchAway w.asid p.chips = false →
      ∃ t, exec (.timedLaunchFire h) s = .next t ∧
        LaunchStarted s t h n w p (past || decide ((fire + 2000).toNat < s.spine.time.toNat)))) ∧
  (∀ (s : State) (h : Nat) (w : HwSlot) (x : Queue) (p : Packet), s.atIssue h = some (w, x, p) → p.type = 3 → w.timed = none →
    ∃ t, exec (.timedLaunch h) s = .next t ∧
      tfind t.spine.hw h = some (timedRule s w p) ∧
      { t with spine := s.spine } = s) ∧
  (∀ (s : State) (h n dest : Nat) (w : HwSlot) (x : Queue) (p : Packet), s.atIssue h = some (w, x, p) → p.type = 2 →
    s.dataHome w.asid (BitVec.ofNat 64 (p.fld 16 8)) = some dest → p.fld 72 1 ≤ 6 → p.fld 8 8 % 4 = 0 →
    s.msgWorldOk w.asid p = true → s.ColophonOff w.asid → (s.ctx w.asid).freeLaunch = some n →
    ∃ t m, exec (.activeMessageLaunch h) s = .next t ∧ t.sends = s.sends ++ [m] ∧ m.dest = dest ∧ m.packet = some p.pos ∧
      m.stage = .toDest ∧ m.msg.handler = BitVec.ofNat 64 (p.fld 8 8) ∧ m.msg.sent = s.spine.time ∧
      (∀ i, i < 6 → vget 0 m.msg.payload i = if i < p.fld 72 1 then BitVec.ofNat 64 (p.fld (24 + 8 * i) 8) else 0) ∧
      m.msg.sid = BitVec.ofNat 64 ((s.ctx w.asid).nextLn.toNat * 2 ^ 32 + 0xFFFFFFFF) ∧ m.msg.lh = (s.ctx w.asid).nextLh ∧
      (t.ctx w.asid).nextLn = (s.ctx w.asid).nextLn + 1 ∧ (t.ctx w.asid).nextLh = (s.ctx w.asid).nextLh + 1) ∧
  (∀ (s : State) (h : Nat) (w : HwSlot) (x : Queue) (p : Packet),
    (PacketAt s h w x p 4 → ∃ t, exec (.barrier h) s = .next t ∧ PacketDone s t h w x p ∧ t.mem = s.mem) ∧
    (∀ ls, PacketAt s h w x p 5 → s.mem.wf = true → ls.length = 8 → p.fld 8 8 + 8 ≤ 2 ^ 55 →
      MapsTo s w.asid (BitVec.ofNat 64 (p.fld 8 8)) ls →
      ∃ t, exec (.signal h) s = .next t ∧ PacketDone s t h w x p ∧
        Written s t ((List.range 8).map fun i => (nth 0 ls i, BitVec.ofNat 8 (p.fld (16 + i) 1)))) ∧
    (∀ from_ to_, PacketAt s h w x p 6 → s.mem.wf = true → from_.length = p.fld 24 8 → to_.length = p.fld 24 8 →
      p.fld 8 8 + p.fld 24 8 ≤ 2 ^ 55 → p.fld 16 8 + p.fld 24 8 ≤ 2 ^ 55 →
      MapsTo s w.asid (BitVec.ofNat 64 (p.fld 8 8)) from_ → MapsTo s w.asid (BitVec.ofNat 64 (p.fld 16 8)) to_ →
      (∀ l ∈ from_, s.bad l = false) →
      ∃ t, exec (.copy h) s = .next t ∧ PacketDone s t h w x p ∧
        Written s t (to_.zip (from_.map (memGet s.mem)))))

/-- The debugger's commands (19 R422 to R428), each answered (23 R453): attaching, stops of strands, cores and contexts, force,
resumption, delivery, steps, reads and writes of a stopped strand, memory accesses of the attached context, clears. A stop of a core
whose context is saved while the core does other work waits with that context (19 R426).

That a command names a strand by its core and SID, and that every stopped strand of the core with that SID is meant, are the model's
choices, and so is what a command for a lent core means (log 21). -/
def Obligations.DebugEvents : Prop :=
  (∀ (s : State) (a : Nat) (auth : Bool) (m : BitVec 2),
    (∀ x, tfind s.ctxs a = some x → (x.sec = true → auth = true) →
      exec (.debugAttach a auth m) s = .next (State.respond { s with spine := { s.spine with attached := some (a, m) } } true 0)) ∧
    ((∀ x, tfind s.ctxs a = some x → x.sec = true ∧ auth = false) → Refuses (.debugAttach a auth m) s)) ∧
  (∀ (s : State) (c n : Nat) (sid : Word) (p : Strand), AtHand s c →
    ((s.core c).phase = .run → s.strand? c n = some p → p.sid = sid →
      Sets (.strandStop c sid) s c n sid { p with stopped := true }) ∧
    ((s.core c).phase ≠ .run → ∃ t, exec (.strandStop c sid) s = .next t ∧
      t.core c = { s.core c with stopAsks := (s.core c).stopAsks ++ [.strand sid] } ∧ Responded t true 0)) ∧
  (∀ (s : State) (c : Nat) (v : Saved) (sid : Word), Lent s c v →
    (∃ t, exec (.strandStop c sid) s = .next t ∧ Asked s t v (.strand sid) ∧ Responded t true 0) ∧
    (∃ t, exec (.coreStop c) s = .next t ∧ Asked s t v .core ∧ Responded t true 0) ∧
    ∃ t, exec (.force c) s = .next t ∧ Asked s t v .force ∧ Responded t true 0) ∧
  (∀ (s : State) (c : Nat), AtHand s c →
    (Stoppable s c 0 → ∃ t, exec (.coreStop c) s = .next t ∧ CoreStopped s t c ∧ Responded t true 0 ∧
      ∀ d, d ≠ c → t.core d = s.core d) ∧
    ((s.core c).phase ≠ .run → ∃ t, exec (.coreStop c) s = .next t ∧
      t.core c = { s.core c with stopAsks := (s.core c).stopAsks ++ [.core] } ∧ Responded t true 0 ∧
        ∃ u, exec (.force c) s = .next u ∧ u.core c = { s.core c with stopAsks := (s.core c).stopAsks ++ [.force] } ∧
          Responded u true 0) ∧
    (Stoppable s c 1 → ∃ t, exec (.force c) s = .next t ∧ wfld (t.core c).dbg 4 2 = 2 ∧ Responded t true 0 ∧
      (∀ n p, s.strand? c n = some p → t.strand? c n = some { p with stopped := true }) ∧ ∀ d, d ≠ c → t.core d = s.core d) ∧
    ((s.core c).phase = .run → wfld (s.core c).dbg 4 2 ≠ 1 → exec (.force c) s = .next (s.respond true 0))) ∧
  (∀ (s : State) (a : Nat), (s.coresOf a).Nodup → (∀ c ∈ s.coresOf a, Stoppable s c 0) →
    ∃ t, exec (.contextStop a) s = .next t ∧ Responded t true 0 ∧ (∀ c ∈ s.coresOf a, CoreStopped s t c) ∧
      (∀ v ∈ s.saved, v.stashed = true → v.asid.toNat = a →
        { v with image := { v.image with stopAsks := v.image.stopAsks ++ [.core] } } ∈ t.saved) ∧
      ∀ d, d ∉ s.coresOf a → t.core d = s.core d) ∧
  (∀ (s : State) (c n : Nat) (p : Strand) (pc : Word), StoppedAt s c n p →
    (HoldsTrap s c n p → p.stepWait = false →
      Sets (.resume c (some p.sid) pc) s c n p.sid { p with stopped := false, st := .ready, pc := pc &&& ~~~3#64 } ∧
      ∃ t, exec (.deliver c p.sid) s = .next t ∧ Leaves s t c n p.sid { p with stopped := false } ∧
        (t.core c).faultQ = (s.core c).faultQ ++ [n]) ∧
    (¬ HoldsTrap s c n p → p.stepWait = false → Sets (.resume c (some p.sid) pc) s c n p.sid { p with stopped := false }) ∧
    (¬ HoldsTrap s c n p → Refuses (.deliver c p.sid) s) ∧
    (∀ w, p.stepWait = true → p.st = .waiting w → w.reexecutes = true →
      Sets (.resume c (some p.sid) pc) s c n p.sid { p with stopped := false, stepWait := false, st := .ready }) ∧
    (∃ t q, exec (.step c p.sid) s = .next t ∧ Leaves s t c n p.sid q ∧ q.stopped = false ∧ q.stepping = true ∧ q.pc = p.pc ∧
      q.g = p.g ∧ (∀ w, p.st = .waiting w → w.reexecutes = true → q.st = .ready) ∧ (p.wait? = none → q.st = p.st)) ∧
    (∃ t regs, exec (.stateWrite c p.sid .read) s = .next t ∧ HostEvent.stateRead p regs ∈ t.events ∧ Responded t true 0 ∧
      { t with events := s.events } = s) ∧
    (∀ r v, Sets (.stateWrite c p.sid (.g r v)) s c n p.sid { p with g := vset p.g r v, board := tdel p.board r }) ∧
    (∀ v, Sets (.stateWrite c p.sid (.pc v)) s c n p.sid { p with pc := v &&& ~~~3#64 }) ∧
    (∀ v, Sets (.stateWrite c p.sid (.flags v)) s c n p.sid { p with flags := v.setWidth 16 &&& 0x7F }) ∧
    ∀ v, Sets (.stateWrite c p.sid (.rmode v)) s c n p.sid (if v.setWidth 3 ≤ 4#3 then { p with rmode := v.setWidth 3 } else p)) ∧
  (∀ (s : State) (c n : Nat) (e : ParkEntry) (pc : Word), (s.core c).phase = .run → AtHand s c → tfind (s.core c).park n = some e →
    e.strand.stopped = true → e.strand.stepWait = false →
    (∃ t, exec (.resume c (some e.strand.sid) pc) s = .next t ∧ Responded t true 0 ∧
      tfind (t.core c).park n = some { e with strand := { e.strand with stopped := false } }) ∧
    ∃ t, exec (.stateWrite c e.strand.sid (.pc pc)) s = .next t ∧ Responded t true 0 ∧
      tfind (t.core c).park n = some { e with strand := { e.strand with pc := pc &&& ~~~3#64 } }) ∧
  (∀ (s : State) (c : Nat) (sid : Word) (w : DbgWrite), AtHand s c →
    (∀ e ∈ (s.core c).located, e.2.sid = sid → e.2.stopped = false) →
    Refuses (.step c sid) s ∧ Refuses (.stateWrite c sid w) s ∧ Refuses (.deliver c sid) s) ∧
  (∀ (s : State) (c : Nat) (pc : Word), AtHand s c → ∃ t, exec (.resume c none pc) s = .next t ∧ wfld (t.core c).dbg 4 2 = 0 ∧
    (t.core c).stopAsks = [] ∧ Responded t true 0 ∧ (∀ d, d ≠ c → t.core d = s.core d) ∧
    ∀ n p, s.strand? c n = some p → p.stepWait = false →
      (HoldsTrap s c n p → t.strand? c n = some p) ∧ (¬ HoldsTrap s c n p → t.strand? c n = some { p with stopped := false })) ∧
  (∀ (s : State) (a : Nat) (va : Word) (ls : List Nat) (m : BitVec 2),
    (s.spine.attached = some (a, m) → MapsTo s a va ls →
      exec (.debugMemoryAccess a va ls.length none) s =
        .next (State.respond { s with events := s.events ++ [.debugRead (ls.map (memGet s.mem))] } true 0) ∧
      ∀ bs n, bs.length = ls.length → s.mem.wf = true →
        ∃ t, exec (.debugMemoryAccess a va n (some bs)) s = .next t ∧ Written s t (ls.zip bs) ∧ Responded t true 0 ∧
          { t with mem := s.mem, uncorr := s.uncorr, events := s.events } = s) ∧
    ((∀ k, s.spine.attached ≠ some (a, k)) → ∀ n d, Refuses (.debugMemoryAccess a va n d) s)) ∧
  (∀ (s : State) (c : Nat), ∃ t u, exec (.debugClear c true) s = .next t ∧ exec (.debugClear c false) s = .next u ∧
    t.core c = { s.core c with perf := Vector.replicate 16 0 } ∧ u.core c = { s.core c with dlyAcc := [] } ∧
    Responded t true 0 ∧ Responded u true 0 ∧ ∀ d, d ≠ c → t.core d = s.core d ∧ u.core d = s.core d) ∧
  ∀ (s : State) (e : Instr) (rest : List Instr), s.spine.commands = e :: rest → s.spine.debugging = none →
    s.spine.recovery = false →
    (isCommand e = true →
      exec .debugCommand s = .next { s with spine := { s.spine with commands := rest }, agenda := e :: s.agenda }) ∧
    (isCommand e = false →
      exec .debugCommand s = .next (State.respond { s with spine := { s.spine with commands := rest } } false 0))

/-- At the initiator and on the way (23 R456, R457, R466, R467): responses complete a remote operation, its bytes landing, NOT_READY
(code 0xFF, the model's choice: log 13) makes it wait and send again from the refused packet on, a dropped packet ends it, and ports
count failures, retrain and come up, their packets waiting meanwhile. By which port packets leave, that a packet answered before is
not taken twice, and that packets carry numbers of their queue pair's sequence are the model's choices (log 29).

At a target (23 R465, R467): a request of a wrong incarnation, of no queue pair, or of a right that its region lacks is
answered with its status, and one for an evicted queue pair is staged; one that passes is performed and answered.

Commands on queue pairs and memory regions (23 R459, R460, R468), each answered: a queue pair goes RESET, INIT, RTS and back, a
region FREE, VALID, DRAINING, FREE. -/
def Obligations.FabricEvents : Prop :=
  ((∀ (s : State) (o : EngOp) (op : RmaOp) (a off : Word) (key : BitVec 32) (n len : Nat) (y f : Bool) (q : Qp) (rsp : FabRsp),
    Posted s o op a off key n len y f q → rsp.id = o.id → rsp.qp = n →
    (rsp.inc ≠ q.inc → ∃ t, exec (.fabricResponse rsp) s = .next t ∧
      t.ops = withOp s o.id { o with st := .ended, status := 8 } ∧ (t.link (qpLink n)).rstale = (s.link (qpLink n)).rstale + 1) ∧
    (rsp.inc = q.inc → rsp.status = notReady → q.retry.toNat ≤ tget 0 o.refused rsp.off →
      ∃ t, exec (.fabricResponse rsp) s = .next t ∧ t.ops = withOp s o.id { o with st := .ended, status := 6 }) ∧
    (rsp.inc = q.inc → rsp.status = notReady → tget 0 o.refused rsp.off < q.retry.toNat →
      ∃ t, exec (.fabricResponse rsp) s = .next t ∧ tfind t.qps n = some { q with backoff := true } ∧
        t.ops = withOp s o.id { o with
          refused := tput o.refused rsp.off (tget 0 o.refused rsp.off + 1),
          again := some (match o.again with | some k => min rsp.off k | none => rsp.off) }) ∧
    (rsp.inc = q.inc → rsp.status ≠ notReady → rsp.status ≠ 0 →
      ∃ t, exec (.fabricResponse rsp) s = .next t ∧ t.ops = withOp s o.id { o with st := .ended, status := rsp.status } ∧
        t.qps = s.qps) ∧
    (rsp.inc = q.inc → rsp.status = 0 → rsp.off ∈ o.got →
      ∃ t, exec (.fabricResponse rsp) s = .next t ∧ t.ops = s.ops ∧ t.mem = s.mem) ∧
    (rsp.inc = q.inc → rsp.status = 0 → rsp.off ∉ o.got → op = .write →
      ∃ t, exec (.fabricResponse rsp) s = .next t ∧ t.ops = withOp s o.id (tookRule s o rsp) ∧ t.mem = s.mem ∧ t.qps = s.qps) ∧
    (∀ ls vas pages, rsp.inc = q.inc → rsp.status = 0 → rsp.off ∉ o.got → op ≠ .write → s.mem.wf = true → s.Unwatched →
      vas = (List.range rsp.data.length).map (fun i =>
        (if op = .read then a + BitVec.ofNat 64 (rsp.off - off.toNat) else a) + BitVec.ofNat 64 i) →
      pages = s.engPages o vas → (∀ x ∈ vas, wfld x 56 8 ∈ [0x00, 0xF0, 0xF1, 0xF2]) → SpanClear s o pages [] vas →
      ls = vas.map (fun x => (s.engByte o pages false true x).locs.headD 0) → ls.Nodup →
      ∃ t, exec (.fabricResponse rsp) s = .next t ∧ t.ops = withOp s o.id (tookRule s o rsp) ∧ Written s t (ls.zip rsp.data)) ∧
    (∀ k, q.backoff = true → s.postsOf o.asid n = [o] → o.again = some k → ((s.link (qpLink n)).port q.port.toNat).st = 2 →
      ∃ t, exec (.notReadyResend o.id) s = .next t ∧
        t.events = s.events ++ ((s.packets o).filter (fun p => decide (k ≤ p.off))).map
          (fun p => .fabric (qpLink n) q.port.toNat q.rmod.toNat (.req p)) ∧
        tfind t.qps n = some { q with backoff := false } ∧ t.ops = withOp s o.id { o with again := none }) ∧
    (o.cls = 3 → ∃ t, exec (.packetAgeDrop o.id) s = .next t ∧ t.ops = withOp s o.id { o with st := .ended, status := 7 } ∧
      { t with ops := s.ops, saved := s.saved } = s)) ∧
  (∀ (s : State) (l n : Nat) (x : Port), x = (s.link l).port n →
    (∃ t, exec (.frameReceive l n true) s = .next t ∧ OnePort s t l n { x with fails := 0 } ∧ t.events = s.events) ∧
    (∃ t, exec (.frameReceive l n false) s = .next t ∧ OnePort s t l n { x with resent := x.resent + 1, fails := x.fails + 1 } ∧
      t.events = s.events) ∧
    (17 ≤ x.fails → ∃ t, exec (.portRetrain l n) s = .next t ∧ OnePort s t l n { x with st := 1, fails := 0 } ∧
      t.events = s.events) ∧
    (x.st ≠ 2 → ∃ t, exec (.portTrained l n true) s = .next t ∧ OnePort s t l n { x with st := 2, fails := 0, waits := [] } ∧
      t.events = s.events ++ x.waits.map (fun w => .fabric l n w.1 w.2)) ∧
    (x.st ≠ 2 → ∃ t, exec (.portTrained l n false) s = .next t ∧ (t.link l).port n = { x with st := 0, fails := 0, waits := [] } ∧
      ∀ (o : EngOp) (m : Nat) (q : Qp), o ∈ s.ops → o.qp? = some m → tfind s.qps m = some q → o.st ≠ .ended → o.arrived ≠ none →
        LeavesBy s m q l n → { o with st := .ended, status := 7 } ∈ t.ops)) ∧
  ∀ (s : State) (l dst i n : Nat) (p : FabPkt) (x : Port), i = wfld (tget 0 s.spine.froute dst) 4 4 →
    n = wfld (tget 0 s.spine.froute dst) 0 2 → x = (s.link i).port n →
    ((tget 0 s.spine.froute dst).getLsbD 63 = true → x.st = 2 →
      exec (.fabricForward l dst p) s = .next { s with events := s.events ++ [.fabric i n dst p] }) ∧
    ((tget 0 s.spine.froute dst).getLsbD 63 = true → x.st = 1 →
      ∃ t, exec (.fabricForward l dst p) s = .next t ∧ OnePort s t i n { x with waits := x.waits ++ [(dst, p)] } ∧ t.events = s.events) ∧
    ((tget 0 s.spine.froute dst).getLsbD 63 = false ∨ x.st = 0 → exec (.fabricForward l dst p) s = .next s)) ∧
  ((∀ (s : State) (l : Nat) (p : FabReq),
    (p.inc ≠ s.linkInc l → exec (.fabricRequestAtTarget l p) s = .next (s.answer l p 8 [])) ∧
    (p.inc = s.linkInc l → tfind s.qps p.qp = none → exec (.fabricRequestAtTarget l p) s = .next (s.answer l p 5 [])) ∧
    (∀ q status data, tfind s.qps p.qp = some q → ((s.link (qpLink p.qp)).port q.port.toNat).st = 2 →
      s.answer l p status data = { s with events := s.events ++ [answerRule s l p q status data] }) ∧
    (∀ q, p.inc = s.linkInc l → tfind s.qps p.qp = some q → q.resident = false → 64 ≤ (s.link l).staged.length →
      exec (.fabricRequestAtTarget l p) s =
        .next ((s.modLink l fun k => { k with notReady := k.notReady + 1 }).answer l p notReady [])) ∧
    (∀ q, p.inc = s.linkInc l → tfind s.qps p.qp = some q → q.resident = false → (s.link l).staged.length < 64 →
      ∃ t, exec (.fabricRequestAtTarget l p) s = .next t ∧
        OneLink s t l { s.link l with staged := (s.link l).staged ++ [p] } ∧ { t with links := s.links } = s)) ∧
  (∀ (s : State) (l : Nat) (p : FabReq) (q : Qp) (r : MemRegion) (ls : List Nat), s.mem.wf = true → s.Unwatched →
    LetIn s l p q r ls →
    (p.op = .write → p.len = ls.length → p.data.length = ls.length →
      (r.rw = true → ∃ t, exec (.fabricRequestAtTarget l p) s = .next t ∧ Written s t (ls.zip p.data) ∧
        t.events = s.events ++ [answerRule s l p q 0 []] ∧ t.memRegion (keyIndex p.key) = r) ∧
      (r.rw = false → ∃ t, exec (.fabricRequestAtTarget l p) s = .next t ∧ t.mem = s.mem ∧
        t.events = s.events ++ [answerRule s l p q 4 []])) ∧
    (p.op = .read → p.len = ls.length →
      (r.rr = true → ∃ t, exec (.fabricRequestAtTarget l p) s = .next t ∧ t.mem = s.mem ∧
        t.events = s.events ++ [answerRule s l p q 0 (ls.map (memGet s.mem))] ∧ t.memRegion (keyIndex p.key) = r) ∧
      (r.rr = false → ∃ t, exec (.fabricRequestAtTarget l p) s = .next t ∧ t.mem = s.mem ∧
        t.events = s.events ++ [answerRule s l p q 4 []])) ∧
    (p.op = .fadd → ls.length = 8 → p.off % 8 = 0 → r.ra = true → s.pasBusy ls = false →
      ∃ t, exec (.fabricRequestAtTarget l p) s = .next t ∧ t.spine.pasSeq = s.spine.pasSeq + 1 ∧
        t.events = s.events ++ [answerRule s l p q 0 (ls.map (memGet s.mem))] ∧
        Written s t (ls.zip (leBytes 8 ((memVal s.mem ls + leNat (p.data.take 8)) % 2 ^ 64))))) ∧
  (∀ (s : State) (n : Nat) (q : Qp), tfind s.qps n = some q → q.resident = false → (∀ x ∈ (s.link (qpLink n)).staged, x.qp ≠ n) →
    (s.link (qpLink n)).lru.length < 8192 → n ∉ (s.link (qpLink n)).lru →
    ∃ t, exec (.qpContextFetch n) s = .next t ∧ tfind t.qps n = some { q with resident := true } ∧
      (t.link (qpLink n)).lru = (s.link (qpLink n)).lru ++ [n] ∧ (t.link (qpLink n)).staged = (s.link (qpLink n)).staged) ∧
  ∀ (s : State) (l : Nat), l < 15 → ((s.site (nth 0 linkSites l)).st ≠ .live → exec (.linkChipletReset l) s = .next s) ∧
    ((s.site (nth 0 linkSites l)).st = .live → ∃ t, exec (.linkChipletReset l) s = .next t ∧ (t.link l).staged = [] ∧ (t.link l).admitted = [] ∧
      t.linkInc l = s.linkInc l + 1 ∧ (t.site (nth 0 linkSites l)).st = .clocked ∧
      ∀ n q, tfind s.qps n = some q →
        (qpLink n = l → tfind t.qps n = some { q with st := .reset, backoff := false }) ∧
        (qpLink n ≠ l → tfind t.qps n = some q))) ∧
  ((∀ (s : State) (a l i : Nat) (x : Ctx), tfind s.ctxs a = some x → l < 15 → i < 2 ^ 20 → i ≤ s.qps.length →
    (∀ j, j < i → (tfind s.qps (l * 2 ^ 20 + j)).isSome = true) → tfind s.qps (l * 2 ^ 20 + i) = none →
    (s.link l).lru.length < 8192 → l * 2 ^ 20 + i ∉ (s.link l).lru →
    ∃ t, exec (.qpCreate a l) s = .next t ∧ Responded t true (BitVec.ofNat 64 (l * 2 ^ 20 + i)) ∧
      tfind t.qps (l * 2 ^ 20 + i) =
        some { Qp.blank with asid := BitVec.ofNat 12 a, sec := x.sec, st := .reset, resident := true } ∧
      (∀ n, n ≠ l * 2 ^ 20 + i → tfind t.qps n = tfind s.qps n) ∧
      OneLink s t l { s.link l with lru := (s.link l).lru ++ [l * 2 ^ 20 + i] }) ∧
  (∀ (s : State) (a l : Nat), tfind s.ctxs a = none ∨ 15 ≤ l → Refuses (.qpCreate a l) s) ∧
  (∀ (s : State) (n : Nat) (q : Qp) (port : BitVec 2) (retry : BitVec 4) (rmod inc : BitVec 8) (rqp : BitVec 24),
    tfind s.qps n = some q →
    (q.st = .reset → exec (.qpInit n port retry) s =
      .next (State.respond { s with qps := tput s.qps n { q with st := .init, port := port, retry := retry } } true 0)) ∧
    (q.st ≠ .reset → Refuses (.qpInit n port retry) s ∧ Refuses (.qpDestroy n) s) ∧
    (q.st = .init → exec (.qpConnect n rmod rqp inc) s = .next (State.respond
      { s with qps := tput s.qps n (connected q rmod rqp inc) } true 0)) ∧
    (q.st ≠ .init → Refuses (.qpConnect n rmod rqp inc) s) ∧
    (∃ t, exec (.qpReset n) s = .next t ∧ tfind t.qps n = some { q with st := .reset, backoff := false } ∧
      Responded t true 0 ∧ t.allOps = s.allOps.map (fun o => if o.qp? = some n ∧ o.asid = q.asid.toNat
        then { o with st := .ended, status := 1 } else o)) ∧
    (q.st = .reset → ∃ t, exec (.qpDestroy n) s = .next t ∧ tfind t.qps n = none ∧ Responded t true 0 ∧
      (∀ m, m ≠ n → tfind t.qps m = tfind s.qps m) ∧ t.ops = s.ops)) ∧
  (∀ (s : State) (a : Nat) (base : Word) (len i : Nat) (rr rw ra : Bool),
    ((tfind s.ctxs a).isSome = true → base.toNat % 64 = 0 → len % 64 = 0 → 64 ≤ len → len ≤ 2 ^ 40 →
      (ra = true → (s.ctx a).mode = .off) → s.rangeValid a base len = true → i < 2 ^ 24 → i ≤ s.memRegions.length →
      (∀ j, j < i → (s.memRegion j).st ≠ .free) → (s.memRegion i).st = .free → (s.memRegion i).toApply = [] →
      ∃ t, exec (.reg a base len rr rw ra) s = .next t ∧ t.memRegion i = regionRule s a base len rr rw ra (s.memRegion i).gen ∧
        Responded t true (BitVec.ofNat 64 (i * 2 ^ 8 + (s.memRegion i).gen.toNat)) ∧
        (∀ j, j ≠ i → t.memRegion j = s.memRegion j) ∧ { t with memRegions := s.memRegions, events := s.events } = s) ∧
    (tfind s.ctxs a = none ∨ base.toNat % 64 ≠ 0 ∨ len % 64 ≠ 0 ∨ len < 64 ∨ 2 ^ 40 < len ∨
      (ra = true ∧ (s.ctx a).mode ≠ .off) ∨ s.rangeValid a base len = false → Refuses (.reg a base len rr rw ra) s)) ∧
  ∀ (s : State) (key : BitVec 32) (i l : Nat), i = keyIndex key →
    ((s.memRegion i).st = .valid → (s.memRegion i).gen.toNat = key.toNat % 2 ^ 8 →
      ∃ t, exec (.revoke key) s = .next t ∧ t.memRegion i = revokedRule s (s.memRegion i) ∧
        HostEvent.response true 0 ∈ t.events ∧ ∀ j, j ≠ i → t.memRegion j = s.memRegion j) ∧
    ((s.memRegion i).st ≠ .valid ∨ (s.memRegion i).gen.toNat ≠ key.toNat % 2 ^ 8 → Refuses (.revoke key) s) ∧
    ∃ t, exec (.revokeApply l i) s = .next t ∧ t.memRegion i = appliedRule (s.memRegion i) l ∧
      (∀ j, j ≠ i → t.memRegion j = s.memRegion j) ∧ { t with memRegions := s.memRegions, events := s.events } = s)

/-- Module reset (14 R325; 17 Table 17.12; 18 R416): every site is OFF and holds nothing, no strand lives, no context, partition or
queue pair exists, 32 inrush tokens are free, COLTMO is 10,000, and memory lists nothing and is in canonical form. What the manual
gives no reset value, and that memory lists nothing, are the model's choices (log 6 and 4). -/
def Obligations.ResetState : Prop :=
  (∀ n, (State.reset.site n).st = .off ∧ (State.reset.site n).cores = 0 ∧ (State.reset.site n).lchip = 0xFFFF ∧
    (State.reset.site n).inc = 0) ∧
  (∀ c n, State.reset.strand? c n = none ∧ (State.reset.core c).ctxv = false ∧ (State.reset.core c).park = [] ∧
    (State.reset.core c).inbuf = []) ∧
  State.reset.ctxs = [] ∧ State.reset.parts = [] ∧ State.reset.qps = [] ∧ State.reset.issuing = [] ∧
  State.reset.spine.powered = false ∧ State.reset.spine.tokens = 32 ∧ State.reset.spine.colTmo = 10000 ∧
  State.reset.mem = [] ∧ State.reset.mem.wf = true

/-- Every step keeps memory in canonical form: addresses strictly rising, and no byte listed with the value of an unlisted one, which
is 0 by the model's choice (log 4). -/
def Obligations.StepKeepsMemory : Prop :=
  ∀ s t : State, s.mem.wf = true → step s = .next t → t.mem.wf = true

/-- A step at a member of the issue group runs the instruction that its bytes decode to (01 R38); with no group open it runs the next
act of the agenda (log 1). Before that the fetch checks the PC and the page, in order (01 R19, R38 step 1). -/
def Obligations.StepRunsDecoded : Prop :=
  (∀ (s : State) (c sl : Nat) (rest : List (Nat × Nat)) (p : Strand), Member s c sl rest p →
    (∀ bs i more, Fetches s c p bs → decode bs = .ok (i, more) → step s = exec i (s.entered c sl rest)) ∧
    (2 ^ 56 ≤ p.pc.toNat → p.pc.toNat < 0xF0 * 2 ^ 56 → Raises s c sl rest WordId.none .addr 1 p.pc) ∧
    (∀ e, Translated s c p e → e.pte.getLsbD 4 = false → Raises s c sl rest WordId.none .prot 0 p.pc) ∧
    (∀ e, Translated s c p e → e.pte.getLsbD 4 = true → e.pte.getLsbD 6 = !p.sec →
      Raises s c sl rest WordId.none .world 0 p.pc) ∧
    (∀ e l, Translated s c p e → e.pte.getLsbD 4 = true → l ∈ s.blockLocs c e p.pc → s.worldOk p.sec l = false →
      Raises s c sl rest WordId.none .world 0 p.pc)) ∧
  (∀ (s : State) (c sl : Nat) (rest : List (Nat × Nat)), s.issuing = (c, sl) :: rest → s.strand? c sl = none →
    step s = .next (s.entered c sl rest)) ∧
  ∀ (s : State) (e : Instr) (rest : List Instr), s.issuing = [] → s.agenda = e :: rest → e.shape = none →
    step s = exec e { s with agenda := rest }

/-- A MAJ or FN that the opcode map does not assign raises ILLEGAL_OPCODE, once the word's length is legal and it lies in its fetch
block; LEN 11 and a word that straddles raise their own faults before. -/
def Obligations.UnassignedOpcodes : Prop :=
  ∀ (s : State) (c sl : Nat) (rest : List (Nat × Nat)) (p : Strand) (bs : List Byte) (w : WordId), Member s c sl rest p →
    Fetches s c p bs → w = wordIdOf bs →
    (w.len = 3 → Raises s c sl rest w .illegalEncoding 0 0) ∧
    (w.len ≠ 3 → 32 < p.pc.toNat % 32 + w.bytes → Raises s c sl rest w .fetchStraddle 0 0) ∧
    (w.len ≠ 3 → p.pc.toNat % 32 + w.bytes ≤ 32 → fnCount w.maj.toNat ≤ w.fn.toNat →
      Raises s c sl rest w .illegalOpcode 0 0)

/-- Decoding what the encoder writes for a well-formed instruction gives it back, with what follows it. -/
def Obligations.EncodeDecode : Prop :=
  ∀ (i : Instr) (rest : List Byte), i.wellFormed = true → decode (encodeBytes i ++ rest) = .ok (i, rest)

/-- Worked encodings of the manual decode to the instructions that they stand for (01 Table 01.9, 06 Table 06.13, 08 Table 08.10,
09 Table 09.10, 10 Table 10.8, 16 Table 16.7, 23 Table 23.9), and the word of ILL is none. -/
def Obligations.DecodedWords : Prop :=
  decodeTableWord 64 0x0000C0C501030004 =
    some (.add false { plainOps .w64 with d := .g 3, a := .g 1, b := .l6 5 }) ∧
  decodeTableWord 96 0x000186A00000C0C001030005 =
    some (.add false { plainOps .w96 with d := .g 3, a := .g 1, b := .l32 100000 }) ∧
  decodeTableWord 64 0xDC80C0C1090200D4 =
    some (.aadd true ⟨.pkg, .rel, 16⟩ { plainOps .w64 with d := .g 2, a := .g 9, b := .l6 1 }) ∧
  decodeTableWord 64 0x000B414640420D84 =
    some (.ffma ⟨true, false, false, false, false, false⟩ .rne
      { plainOps .w64 with m := 3, d := .v 2, a := .v 0, b := .v 6, c := .v 1 }) ∧
  decodeTableWord 128 0x000000000000C040201006C00409024A =
    some (.mstream ⟨false, false, true, .bf16, 0, 1, 96, 64, 0, 0⟩
      { plainOps .w128 with d := .g 9, a := .g 4, b := .l6 0, c := .g 6 }) ∧
  decodeTableWord 64 0x0020C0C0CF030280 = some (.gang 0 true { plainOps .w64 with d := .g 3, a := .l6 15 }) ∧
  decodeTableWord 64 0x01A0C08309010300 =
    some (.amsend ⟨false, 3, 4⟩ { plainOps .w64 with d := .g 1, a := .g 9, b := .k 3 }) ∧
  decodeTableWord 128 0x00000000000010001000060504090342 =
    some (.rmapostWrite true false 4096 { plainOps .w128 with d := .g 9, a := .g 4, b := .g 5, c := .g 6 }) ∧
  decodeTableWord 64 0x000000000000FFFC = none

/-- A fetcher takes the packet at the next position of a mapped queue when its PHASE equals the parity of the lap after its own, and
nothing otherwise; so it finds a zeroed ring empty. -/
def Obligations.PacketPhase : Prop :=
  ∀ (s : State) (h lap i : Nat) (w : HwSlot) (x : Queue) (a : Word), s.slotQueue h = some (w, x) → w.fetched.length < 17 →
    i < 2 ^ x.qcb.n → x.qcb.readPos + w.fetched.length = lap * 2 ^ x.qcb.n + i → a = x.qcb.ring + BitVec.ofNat 64 (128 * i) →
    (bitsOf (s.spineRead x.asid a 8) 8 1 = (lap + 1) % 2 →
      ∃ t p, exec (.packetFetch h) s = .next t ∧ tfind t.spine.hw h = some { w with fetched := w.fetched ++ [p] } ∧
        p.pos = lap * 2 ^ x.qcb.n + i ∧ p.bytes = BitVec.ofNat 1024 (s.spineRead x.asid a 128) ∧ { t with spine := s.spine } = s) ∧
    (bitsOf (s.spineRead x.asid a 8) 8 1 ≠ (lap + 1) % 2 → exec (.packetFetch h) s = .next s) ∧
    (lap = 0 → s.spineRead x.asid a 8 = 0 → exec (.packetFetch h) s = .next s)

end Statements
end

