-- ==== Sys2Proof/Laws/Memory.lean ====
section
/-! SUPPORT. Memory and tables: what a read gives after a write, and that every operation keeps the canonical form. -/

namespace Sys2Proof.Machine

/-! ### Memory -/

theorem memRising_weaken : ∀ (m : Memory) {i j : Nat}, i ≤ j → memRising j m = true → memRising i m = true
  | [], _, _, _, _ => rfl
  | (a, b) :: m, i, j, h, hr => by
    simp only [memRising, Bool.and_eq_true, decide_eq_true_eq] at hr ⊢
    exact ⟨⟨by omega, hr.1.2⟩, hr.2⟩

theorem memGet_below : ∀ (m : Memory) {lo l : Nat}, memRising lo m = true → l < lo → memGet m l = 0
  | [], _, _, _, _ => rfl
  | (a, b) :: m, lo, l, hr, hl => by
    simp only [memRising, Bool.and_eq_true, decide_eq_true_eq] at hr
    have hne : a ≠ l := by omega
    simp only [memGet, if_neg hne]
    exact memGet_below m hr.2 (by omega)

theorem memPut_rising : ∀ (m : Memory) {lo l : Nat} (v : Byte), memRising lo m = true → lo ≤ l →
    memRising lo (memPut m l v) = true
  | [], lo, l, v, _, hl => by
    unfold memPut
    split
    · rfl
    · rename_i hv
      simp only [memRising, Bool.and_eq_true, decide_eq_true_eq]
      exact ⟨⟨hl, bne_iff_ne.mpr hv⟩, trivial⟩
  | (a, b) :: m, lo, l, v, hr, hl => by
    simp only [memRising, Bool.and_eq_true, decide_eq_true_eq] at hr
    obtain ⟨⟨ha, hb⟩, hm⟩ := hr
    unfold memPut
    split
    · split
      · simp only [memRising, Bool.and_eq_true, decide_eq_true_eq]
        exact ⟨⟨ha, hb⟩, hm⟩
      · rename_i h1 hv
        simp only [memRising, Bool.and_eq_true, decide_eq_true_eq]
        exact ⟨⟨hl, bne_iff_ne.mpr hv⟩, ⟨by omega, hb⟩, hm⟩
    · split
      · split
        · exact memRising_weaken m (by omega) hm
        · rename_i hv
          simp only [memRising, Bool.and_eq_true, decide_eq_true_eq]
          subst l
          exact ⟨⟨hl, bne_iff_ne.mpr hv⟩, hm⟩
      · simp only [memRising, Bool.and_eq_true, decide_eq_true_eq]
        exact ⟨⟨ha, hb⟩, memPut_rising m v hm (by omega)⟩

/-- A write keeps the canonical form. -/
theorem memPut_wf {m : Memory} (h : m.wf = true) (l : Nat) (v : Byte) : Memory.wf (memPut m l v) = true :=
  memPut_rising m v h (Nat.zero_le l)

/-- A byte reads as it was written. -/
theorem memGet_memPut_same : ∀ (m : Memory) {lo : Nat} (l : Nat) (v : Byte), memRising lo m = true →
    memGet (memPut m l v) l = v
  | [], _, l, v, _ => by
    unfold memPut
    split
    · rename_i hv; simp [memGet, hv]
    · simp [memGet]
  | (a, b) :: m, lo, l, v, hr => by
    simp only [memRising, Bool.and_eq_true, decide_eq_true_eq] at hr
    obtain ⟨⟨ha, hb⟩, hm⟩ := hr
    unfold memPut
    split
    · rename_i hla
      split
      · rename_i hv
        have hne : a ≠ l := by omega
        simp only [memGet, if_neg hne, hv]
        exact memGet_below m hm (by omega)
      · simp [memGet]
    · split
      · rename_i hla
        split
        · rename_i hv
          rw [hv]
          exact memGet_below m hm (by omega)
        · simp [memGet]
      · rename_i h1 h2
        have hne : a ≠ l := fun h => h2 h.symm
        simp only [memGet, if_neg hne]
        exact memGet_memPut_same m l v hm

/-- A write leaves every other byte. -/
theorem memGet_memPut_ne : ∀ (m : Memory) (l k : Nat) (v : Byte), k ≠ l → memGet (memPut m l v) k = memGet m k
  | [], l, k, v, h => by
    unfold memPut
    split
    · rfl
    · have h' : ¬ l = k := fun e => h e.symm
      simp [memGet, h']
  | (a, b) :: m, l, k, v, h => by
    have h' : ¬ l = k := fun e => h e.symm
    unfold memPut
    split
    · split
      · rfl
      · simp [memGet, h']
    · split
      · rename_i hla
        subst hla
        split
        · simp [memGet, h']
        · simp [memGet, h']
      · simp only [memGet]
        split
        · rfl
        · exact memGet_memPut_ne m l k v h

/-- Writing cells keeps the canonical form. -/
theorem memWrite_wf (cells : List Host.Cell) : ∀ {m : Memory}, m.wf = true → Memory.wf (memWrite m cells) = true := by
  induction cells with
  | nil => intro m h; exact h
  | cons c cs ih => intro m h; exact ih (memPut_wf h c.1 c.2)

/-- A location that no cell names reads as before. -/
theorem memGet_memWrite_ne (cells : List Host.Cell) : ∀ (m : Memory) (k : Nat), (∀ c ∈ cells, c.1 ≠ k) →
    memGet (memWrite m cells) k = memGet m k := by
  induction cells with
  | nil => intro m k _; rfl
  | cons c cs ih =>
    intro m k h
    have h1 := ih (memPut m c.1 c.2) k (fun d hd => h d (List.mem_cons_of_mem _ hd))
    have h2 := memGet_memPut_ne m c.1 k c.2 (fun e => h c List.mem_cons_self e.symm)
    simpa [memWrite] using h1.trans h2

theorem memRising_filter (p : Host.Cell → Bool) : ∀ (m : Memory) {lo : Nat}, memRising lo m = true →
    memRising lo (m.filter p) = true
  | [], _, _ => rfl
  | (a, b) :: m, lo, hr => by
    simp only [memRising, Bool.and_eq_true, decide_eq_true_eq] at hr
    obtain ⟨⟨ha, hb⟩, hm⟩ := hr
    rw [List.filter_cons]
    split
    · simp only [memRising, Bool.and_eq_true, decide_eq_true_eq]
      exact ⟨⟨ha, hb⟩, memRising_filter p m hm⟩
    · exact memRising_weaken _ (by omega) (memRising_filter p m hm)

/-- Clearing a range keeps the canonical form. -/
theorem memClear_wf {m : Memory} (h : m.wf = true) (l n : Nat) : Memory.wf (memClear m l n) = true :=
  memRising_filter _ m h

/-! ### Tables -/

@[simp] theorem tfind_tput_same {α : Type} : ∀ (t : Tbl α) (k : Nat) (v : α), tfind (tput t k v) k = some v
  | [], k, v => by simp [tput, tfind]
  | (a, w) :: t, k, v => by
    unfold tput
    split
    · simp [tfind]
    · split
      · simp [tfind]
      · rename_i h1 h2
        have h : ¬ a = k := fun e => h2 e.symm
        simp [tfind, h, tfind_tput_same t k v]

theorem tfind_tput_ne {α : Type} : ∀ (t : Tbl α) {k n : Nat} (v : α), n ≠ k → tfind (tput t k v) n = tfind t n
  | [], k, n, v, h => by
    have h' : ¬ k = n := fun e => h e.symm
    simp [tput, tfind, h']
  | (a, w) :: t, k, n, v, h => by
    have h' : ¬ k = n := fun e => h e.symm
    unfold tput
    split
    · simp [tfind, h']
    · split
      · rename_i hk
        subst hk
        simp [tfind, h']
      · simp only [tfind]
        split
        · rfl
        · exact tfind_tput_ne t v h

@[simp] theorem tget_tput_same {α : Type} (d : α) (t : Tbl α) (k : Nat) (v : α) : tget d (tput t k v) k = v := by
  simp [tget]

theorem tget_tput_ne {α : Type} (d : α) (t : Tbl α) {k n : Nat} (v : α) (h : n ≠ k) :
    tget d (tput t k v) n = tget d t n := by
  simp [tget, tfind_tput_ne t v h]

theorem tfind_tdel_same {α : Type} : ∀ (t : Tbl α) (k : Nat), tfind (tdel t k) k = none
  | [], _ => rfl
  | (a, w) :: t, k => by
    unfold tdel
    rw [List.filter_cons]
    split
    · rename_i h
      have h' : ¬ a = k := bne_iff_ne.mp h
      simp only [tfind, if_neg h']
      exact tfind_tdel_same t k
    · exact tfind_tdel_same t k

/-! ### Vectors -/

@[simp] theorem vget_vset_same {α : Type} {n : Nat} (d : α) (v : Vector α n) (i : Nat) (a : α) (h : i < n) :
    vget d (vset v i a) i = a := by
  simp [vget, vset, h]

theorem vget_vset_ne {α : Type} {n : Nat} (d : α) (v : Vector α n) {i j : Nat} (a : α) (h : j ≠ i) :
    vget d (vset v i a) j = vget d v j := by
  simp [vget, vset, Ne.symm h]

end Sys2Proof.Machine
end

