-- ==== Sys2Proof/Laws/State.lean ====
section
/-! SUPPORT. What each update of the state leaves, field by field, and what it gives. -/

namespace Sys2Proof.Machine

set_option linter.unusedVariables false

@[simp] theorem State.setCore_mem (s : State) (c : Nat) (k : Core) : (s.setCore c k).mem = s.mem := rfl
@[simp] theorem State.setCore_uncorr (s : State) (c : Nat) (k : Core) : (s.setCore c k).uncorr = s.uncorr := rfl
@[simp] theorem State.setCore_sites (s : State) (c : Nat) (k : Core) : (s.setCore c k).sites = s.sites := rfl
@[simp] theorem State.setCore_parts (s : State) (c : Nat) (k : Core) : (s.setCore c k).parts = s.parts := rfl
@[simp] theorem State.setCore_regions (s : State) (c : Nat) (k : Core) : (s.setCore c k).regions = s.regions := rfl
@[simp] theorem State.setCore_clusters (s : State) (c : Nat) (k : Core) : (s.setCore c k).clusters = s.clusters := rfl
@[simp] theorem State.setCore_chiplets (s : State) (c : Nat) (k : Core) : (s.setCore c k).chiplets = s.chiplets := rfl
@[simp] theorem State.setCore_ctxs (s : State) (c : Nat) (k : Core) : (s.setCore c k).ctxs = s.ctxs := rfl
@[simp] theorem State.setCore_lanes (s : State) (c : Nat) (k : Core) : (s.setCore c k).lanes = s.lanes := rfl
@[simp] theorem State.setCore_spine (s : State) (c : Nat) (k : Core) : (s.setCore c k).spine = s.spine := rfl
@[simp] theorem State.setCore_links (s : State) (c : Nat) (k : Core) : (s.setCore c k).links = s.links := rfl
@[simp] theorem State.setCore_qps (s : State) (c : Nat) (k : Core) : (s.setCore c k).qps = s.qps := rfl
@[simp] theorem State.setCore_memRegions (s : State) (c : Nat) (k : Core) : (s.setCore c k).memRegions = s.memRegions := rfl
@[simp] theorem State.setCore_saved (s : State) (c : Nat) (k : Core) : (s.setCore c k).saved = s.saved := rfl
@[simp] theorem State.setCore_loads (s : State) (c : Nat) (k : Core) : (s.setCore c k).loads = s.loads := rfl
@[simp] theorem State.setCore_writes (s : State) (c : Nat) (k : Core) : (s.setCore c k).writes = s.writes := rfl
@[simp] theorem State.setCore_atoms (s : State) (c : Nat) (k : Core) : (s.setCore c k).atoms = s.atoms := rfl
@[simp] theorem State.setCore_sends (s : State) (c : Nat) (k : Core) : (s.setCore c k).sends = s.sends := rfl
@[simp] theorem State.setCore_migs (s : State) (c : Nat) (k : Core) : (s.setCore c k).migs = s.migs := rfl
@[simp] theorem State.setCore_ops (s : State) (c : Nat) (k : Core) : (s.setCore c k).ops = s.ops := rfl
@[simp] theorem State.setCore_shoots (s : State) (c : Nat) (k : Core) : (s.setCore c k).shoots = s.shoots := rfl
@[simp] theorem State.setCore_steals (s : State) (c : Nat) (k : Core) : (s.setCore c k).steals = s.steals := rfl
@[simp] theorem State.setCore_pageReplies (s : State) (c : Nat) (k : Core) : (s.setCore c k).pageReplies = s.pageReplies := rfl
@[simp] theorem State.setCore_events (s : State) (c : Nat) (k : Core) : (s.setCore c k).events = s.events := rfl
@[simp] theorem State.setCore_fresh (s : State) (c : Nat) (k : Core) : (s.setCore c k).fresh = s.fresh := rfl
@[simp] theorem State.setCore_cur (s : State) (c : Nat) (k : Core) : (s.setCore c k).cur = s.cur := rfl
@[simp] theorem State.setCore_issuing (s : State) (c : Nat) (k : Core) : (s.setCore c k).issuing = s.issuing := rfl
@[simp] theorem State.setCore_agenda (s : State) (c : Nat) (k : Core) : (s.setCore c k).agenda = s.agenda := rfl
@[simp] theorem State.modCore_mem (s : State) (c : Nat) (f : Core → Core) : (s.modCore c f).mem = s.mem := rfl
@[simp] theorem State.modCore_uncorr (s : State) (c : Nat) (f : Core → Core) : (s.modCore c f).uncorr = s.uncorr := rfl
@[simp] theorem State.modCore_sites (s : State) (c : Nat) (f : Core → Core) : (s.modCore c f).sites = s.sites := rfl
@[simp] theorem State.modCore_parts (s : State) (c : Nat) (f : Core → Core) : (s.modCore c f).parts = s.parts := rfl
@[simp] theorem State.modCore_regions (s : State) (c : Nat) (f : Core → Core) : (s.modCore c f).regions = s.regions := rfl
@[simp] theorem State.modCore_clusters (s : State) (c : Nat) (f : Core → Core) : (s.modCore c f).clusters = s.clusters := rfl
@[simp] theorem State.modCore_chiplets (s : State) (c : Nat) (f : Core → Core) : (s.modCore c f).chiplets = s.chiplets := rfl
@[simp] theorem State.modCore_ctxs (s : State) (c : Nat) (f : Core → Core) : (s.modCore c f).ctxs = s.ctxs := rfl
@[simp] theorem State.modCore_lanes (s : State) (c : Nat) (f : Core → Core) : (s.modCore c f).lanes = s.lanes := rfl
@[simp] theorem State.modCore_spine (s : State) (c : Nat) (f : Core → Core) : (s.modCore c f).spine = s.spine := rfl
@[simp] theorem State.modCore_links (s : State) (c : Nat) (f : Core → Core) : (s.modCore c f).links = s.links := rfl
@[simp] theorem State.modCore_qps (s : State) (c : Nat) (f : Core → Core) : (s.modCore c f).qps = s.qps := rfl
@[simp] theorem State.modCore_memRegions (s : State) (c : Nat) (f : Core → Core) : (s.modCore c f).memRegions = s.memRegions := rfl
@[simp] theorem State.modCore_saved (s : State) (c : Nat) (f : Core → Core) : (s.modCore c f).saved = s.saved := rfl
@[simp] theorem State.modCore_loads (s : State) (c : Nat) (f : Core → Core) : (s.modCore c f).loads = s.loads := rfl
@[simp] theorem State.modCore_writes (s : State) (c : Nat) (f : Core → Core) : (s.modCore c f).writes = s.writes := rfl
@[simp] theorem State.modCore_atoms (s : State) (c : Nat) (f : Core → Core) : (s.modCore c f).atoms = s.atoms := rfl
@[simp] theorem State.modCore_sends (s : State) (c : Nat) (f : Core → Core) : (s.modCore c f).sends = s.sends := rfl
@[simp] theorem State.modCore_migs (s : State) (c : Nat) (f : Core → Core) : (s.modCore c f).migs = s.migs := rfl
@[simp] theorem State.modCore_ops (s : State) (c : Nat) (f : Core → Core) : (s.modCore c f).ops = s.ops := rfl
@[simp] theorem State.modCore_shoots (s : State) (c : Nat) (f : Core → Core) : (s.modCore c f).shoots = s.shoots := rfl
@[simp] theorem State.modCore_steals (s : State) (c : Nat) (f : Core → Core) : (s.modCore c f).steals = s.steals := rfl
@[simp] theorem State.modCore_pageReplies (s : State) (c : Nat) (f : Core → Core) : (s.modCore c f).pageReplies = s.pageReplies := rfl
@[simp] theorem State.modCore_events (s : State) (c : Nat) (f : Core → Core) : (s.modCore c f).events = s.events := rfl
@[simp] theorem State.modCore_fresh (s : State) (c : Nat) (f : Core → Core) : (s.modCore c f).fresh = s.fresh := rfl
@[simp] theorem State.modCore_cur (s : State) (c : Nat) (f : Core → Core) : (s.modCore c f).cur = s.cur := rfl
@[simp] theorem State.modCore_issuing (s : State) (c : Nat) (f : Core → Core) : (s.modCore c f).issuing = s.issuing := rfl
@[simp] theorem State.modCore_agenda (s : State) (c : Nat) (f : Core → Core) : (s.modCore c f).agenda = s.agenda := rfl
@[simp] theorem State.modClu_mem (s : State) (k : Nat) (f : Cluster → Cluster) : (s.modClu k f).mem = s.mem := rfl
@[simp] theorem State.modClu_uncorr (s : State) (k : Nat) (f : Cluster → Cluster) : (s.modClu k f).uncorr = s.uncorr := rfl
@[simp] theorem State.modClu_sites (s : State) (k : Nat) (f : Cluster → Cluster) : (s.modClu k f).sites = s.sites := rfl
@[simp] theorem State.modClu_parts (s : State) (k : Nat) (f : Cluster → Cluster) : (s.modClu k f).parts = s.parts := rfl
@[simp] theorem State.modClu_regions (s : State) (k : Nat) (f : Cluster → Cluster) : (s.modClu k f).regions = s.regions := rfl
@[simp] theorem State.modClu_cores (s : State) (k : Nat) (f : Cluster → Cluster) : (s.modClu k f).cores = s.cores := rfl
@[simp] theorem State.modClu_chiplets (s : State) (k : Nat) (f : Cluster → Cluster) : (s.modClu k f).chiplets = s.chiplets := rfl
@[simp] theorem State.modClu_ctxs (s : State) (k : Nat) (f : Cluster → Cluster) : (s.modClu k f).ctxs = s.ctxs := rfl
@[simp] theorem State.modClu_lanes (s : State) (k : Nat) (f : Cluster → Cluster) : (s.modClu k f).lanes = s.lanes := rfl
@[simp] theorem State.modClu_spine (s : State) (k : Nat) (f : Cluster → Cluster) : (s.modClu k f).spine = s.spine := rfl
@[simp] theorem State.modClu_links (s : State) (k : Nat) (f : Cluster → Cluster) : (s.modClu k f).links = s.links := rfl
@[simp] theorem State.modClu_qps (s : State) (k : Nat) (f : Cluster → Cluster) : (s.modClu k f).qps = s.qps := rfl
@[simp] theorem State.modClu_memRegions (s : State) (k : Nat) (f : Cluster → Cluster) : (s.modClu k f).memRegions = s.memRegions := rfl
@[simp] theorem State.modClu_saved (s : State) (k : Nat) (f : Cluster → Cluster) : (s.modClu k f).saved = s.saved := rfl
@[simp] theorem State.modClu_loads (s : State) (k : Nat) (f : Cluster → Cluster) : (s.modClu k f).loads = s.loads := rfl
@[simp] theorem State.modClu_writes (s : State) (k : Nat) (f : Cluster → Cluster) : (s.modClu k f).writes = s.writes := rfl
@[simp] theorem State.modClu_atoms (s : State) (k : Nat) (f : Cluster → Cluster) : (s.modClu k f).atoms = s.atoms := rfl
@[simp] theorem State.modClu_sends (s : State) (k : Nat) (f : Cluster → Cluster) : (s.modClu k f).sends = s.sends := rfl
@[simp] theorem State.modClu_migs (s : State) (k : Nat) (f : Cluster → Cluster) : (s.modClu k f).migs = s.migs := rfl
@[simp] theorem State.modClu_ops (s : State) (k : Nat) (f : Cluster → Cluster) : (s.modClu k f).ops = s.ops := rfl
@[simp] theorem State.modClu_shoots (s : State) (k : Nat) (f : Cluster → Cluster) : (s.modClu k f).shoots = s.shoots := rfl
@[simp] theorem State.modClu_steals (s : State) (k : Nat) (f : Cluster → Cluster) : (s.modClu k f).steals = s.steals := rfl
@[simp] theorem State.modClu_pageReplies (s : State) (k : Nat) (f : Cluster → Cluster) : (s.modClu k f).pageReplies = s.pageReplies := rfl
@[simp] theorem State.modClu_events (s : State) (k : Nat) (f : Cluster → Cluster) : (s.modClu k f).events = s.events := rfl
@[simp] theorem State.modClu_fresh (s : State) (k : Nat) (f : Cluster → Cluster) : (s.modClu k f).fresh = s.fresh := rfl
@[simp] theorem State.modClu_cur (s : State) (k : Nat) (f : Cluster → Cluster) : (s.modClu k f).cur = s.cur := rfl
@[simp] theorem State.modClu_issuing (s : State) (k : Nat) (f : Cluster → Cluster) : (s.modClu k f).issuing = s.issuing := rfl
@[simp] theorem State.modClu_agenda (s : State) (k : Nat) (f : Cluster → Cluster) : (s.modClu k f).agenda = s.agenda := rfl
@[simp] theorem State.modChip_mem (s : State) (n : Nat) (f : Chiplet → Chiplet) : (s.modChip n f).mem = s.mem := rfl
@[simp] theorem State.modChip_uncorr (s : State) (n : Nat) (f : Chiplet → Chiplet) : (s.modChip n f).uncorr = s.uncorr := rfl
@[simp] theorem State.modChip_sites (s : State) (n : Nat) (f : Chiplet → Chiplet) : (s.modChip n f).sites = s.sites := rfl
@[simp] theorem State.modChip_parts (s : State) (n : Nat) (f : Chiplet → Chiplet) : (s.modChip n f).parts = s.parts := rfl
@[simp] theorem State.modChip_regions (s : State) (n : Nat) (f : Chiplet → Chiplet) : (s.modChip n f).regions = s.regions := rfl
@[simp] theorem State.modChip_cores (s : State) (n : Nat) (f : Chiplet → Chiplet) : (s.modChip n f).cores = s.cores := rfl
@[simp] theorem State.modChip_clusters (s : State) (n : Nat) (f : Chiplet → Chiplet) : (s.modChip n f).clusters = s.clusters := rfl
@[simp] theorem State.modChip_ctxs (s : State) (n : Nat) (f : Chiplet → Chiplet) : (s.modChip n f).ctxs = s.ctxs := rfl
@[simp] theorem State.modChip_lanes (s : State) (n : Nat) (f : Chiplet → Chiplet) : (s.modChip n f).lanes = s.lanes := rfl
@[simp] theorem State.modChip_spine (s : State) (n : Nat) (f : Chiplet → Chiplet) : (s.modChip n f).spine = s.spine := rfl
@[simp] theorem State.modChip_links (s : State) (n : Nat) (f : Chiplet → Chiplet) : (s.modChip n f).links = s.links := rfl
@[simp] theorem State.modChip_qps (s : State) (n : Nat) (f : Chiplet → Chiplet) : (s.modChip n f).qps = s.qps := rfl
@[simp] theorem State.modChip_memRegions (s : State) (n : Nat) (f : Chiplet → Chiplet) : (s.modChip n f).memRegions = s.memRegions := rfl
@[simp] theorem State.modChip_saved (s : State) (n : Nat) (f : Chiplet → Chiplet) : (s.modChip n f).saved = s.saved := rfl
@[simp] theorem State.modChip_loads (s : State) (n : Nat) (f : Chiplet → Chiplet) : (s.modChip n f).loads = s.loads := rfl
@[simp] theorem State.modChip_writes (s : State) (n : Nat) (f : Chiplet → Chiplet) : (s.modChip n f).writes = s.writes := rfl
@[simp] theorem State.modChip_atoms (s : State) (n : Nat) (f : Chiplet → Chiplet) : (s.modChip n f).atoms = s.atoms := rfl
@[simp] theorem State.modChip_sends (s : State) (n : Nat) (f : Chiplet → Chiplet) : (s.modChip n f).sends = s.sends := rfl
@[simp] theorem State.modChip_migs (s : State) (n : Nat) (f : Chiplet → Chiplet) : (s.modChip n f).migs = s.migs := rfl
@[simp] theorem State.modChip_ops (s : State) (n : Nat) (f : Chiplet → Chiplet) : (s.modChip n f).ops = s.ops := rfl
@[simp] theorem State.modChip_shoots (s : State) (n : Nat) (f : Chiplet → Chiplet) : (s.modChip n f).shoots = s.shoots := rfl
@[simp] theorem State.modChip_steals (s : State) (n : Nat) (f : Chiplet → Chiplet) : (s.modChip n f).steals = s.steals := rfl
@[simp] theorem State.modChip_pageReplies (s : State) (n : Nat) (f : Chiplet → Chiplet) : (s.modChip n f).pageReplies = s.pageReplies := rfl
@[simp] theorem State.modChip_events (s : State) (n : Nat) (f : Chiplet → Chiplet) : (s.modChip n f).events = s.events := rfl
@[simp] theorem State.modChip_fresh (s : State) (n : Nat) (f : Chiplet → Chiplet) : (s.modChip n f).fresh = s.fresh := rfl
@[simp] theorem State.modChip_cur (s : State) (n : Nat) (f : Chiplet → Chiplet) : (s.modChip n f).cur = s.cur := rfl
@[simp] theorem State.modChip_issuing (s : State) (n : Nat) (f : Chiplet → Chiplet) : (s.modChip n f).issuing = s.issuing := rfl
@[simp] theorem State.modChip_agenda (s : State) (n : Nat) (f : Chiplet → Chiplet) : (s.modChip n f).agenda = s.agenda := rfl
@[simp] theorem State.modSite_mem (s : State) (n : Nat) (f : Site → Site) : (s.modSite n f).mem = s.mem := rfl
@[simp] theorem State.modSite_uncorr (s : State) (n : Nat) (f : Site → Site) : (s.modSite n f).uncorr = s.uncorr := rfl
@[simp] theorem State.modSite_parts (s : State) (n : Nat) (f : Site → Site) : (s.modSite n f).parts = s.parts := rfl
@[simp] theorem State.modSite_regions (s : State) (n : Nat) (f : Site → Site) : (s.modSite n f).regions = s.regions := rfl
@[simp] theorem State.modSite_cores (s : State) (n : Nat) (f : Site → Site) : (s.modSite n f).cores = s.cores := rfl
@[simp] theorem State.modSite_clusters (s : State) (n : Nat) (f : Site → Site) : (s.modSite n f).clusters = s.clusters := rfl
@[simp] theorem State.modSite_chiplets (s : State) (n : Nat) (f : Site → Site) : (s.modSite n f).chiplets = s.chiplets := rfl
@[simp] theorem State.modSite_ctxs (s : State) (n : Nat) (f : Site → Site) : (s.modSite n f).ctxs = s.ctxs := rfl
@[simp] theorem State.modSite_lanes (s : State) (n : Nat) (f : Site → Site) : (s.modSite n f).lanes = s.lanes := rfl
@[simp] theorem State.modSite_spine (s : State) (n : Nat) (f : Site → Site) : (s.modSite n f).spine = s.spine := rfl
@[simp] theorem State.modSite_links (s : State) (n : Nat) (f : Site → Site) : (s.modSite n f).links = s.links := rfl
@[simp] theorem State.modSite_qps (s : State) (n : Nat) (f : Site → Site) : (s.modSite n f).qps = s.qps := rfl
@[simp] theorem State.modSite_memRegions (s : State) (n : Nat) (f : Site → Site) : (s.modSite n f).memRegions = s.memRegions := rfl
@[simp] theorem State.modSite_saved (s : State) (n : Nat) (f : Site → Site) : (s.modSite n f).saved = s.saved := rfl
@[simp] theorem State.modSite_loads (s : State) (n : Nat) (f : Site → Site) : (s.modSite n f).loads = s.loads := rfl
@[simp] theorem State.modSite_writes (s : State) (n : Nat) (f : Site → Site) : (s.modSite n f).writes = s.writes := rfl
@[simp] theorem State.modSite_atoms (s : State) (n : Nat) (f : Site → Site) : (s.modSite n f).atoms = s.atoms := rfl
@[simp] theorem State.modSite_sends (s : State) (n : Nat) (f : Site → Site) : (s.modSite n f).sends = s.sends := rfl
@[simp] theorem State.modSite_migs (s : State) (n : Nat) (f : Site → Site) : (s.modSite n f).migs = s.migs := rfl
@[simp] theorem State.modSite_ops (s : State) (n : Nat) (f : Site → Site) : (s.modSite n f).ops = s.ops := rfl
@[simp] theorem State.modSite_shoots (s : State) (n : Nat) (f : Site → Site) : (s.modSite n f).shoots = s.shoots := rfl
@[simp] theorem State.modSite_steals (s : State) (n : Nat) (f : Site → Site) : (s.modSite n f).steals = s.steals := rfl
@[simp] theorem State.modSite_pageReplies (s : State) (n : Nat) (f : Site → Site) : (s.modSite n f).pageReplies = s.pageReplies := rfl
@[simp] theorem State.modSite_events (s : State) (n : Nat) (f : Site → Site) : (s.modSite n f).events = s.events := rfl
@[simp] theorem State.modSite_fresh (s : State) (n : Nat) (f : Site → Site) : (s.modSite n f).fresh = s.fresh := rfl
@[simp] theorem State.modSite_cur (s : State) (n : Nat) (f : Site → Site) : (s.modSite n f).cur = s.cur := rfl
@[simp] theorem State.modSite_issuing (s : State) (n : Nat) (f : Site → Site) : (s.modSite n f).issuing = s.issuing := rfl
@[simp] theorem State.modSite_agenda (s : State) (n : Nat) (f : Site → Site) : (s.modSite n f).agenda = s.agenda := rfl
@[simp] theorem State.modCtx_mem (s : State) (a : Nat) (f : Ctx → Ctx) : (s.modCtx a f).mem = s.mem := rfl
@[simp] theorem State.modCtx_uncorr (s : State) (a : Nat) (f : Ctx → Ctx) : (s.modCtx a f).uncorr = s.uncorr := rfl
@[simp] theorem State.modCtx_sites (s : State) (a : Nat) (f : Ctx → Ctx) : (s.modCtx a f).sites = s.sites := rfl
@[simp] theorem State.modCtx_parts (s : State) (a : Nat) (f : Ctx → Ctx) : (s.modCtx a f).parts = s.parts := rfl
@[simp] theorem State.modCtx_regions (s : State) (a : Nat) (f : Ctx → Ctx) : (s.modCtx a f).regions = s.regions := rfl
@[simp] theorem State.modCtx_cores (s : State) (a : Nat) (f : Ctx → Ctx) : (s.modCtx a f).cores = s.cores := rfl
@[simp] theorem State.modCtx_clusters (s : State) (a : Nat) (f : Ctx → Ctx) : (s.modCtx a f).clusters = s.clusters := rfl
@[simp] theorem State.modCtx_chiplets (s : State) (a : Nat) (f : Ctx → Ctx) : (s.modCtx a f).chiplets = s.chiplets := rfl
@[simp] theorem State.modCtx_lanes (s : State) (a : Nat) (f : Ctx → Ctx) : (s.modCtx a f).lanes = s.lanes := rfl
@[simp] theorem State.modCtx_spine (s : State) (a : Nat) (f : Ctx → Ctx) : (s.modCtx a f).spine = s.spine := rfl
@[simp] theorem State.modCtx_links (s : State) (a : Nat) (f : Ctx → Ctx) : (s.modCtx a f).links = s.links := rfl
@[simp] theorem State.modCtx_qps (s : State) (a : Nat) (f : Ctx → Ctx) : (s.modCtx a f).qps = s.qps := rfl
@[simp] theorem State.modCtx_memRegions (s : State) (a : Nat) (f : Ctx → Ctx) : (s.modCtx a f).memRegions = s.memRegions := rfl
@[simp] theorem State.modCtx_saved (s : State) (a : Nat) (f : Ctx → Ctx) : (s.modCtx a f).saved = s.saved := rfl
@[simp] theorem State.modCtx_loads (s : State) (a : Nat) (f : Ctx → Ctx) : (s.modCtx a f).loads = s.loads := rfl
@[simp] theorem State.modCtx_writes (s : State) (a : Nat) (f : Ctx → Ctx) : (s.modCtx a f).writes = s.writes := rfl
@[simp] theorem State.modCtx_atoms (s : State) (a : Nat) (f : Ctx → Ctx) : (s.modCtx a f).atoms = s.atoms := rfl
@[simp] theorem State.modCtx_sends (s : State) (a : Nat) (f : Ctx → Ctx) : (s.modCtx a f).sends = s.sends := rfl
@[simp] theorem State.modCtx_migs (s : State) (a : Nat) (f : Ctx → Ctx) : (s.modCtx a f).migs = s.migs := rfl
@[simp] theorem State.modCtx_ops (s : State) (a : Nat) (f : Ctx → Ctx) : (s.modCtx a f).ops = s.ops := rfl
@[simp] theorem State.modCtx_shoots (s : State) (a : Nat) (f : Ctx → Ctx) : (s.modCtx a f).shoots = s.shoots := rfl
@[simp] theorem State.modCtx_steals (s : State) (a : Nat) (f : Ctx → Ctx) : (s.modCtx a f).steals = s.steals := rfl
@[simp] theorem State.modCtx_pageReplies (s : State) (a : Nat) (f : Ctx → Ctx) : (s.modCtx a f).pageReplies = s.pageReplies := rfl
@[simp] theorem State.modCtx_events (s : State) (a : Nat) (f : Ctx → Ctx) : (s.modCtx a f).events = s.events := rfl
@[simp] theorem State.modCtx_fresh (s : State) (a : Nat) (f : Ctx → Ctx) : (s.modCtx a f).fresh = s.fresh := rfl
@[simp] theorem State.modCtx_cur (s : State) (a : Nat) (f : Ctx → Ctx) : (s.modCtx a f).cur = s.cur := rfl
@[simp] theorem State.modCtx_issuing (s : State) (a : Nat) (f : Ctx → Ctx) : (s.modCtx a f).issuing = s.issuing := rfl
@[simp] theorem State.modCtx_agenda (s : State) (a : Nat) (f : Ctx → Ctx) : (s.modCtx a f).agenda = s.agenda := rfl
@[simp] theorem State.modSpine_mem (s : State) (f : Spine → Spine) : (s.modSpine f).mem = s.mem := rfl
@[simp] theorem State.modSpine_uncorr (s : State) (f : Spine → Spine) : (s.modSpine f).uncorr = s.uncorr := rfl
@[simp] theorem State.modSpine_sites (s : State) (f : Spine → Spine) : (s.modSpine f).sites = s.sites := rfl
@[simp] theorem State.modSpine_parts (s : State) (f : Spine → Spine) : (s.modSpine f).parts = s.parts := rfl
@[simp] theorem State.modSpine_regions (s : State) (f : Spine → Spine) : (s.modSpine f).regions = s.regions := rfl
@[simp] theorem State.modSpine_cores (s : State) (f : Spine → Spine) : (s.modSpine f).cores = s.cores := rfl
@[simp] theorem State.modSpine_clusters (s : State) (f : Spine → Spine) : (s.modSpine f).clusters = s.clusters := rfl
@[simp] theorem State.modSpine_chiplets (s : State) (f : Spine → Spine) : (s.modSpine f).chiplets = s.chiplets := rfl
@[simp] theorem State.modSpine_ctxs (s : State) (f : Spine → Spine) : (s.modSpine f).ctxs = s.ctxs := rfl
@[simp] theorem State.modSpine_lanes (s : State) (f : Spine → Spine) : (s.modSpine f).lanes = s.lanes := rfl
@[simp] theorem State.modSpine_links (s : State) (f : Spine → Spine) : (s.modSpine f).links = s.links := rfl
@[simp] theorem State.modSpine_qps (s : State) (f : Spine → Spine) : (s.modSpine f).qps = s.qps := rfl
@[simp] theorem State.modSpine_memRegions (s : State) (f : Spine → Spine) : (s.modSpine f).memRegions = s.memRegions := rfl
@[simp] theorem State.modSpine_saved (s : State) (f : Spine → Spine) : (s.modSpine f).saved = s.saved := rfl
@[simp] theorem State.modSpine_loads (s : State) (f : Spine → Spine) : (s.modSpine f).loads = s.loads := rfl
@[simp] theorem State.modSpine_writes (s : State) (f : Spine → Spine) : (s.modSpine f).writes = s.writes := rfl
@[simp] theorem State.modSpine_atoms (s : State) (f : Spine → Spine) : (s.modSpine f).atoms = s.atoms := rfl
@[simp] theorem State.modSpine_sends (s : State) (f : Spine → Spine) : (s.modSpine f).sends = s.sends := rfl
@[simp] theorem State.modSpine_migs (s : State) (f : Spine → Spine) : (s.modSpine f).migs = s.migs := rfl
@[simp] theorem State.modSpine_ops (s : State) (f : Spine → Spine) : (s.modSpine f).ops = s.ops := rfl
@[simp] theorem State.modSpine_shoots (s : State) (f : Spine → Spine) : (s.modSpine f).shoots = s.shoots := rfl
@[simp] theorem State.modSpine_steals (s : State) (f : Spine → Spine) : (s.modSpine f).steals = s.steals := rfl
@[simp] theorem State.modSpine_pageReplies (s : State) (f : Spine → Spine) : (s.modSpine f).pageReplies = s.pageReplies := rfl
@[simp] theorem State.modSpine_events (s : State) (f : Spine → Spine) : (s.modSpine f).events = s.events := rfl
@[simp] theorem State.modSpine_fresh (s : State) (f : Spine → Spine) : (s.modSpine f).fresh = s.fresh := rfl
@[simp] theorem State.modSpine_cur (s : State) (f : Spine → Spine) : (s.modSpine f).cur = s.cur := rfl
@[simp] theorem State.modSpine_issuing (s : State) (f : Spine → Spine) : (s.modSpine f).issuing = s.issuing := rfl
@[simp] theorem State.modSpine_agenda (s : State) (f : Spine → Spine) : (s.modSpine f).agenda = s.agenda := rfl
@[simp] theorem State.putStrand_mem (s : State) (c sl : Nat) (p : Strand) : (s.putStrand c sl p).mem = s.mem := rfl
@[simp] theorem State.putStrand_uncorr (s : State) (c sl : Nat) (p : Strand) : (s.putStrand c sl p).uncorr = s.uncorr := rfl
@[simp] theorem State.putStrand_sites (s : State) (c sl : Nat) (p : Strand) : (s.putStrand c sl p).sites = s.sites := rfl
@[simp] theorem State.putStrand_parts (s : State) (c sl : Nat) (p : Strand) : (s.putStrand c sl p).parts = s.parts := rfl
@[simp] theorem State.putStrand_regions (s : State) (c sl : Nat) (p : Strand) : (s.putStrand c sl p).regions = s.regions := rfl
@[simp] theorem State.putStrand_clusters (s : State) (c sl : Nat) (p : Strand) : (s.putStrand c sl p).clusters = s.clusters := rfl
@[simp] theorem State.putStrand_chiplets (s : State) (c sl : Nat) (p : Strand) : (s.putStrand c sl p).chiplets = s.chiplets := rfl
@[simp] theorem State.putStrand_ctxs (s : State) (c sl : Nat) (p : Strand) : (s.putStrand c sl p).ctxs = s.ctxs := rfl
@[simp] theorem State.putStrand_lanes (s : State) (c sl : Nat) (p : Strand) : (s.putStrand c sl p).lanes = s.lanes := rfl
@[simp] theorem State.putStrand_spine (s : State) (c sl : Nat) (p : Strand) : (s.putStrand c sl p).spine = s.spine := rfl
@[simp] theorem State.putStrand_links (s : State) (c sl : Nat) (p : Strand) : (s.putStrand c sl p).links = s.links := rfl
@[simp] theorem State.putStrand_qps (s : State) (c sl : Nat) (p : Strand) : (s.putStrand c sl p).qps = s.qps := rfl
@[simp] theorem State.putStrand_memRegions (s : State) (c sl : Nat) (p : Strand) : (s.putStrand c sl p).memRegions = s.memRegions := rfl
@[simp] theorem State.putStrand_saved (s : State) (c sl : Nat) (p : Strand) : (s.putStrand c sl p).saved = s.saved := rfl
@[simp] theorem State.putStrand_loads (s : State) (c sl : Nat) (p : Strand) : (s.putStrand c sl p).loads = s.loads := rfl
@[simp] theorem State.putStrand_writes (s : State) (c sl : Nat) (p : Strand) : (s.putStrand c sl p).writes = s.writes := rfl
@[simp] theorem State.putStrand_atoms (s : State) (c sl : Nat) (p : Strand) : (s.putStrand c sl p).atoms = s.atoms := rfl
@[simp] theorem State.putStrand_sends (s : State) (c sl : Nat) (p : Strand) : (s.putStrand c sl p).sends = s.sends := rfl
@[simp] theorem State.putStrand_migs (s : State) (c sl : Nat) (p : Strand) : (s.putStrand c sl p).migs = s.migs := rfl
@[simp] theorem State.putStrand_ops (s : State) (c sl : Nat) (p : Strand) : (s.putStrand c sl p).ops = s.ops := rfl
@[simp] theorem State.putStrand_shoots (s : State) (c sl : Nat) (p : Strand) : (s.putStrand c sl p).shoots = s.shoots := rfl
@[simp] theorem State.putStrand_steals (s : State) (c sl : Nat) (p : Strand) : (s.putStrand c sl p).steals = s.steals := rfl
@[simp] theorem State.putStrand_pageReplies (s : State) (c sl : Nat) (p : Strand) : (s.putStrand c sl p).pageReplies = s.pageReplies := rfl
@[simp] theorem State.putStrand_events (s : State) (c sl : Nat) (p : Strand) : (s.putStrand c sl p).events = s.events := rfl
@[simp] theorem State.putStrand_fresh (s : State) (c sl : Nat) (p : Strand) : (s.putStrand c sl p).fresh = s.fresh := rfl
@[simp] theorem State.putStrand_cur (s : State) (c sl : Nat) (p : Strand) : (s.putStrand c sl p).cur = s.cur := rfl
@[simp] theorem State.putStrand_issuing (s : State) (c sl : Nat) (p : Strand) : (s.putStrand c sl p).issuing = s.issuing := rfl
@[simp] theorem State.putStrand_agenda (s : State) (c sl : Nat) (p : Strand) : (s.putStrand c sl p).agenda = s.agenda := rfl
@[simp] theorem State.tick_mem (s : State) : (s.tick).mem = s.mem := rfl
@[simp] theorem State.tick_uncorr (s : State) : (s.tick).uncorr = s.uncorr := rfl
@[simp] theorem State.tick_sites (s : State) : (s.tick).sites = s.sites := rfl
@[simp] theorem State.tick_parts (s : State) : (s.tick).parts = s.parts := rfl
@[simp] theorem State.tick_regions (s : State) : (s.tick).regions = s.regions := rfl
@[simp] theorem State.tick_cores (s : State) : (s.tick).cores = s.cores := rfl
@[simp] theorem State.tick_clusters (s : State) : (s.tick).clusters = s.clusters := rfl
@[simp] theorem State.tick_chiplets (s : State) : (s.tick).chiplets = s.chiplets := rfl
@[simp] theorem State.tick_ctxs (s : State) : (s.tick).ctxs = s.ctxs := rfl
@[simp] theorem State.tick_lanes (s : State) : (s.tick).lanes = s.lanes := rfl
@[simp] theorem State.tick_spine (s : State) : (s.tick).spine = s.spine := rfl
@[simp] theorem State.tick_links (s : State) : (s.tick).links = s.links := rfl
@[simp] theorem State.tick_qps (s : State) : (s.tick).qps = s.qps := rfl
@[simp] theorem State.tick_memRegions (s : State) : (s.tick).memRegions = s.memRegions := rfl
@[simp] theorem State.tick_saved (s : State) : (s.tick).saved = s.saved := rfl
@[simp] theorem State.tick_loads (s : State) : (s.tick).loads = s.loads := rfl
@[simp] theorem State.tick_writes (s : State) : (s.tick).writes = s.writes := rfl
@[simp] theorem State.tick_atoms (s : State) : (s.tick).atoms = s.atoms := rfl
@[simp] theorem State.tick_sends (s : State) : (s.tick).sends = s.sends := rfl
@[simp] theorem State.tick_migs (s : State) : (s.tick).migs = s.migs := rfl
@[simp] theorem State.tick_ops (s : State) : (s.tick).ops = s.ops := rfl
@[simp] theorem State.tick_shoots (s : State) : (s.tick).shoots = s.shoots := rfl
@[simp] theorem State.tick_steals (s : State) : (s.tick).steals = s.steals := rfl
@[simp] theorem State.tick_pageReplies (s : State) : (s.tick).pageReplies = s.pageReplies := rfl
@[simp] theorem State.tick_events (s : State) : (s.tick).events = s.events := rfl
@[simp] theorem State.tick_cur (s : State) : (s.tick).cur = s.cur := rfl
@[simp] theorem State.tick_issuing (s : State) : (s.tick).issuing = s.issuing := rfl
@[simp] theorem State.tick_agenda (s : State) : (s.tick).agenda = s.agenda := rfl

@[simp] theorem State.tick_fresh (s : State) : s.tick.fresh = s.fresh + 1 := rfl
@[simp] theorem State.modSpine_spine (s : State) (f : Spine → Spine) : (s.modSpine f).spine = f s.spine := rfl

@[simp] theorem State.setCore_get_clu (s : State) (c : Nat) (k : Core) (n_ : Nat) : (s.setCore c k).clu n_ = s.clu n_ := rfl
@[simp] theorem State.setCore_get_chip (s : State) (c : Nat) (k : Core) (n_ : Nat) : (s.setCore c k).chip n_ = s.chip n_ := rfl
@[simp] theorem State.setCore_get_site (s : State) (c : Nat) (k : Core) (n_ : Nat) : (s.setCore c k).site n_ = s.site n_ := rfl
@[simp] theorem State.setCore_get_ctx (s : State) (c : Nat) (k : Core) (n_ : Nat) : (s.setCore c k).ctx n_ = s.ctx n_ := rfl
@[simp] theorem State.setCore_get_partn (s : State) (c : Nat) (k : Core) (n_ : Nat) : (s.setCore c k).partn n_ = s.partn n_ := rfl
@[simp] theorem State.setCore_get_region (s : State) (c : Nat) (k : Core) (n_ : Nat) : (s.setCore c k).region n_ = s.region n_ := rfl
@[simp] theorem State.modCore_get_clu (s : State) (c : Nat) (f : Core → Core) (n_ : Nat) : (s.modCore c f).clu n_ = s.clu n_ := rfl
@[simp] theorem State.modCore_get_chip (s : State) (c : Nat) (f : Core → Core) (n_ : Nat) : (s.modCore c f).chip n_ = s.chip n_ := rfl
@[simp] theorem State.modCore_get_site (s : State) (c : Nat) (f : Core → Core) (n_ : Nat) : (s.modCore c f).site n_ = s.site n_ := rfl
@[simp] theorem State.modCore_get_ctx (s : State) (c : Nat) (f : Core → Core) (n_ : Nat) : (s.modCore c f).ctx n_ = s.ctx n_ := rfl
@[simp] theorem State.modCore_get_partn (s : State) (c : Nat) (f : Core → Core) (n_ : Nat) : (s.modCore c f).partn n_ = s.partn n_ := rfl
@[simp] theorem State.modCore_get_region (s : State) (c : Nat) (f : Core → Core) (n_ : Nat) : (s.modCore c f).region n_ = s.region n_ := rfl
@[simp] theorem State.modClu_get_core (s : State) (k : Nat) (f : Cluster → Cluster) (n_ : Nat) : (s.modClu k f).core n_ = s.core n_ := rfl
@[simp] theorem State.modClu_get_chip (s : State) (k : Nat) (f : Cluster → Cluster) (n_ : Nat) : (s.modClu k f).chip n_ = s.chip n_ := rfl
@[simp] theorem State.modClu_get_site (s : State) (k : Nat) (f : Cluster → Cluster) (n_ : Nat) : (s.modClu k f).site n_ = s.site n_ := rfl
@[simp] theorem State.modClu_get_ctx (s : State) (k : Nat) (f : Cluster → Cluster) (n_ : Nat) : (s.modClu k f).ctx n_ = s.ctx n_ := rfl
@[simp] theorem State.modClu_get_partn (s : State) (k : Nat) (f : Cluster → Cluster) (n_ : Nat) : (s.modClu k f).partn n_ = s.partn n_ := rfl
@[simp] theorem State.modClu_get_region (s : State) (k : Nat) (f : Cluster → Cluster) (n_ : Nat) : (s.modClu k f).region n_ = s.region n_ := rfl
@[simp] theorem State.modChip_get_core (s : State) (n : Nat) (f : Chiplet → Chiplet) (n_ : Nat) : (s.modChip n f).core n_ = s.core n_ := rfl
@[simp] theorem State.modChip_get_clu (s : State) (n : Nat) (f : Chiplet → Chiplet) (n_ : Nat) : (s.modChip n f).clu n_ = s.clu n_ := rfl
@[simp] theorem State.modChip_get_site (s : State) (n : Nat) (f : Chiplet → Chiplet) (n_ : Nat) : (s.modChip n f).site n_ = s.site n_ := rfl
@[simp] theorem State.modChip_get_ctx (s : State) (n : Nat) (f : Chiplet → Chiplet) (n_ : Nat) : (s.modChip n f).ctx n_ = s.ctx n_ := rfl
@[simp] theorem State.modChip_get_partn (s : State) (n : Nat) (f : Chiplet → Chiplet) (n_ : Nat) : (s.modChip n f).partn n_ = s.partn n_ := rfl
@[simp] theorem State.modChip_get_region (s : State) (n : Nat) (f : Chiplet → Chiplet) (n_ : Nat) : (s.modChip n f).region n_ = s.region n_ := rfl
@[simp] theorem State.modSite_get_core (s : State) (n : Nat) (f : Site → Site) (n_ : Nat) : (s.modSite n f).core n_ = s.core n_ := rfl
@[simp] theorem State.modSite_get_clu (s : State) (n : Nat) (f : Site → Site) (n_ : Nat) : (s.modSite n f).clu n_ = s.clu n_ := rfl
@[simp] theorem State.modSite_get_chip (s : State) (n : Nat) (f : Site → Site) (n_ : Nat) : (s.modSite n f).chip n_ = s.chip n_ := rfl
@[simp] theorem State.modSite_get_ctx (s : State) (n : Nat) (f : Site → Site) (n_ : Nat) : (s.modSite n f).ctx n_ = s.ctx n_ := rfl
@[simp] theorem State.modSite_get_partn (s : State) (n : Nat) (f : Site → Site) (n_ : Nat) : (s.modSite n f).partn n_ = s.partn n_ := rfl
@[simp] theorem State.modSite_get_region (s : State) (n : Nat) (f : Site → Site) (n_ : Nat) : (s.modSite n f).region n_ = s.region n_ := rfl
@[simp] theorem State.modCtx_get_core (s : State) (a : Nat) (f : Ctx → Ctx) (n_ : Nat) : (s.modCtx a f).core n_ = s.core n_ := rfl
@[simp] theorem State.modCtx_get_clu (s : State) (a : Nat) (f : Ctx → Ctx) (n_ : Nat) : (s.modCtx a f).clu n_ = s.clu n_ := rfl
@[simp] theorem State.modCtx_get_chip (s : State) (a : Nat) (f : Ctx → Ctx) (n_ : Nat) : (s.modCtx a f).chip n_ = s.chip n_ := rfl
@[simp] theorem State.modCtx_get_site (s : State) (a : Nat) (f : Ctx → Ctx) (n_ : Nat) : (s.modCtx a f).site n_ = s.site n_ := rfl
@[simp] theorem State.modCtx_get_partn (s : State) (a : Nat) (f : Ctx → Ctx) (n_ : Nat) : (s.modCtx a f).partn n_ = s.partn n_ := rfl
@[simp] theorem State.modCtx_get_region (s : State) (a : Nat) (f : Ctx → Ctx) (n_ : Nat) : (s.modCtx a f).region n_ = s.region n_ := rfl
@[simp] theorem State.modSpine_get_core (s : State) (f : Spine → Spine) (n_ : Nat) : (s.modSpine f).core n_ = s.core n_ := rfl
@[simp] theorem State.modSpine_get_clu (s : State) (f : Spine → Spine) (n_ : Nat) : (s.modSpine f).clu n_ = s.clu n_ := rfl
@[simp] theorem State.modSpine_get_chip (s : State) (f : Spine → Spine) (n_ : Nat) : (s.modSpine f).chip n_ = s.chip n_ := rfl
@[simp] theorem State.modSpine_get_site (s : State) (f : Spine → Spine) (n_ : Nat) : (s.modSpine f).site n_ = s.site n_ := rfl
@[simp] theorem State.modSpine_get_ctx (s : State) (f : Spine → Spine) (n_ : Nat) : (s.modSpine f).ctx n_ = s.ctx n_ := rfl
@[simp] theorem State.modSpine_get_partn (s : State) (f : Spine → Spine) (n_ : Nat) : (s.modSpine f).partn n_ = s.partn n_ := rfl
@[simp] theorem State.modSpine_get_region (s : State) (f : Spine → Spine) (n_ : Nat) : (s.modSpine f).region n_ = s.region n_ := rfl
@[simp] theorem State.putStrand_get_clu (s : State) (c sl : Nat) (p : Strand) (n_ : Nat) : (s.putStrand c sl p).clu n_ = s.clu n_ := rfl
@[simp] theorem State.putStrand_get_chip (s : State) (c sl : Nat) (p : Strand) (n_ : Nat) : (s.putStrand c sl p).chip n_ = s.chip n_ := rfl
@[simp] theorem State.putStrand_get_site (s : State) (c sl : Nat) (p : Strand) (n_ : Nat) : (s.putStrand c sl p).site n_ = s.site n_ := rfl
@[simp] theorem State.putStrand_get_ctx (s : State) (c sl : Nat) (p : Strand) (n_ : Nat) : (s.putStrand c sl p).ctx n_ = s.ctx n_ := rfl
@[simp] theorem State.putStrand_get_partn (s : State) (c sl : Nat) (p : Strand) (n_ : Nat) : (s.putStrand c sl p).partn n_ = s.partn n_ := rfl
@[simp] theorem State.putStrand_get_region (s : State) (c sl : Nat) (p : Strand) (n_ : Nat) : (s.putStrand c sl p).region n_ = s.region n_ := rfl
@[simp] theorem State.tick_get_core (s : State) (n_ : Nat) : (s.tick).core n_ = s.core n_ := rfl
@[simp] theorem State.tick_get_clu (s : State) (n_ : Nat) : (s.tick).clu n_ = s.clu n_ := rfl
@[simp] theorem State.tick_get_chip (s : State) (n_ : Nat) : (s.tick).chip n_ = s.chip n_ := rfl
@[simp] theorem State.tick_get_site (s : State) (n_ : Nat) : (s.tick).site n_ = s.site n_ := rfl
@[simp] theorem State.tick_get_ctx (s : State) (n_ : Nat) : (s.tick).ctx n_ = s.ctx n_ := rfl
@[simp] theorem State.tick_get_partn (s : State) (n_ : Nat) : (s.tick).partn n_ = s.partn n_ := rfl
@[simp] theorem State.tick_get_region (s : State) (n_ : Nat) : (s.tick).region n_ = s.region n_ := rfl

@[simp] theorem State.setCore_core (s : State) (c : Nat) (k : Core) : (s.setCore c k).core c = k := by
  simp [State.setCore, State.core]
theorem State.setCore_core_ne (s : State) {c d : Nat} (k : Core) (h : d ≠ c) : (s.setCore c k).core d = s.core d := by
  simp [State.setCore, State.core, tget_tput_ne _ _ _ h]
@[simp] theorem State.modCore_core (s : State) (c : Nat) (f : Core → Core) : (s.modCore c f).core c = f (s.core c) := by
  simp [State.modCore]
theorem State.modCore_core_ne (s : State) {c d : Nat} (f : Core → Core) (h : d ≠ c) :
    (s.modCore c f).core d = s.core d := State.setCore_core_ne s _ h
@[simp] theorem State.modClu_clu (s : State) (k : Nat) (f : Cluster → Cluster) : (s.modClu k f).clu k = f (s.clu k) := by
  simp [State.modClu, State.clu]
theorem State.modClu_clu_ne (s : State) {k j : Nat} (f : Cluster → Cluster) (h : j ≠ k) :
    (s.modClu k f).clu j = s.clu j := by
  simp [State.modClu, State.clu, tget_tput_ne _ _ _ h]
@[simp] theorem State.modChip_chip (s : State) (n : Nat) (f : Chiplet → Chiplet) :
    (s.modChip n f).chip n = f (s.chip n) := by
  simp [State.modChip, State.chip]
@[simp] theorem State.modSite_site (s : State) (n : Nat) (f : Site → Site) : (s.modSite n f).site n = f (s.site n) := by
  simp [State.modSite, State.site]
@[simp] theorem State.modCtx_ctx (s : State) (a : Nat) (f : Ctx → Ctx) : (s.modCtx a f).ctx a = f (s.ctx a) := by
  simp [State.modCtx, State.ctx]

/-! ### Strands in slots -/

@[simp] theorem State.strand?_putStrand (s : State) (c sl : Nat) (p : Strand) :
    (s.putStrand c sl p).strand? c sl = some p := by
  simp [State.putStrand, State.strand?]

theorem State.strand?_putStrand_ne (s : State) (c : Nat) {sl n : Nat} (p : Strand) (h : n ≠ sl) :
    (s.putStrand c sl p).strand? c n = s.strand? c n := by
  simp [State.putStrand, State.strand?, tfind_tput_ne _ _ h]

theorem State.strand?_putStrand_core (s : State) {c d : Nat} (sl n : Nat) (p : Strand) (h : d ≠ c) :
    (s.putStrand c sl p).strand? d n = s.strand? d n := by
  simp [State.putStrand, State.strand?, State.modCore_core_ne _ _ h]

@[simp] theorem State.modStrand_mem (s : State) (c sl : Nat) (f : Strand → Strand) : (s.modStrand c sl f).mem = s.mem := by
  unfold State.modStrand; split <;> rfl
@[simp] theorem State.modMe_mem (s : State) (f : Strand → Strand) : (s.modMe f).mem = s.mem := State.modStrand_mem s _ _ f
@[simp] theorem State.modMyCore_mem (s : State) (f : Core → Core) : (s.modMyCore f).mem = s.mem := rfl
@[simp] theorem State.count_mem (s : State) (c n k : Nat) : (s.count c n k).mem = s.mem := rfl
@[simp] theorem State.modStrand_uncorr (s : State) (c sl : Nat) (f : Strand → Strand) : (s.modStrand c sl f).uncorr = s.uncorr := by
  unfold State.modStrand; split <;> rfl
@[simp] theorem State.modMe_uncorr (s : State) (f : Strand → Strand) : (s.modMe f).uncorr = s.uncorr := State.modStrand_uncorr s _ _ f
@[simp] theorem State.modMyCore_uncorr (s : State) (f : Core → Core) : (s.modMyCore f).uncorr = s.uncorr := rfl
@[simp] theorem State.count_uncorr (s : State) (c n k : Nat) : (s.count c n k).uncorr = s.uncorr := rfl
@[simp] theorem State.modStrand_sites (s : State) (c sl : Nat) (f : Strand → Strand) : (s.modStrand c sl f).sites = s.sites := by
  unfold State.modStrand; split <;> rfl
@[simp] theorem State.modMe_sites (s : State) (f : Strand → Strand) : (s.modMe f).sites = s.sites := State.modStrand_sites s _ _ f
@[simp] theorem State.modMyCore_sites (s : State) (f : Core → Core) : (s.modMyCore f).sites = s.sites := rfl
@[simp] theorem State.count_sites (s : State) (c n k : Nat) : (s.count c n k).sites = s.sites := rfl
@[simp] theorem State.modStrand_parts (s : State) (c sl : Nat) (f : Strand → Strand) : (s.modStrand c sl f).parts = s.parts := by
  unfold State.modStrand; split <;> rfl
@[simp] theorem State.modMe_parts (s : State) (f : Strand → Strand) : (s.modMe f).parts = s.parts := State.modStrand_parts s _ _ f
@[simp] theorem State.modMyCore_parts (s : State) (f : Core → Core) : (s.modMyCore f).parts = s.parts := rfl
@[simp] theorem State.count_parts (s : State) (c n k : Nat) : (s.count c n k).parts = s.parts := rfl
@[simp] theorem State.modStrand_regions (s : State) (c sl : Nat) (f : Strand → Strand) : (s.modStrand c sl f).regions = s.regions := by
  unfold State.modStrand; split <;> rfl
@[simp] theorem State.modMe_regions (s : State) (f : Strand → Strand) : (s.modMe f).regions = s.regions := State.modStrand_regions s _ _ f
@[simp] theorem State.modMyCore_regions (s : State) (f : Core → Core) : (s.modMyCore f).regions = s.regions := rfl
@[simp] theorem State.count_regions (s : State) (c n k : Nat) : (s.count c n k).regions = s.regions := rfl
@[simp] theorem State.modStrand_clusters (s : State) (c sl : Nat) (f : Strand → Strand) : (s.modStrand c sl f).clusters = s.clusters := by
  unfold State.modStrand; split <;> rfl
@[simp] theorem State.modMe_clusters (s : State) (f : Strand → Strand) : (s.modMe f).clusters = s.clusters := State.modStrand_clusters s _ _ f
@[simp] theorem State.modMyCore_clusters (s : State) (f : Core → Core) : (s.modMyCore f).clusters = s.clusters := rfl
@[simp] theorem State.count_clusters (s : State) (c n k : Nat) : (s.count c n k).clusters = s.clusters := rfl
@[simp] theorem State.modStrand_chiplets (s : State) (c sl : Nat) (f : Strand → Strand) : (s.modStrand c sl f).chiplets = s.chiplets := by
  unfold State.modStrand; split <;> rfl
@[simp] theorem State.modMe_chiplets (s : State) (f : Strand → Strand) : (s.modMe f).chiplets = s.chiplets := State.modStrand_chiplets s _ _ f
@[simp] theorem State.modMyCore_chiplets (s : State) (f : Core → Core) : (s.modMyCore f).chiplets = s.chiplets := rfl
@[simp] theorem State.count_chiplets (s : State) (c n k : Nat) : (s.count c n k).chiplets = s.chiplets := rfl
@[simp] theorem State.modStrand_ctxs (s : State) (c sl : Nat) (f : Strand → Strand) : (s.modStrand c sl f).ctxs = s.ctxs := by
  unfold State.modStrand; split <;> rfl
@[simp] theorem State.modMe_ctxs (s : State) (f : Strand → Strand) : (s.modMe f).ctxs = s.ctxs := State.modStrand_ctxs s _ _ f
@[simp] theorem State.modMyCore_ctxs (s : State) (f : Core → Core) : (s.modMyCore f).ctxs = s.ctxs := rfl
@[simp] theorem State.count_ctxs (s : State) (c n k : Nat) : (s.count c n k).ctxs = s.ctxs := rfl
@[simp] theorem State.modStrand_lanes (s : State) (c sl : Nat) (f : Strand → Strand) : (s.modStrand c sl f).lanes = s.lanes := by
  unfold State.modStrand; split <;> rfl
@[simp] theorem State.modMe_lanes (s : State) (f : Strand → Strand) : (s.modMe f).lanes = s.lanes := State.modStrand_lanes s _ _ f
@[simp] theorem State.modMyCore_lanes (s : State) (f : Core → Core) : (s.modMyCore f).lanes = s.lanes := rfl
@[simp] theorem State.count_lanes (s : State) (c n k : Nat) : (s.count c n k).lanes = s.lanes := rfl
@[simp] theorem State.modStrand_spine (s : State) (c sl : Nat) (f : Strand → Strand) : (s.modStrand c sl f).spine = s.spine := by
  unfold State.modStrand; split <;> rfl
@[simp] theorem State.modMe_spine (s : State) (f : Strand → Strand) : (s.modMe f).spine = s.spine := State.modStrand_spine s _ _ f
@[simp] theorem State.modMyCore_spine (s : State) (f : Core → Core) : (s.modMyCore f).spine = s.spine := rfl
@[simp] theorem State.count_spine (s : State) (c n k : Nat) : (s.count c n k).spine = s.spine := rfl
@[simp] theorem State.modStrand_links (s : State) (c sl : Nat) (f : Strand → Strand) : (s.modStrand c sl f).links = s.links := by
  unfold State.modStrand; split <;> rfl
@[simp] theorem State.modMe_links (s : State) (f : Strand → Strand) : (s.modMe f).links = s.links := State.modStrand_links s _ _ f
@[simp] theorem State.modMyCore_links (s : State) (f : Core → Core) : (s.modMyCore f).links = s.links := rfl
@[simp] theorem State.count_links (s : State) (c n k : Nat) : (s.count c n k).links = s.links := rfl
@[simp] theorem State.modStrand_qps (s : State) (c sl : Nat) (f : Strand → Strand) : (s.modStrand c sl f).qps = s.qps := by
  unfold State.modStrand; split <;> rfl
@[simp] theorem State.modMe_qps (s : State) (f : Strand → Strand) : (s.modMe f).qps = s.qps := State.modStrand_qps s _ _ f
@[simp] theorem State.modMyCore_qps (s : State) (f : Core → Core) : (s.modMyCore f).qps = s.qps := rfl
@[simp] theorem State.count_qps (s : State) (c n k : Nat) : (s.count c n k).qps = s.qps := rfl
@[simp] theorem State.modStrand_memRegions (s : State) (c sl : Nat) (f : Strand → Strand) : (s.modStrand c sl f).memRegions = s.memRegions := by
  unfold State.modStrand; split <;> rfl
@[simp] theorem State.modMe_memRegions (s : State) (f : Strand → Strand) : (s.modMe f).memRegions = s.memRegions := State.modStrand_memRegions s _ _ f
@[simp] theorem State.modMyCore_memRegions (s : State) (f : Core → Core) : (s.modMyCore f).memRegions = s.memRegions := rfl
@[simp] theorem State.count_memRegions (s : State) (c n k : Nat) : (s.count c n k).memRegions = s.memRegions := rfl
@[simp] theorem State.modStrand_saved (s : State) (c sl : Nat) (f : Strand → Strand) : (s.modStrand c sl f).saved = s.saved := by
  unfold State.modStrand; split <;> rfl
@[simp] theorem State.modMe_saved (s : State) (f : Strand → Strand) : (s.modMe f).saved = s.saved := State.modStrand_saved s _ _ f
@[simp] theorem State.modMyCore_saved (s : State) (f : Core → Core) : (s.modMyCore f).saved = s.saved := rfl
@[simp] theorem State.count_saved (s : State) (c n k : Nat) : (s.count c n k).saved = s.saved := rfl
@[simp] theorem State.modStrand_loads (s : State) (c sl : Nat) (f : Strand → Strand) : (s.modStrand c sl f).loads = s.loads := by
  unfold State.modStrand; split <;> rfl
@[simp] theorem State.modMe_loads (s : State) (f : Strand → Strand) : (s.modMe f).loads = s.loads := State.modStrand_loads s _ _ f
@[simp] theorem State.modMyCore_loads (s : State) (f : Core → Core) : (s.modMyCore f).loads = s.loads := rfl
@[simp] theorem State.count_loads (s : State) (c n k : Nat) : (s.count c n k).loads = s.loads := rfl
@[simp] theorem State.modStrand_writes (s : State) (c sl : Nat) (f : Strand → Strand) : (s.modStrand c sl f).writes = s.writes := by
  unfold State.modStrand; split <;> rfl
@[simp] theorem State.modMe_writes (s : State) (f : Strand → Strand) : (s.modMe f).writes = s.writes := State.modStrand_writes s _ _ f
@[simp] theorem State.modMyCore_writes (s : State) (f : Core → Core) : (s.modMyCore f).writes = s.writes := rfl
@[simp] theorem State.count_writes (s : State) (c n k : Nat) : (s.count c n k).writes = s.writes := rfl
@[simp] theorem State.modStrand_atoms (s : State) (c sl : Nat) (f : Strand → Strand) : (s.modStrand c sl f).atoms = s.atoms := by
  unfold State.modStrand; split <;> rfl
@[simp] theorem State.modMe_atoms (s : State) (f : Strand → Strand) : (s.modMe f).atoms = s.atoms := State.modStrand_atoms s _ _ f
@[simp] theorem State.modMyCore_atoms (s : State) (f : Core → Core) : (s.modMyCore f).atoms = s.atoms := rfl
@[simp] theorem State.count_atoms (s : State) (c n k : Nat) : (s.count c n k).atoms = s.atoms := rfl
@[simp] theorem State.modStrand_sends (s : State) (c sl : Nat) (f : Strand → Strand) : (s.modStrand c sl f).sends = s.sends := by
  unfold State.modStrand; split <;> rfl
@[simp] theorem State.modMe_sends (s : State) (f : Strand → Strand) : (s.modMe f).sends = s.sends := State.modStrand_sends s _ _ f
@[simp] theorem State.modMyCore_sends (s : State) (f : Core → Core) : (s.modMyCore f).sends = s.sends := rfl
@[simp] theorem State.count_sends (s : State) (c n k : Nat) : (s.count c n k).sends = s.sends := rfl
@[simp] theorem State.modStrand_migs (s : State) (c sl : Nat) (f : Strand → Strand) : (s.modStrand c sl f).migs = s.migs := by
  unfold State.modStrand; split <;> rfl
@[simp] theorem State.modMe_migs (s : State) (f : Strand → Strand) : (s.modMe f).migs = s.migs := State.modStrand_migs s _ _ f
@[simp] theorem State.modMyCore_migs (s : State) (f : Core → Core) : (s.modMyCore f).migs = s.migs := rfl
@[simp] theorem State.count_migs (s : State) (c n k : Nat) : (s.count c n k).migs = s.migs := rfl
@[simp] theorem State.modStrand_ops (s : State) (c sl : Nat) (f : Strand → Strand) : (s.modStrand c sl f).ops = s.ops := by
  unfold State.modStrand; split <;> rfl
@[simp] theorem State.modMe_ops (s : State) (f : Strand → Strand) : (s.modMe f).ops = s.ops := State.modStrand_ops s _ _ f
@[simp] theorem State.modMyCore_ops (s : State) (f : Core → Core) : (s.modMyCore f).ops = s.ops := rfl
@[simp] theorem State.count_ops (s : State) (c n k : Nat) : (s.count c n k).ops = s.ops := rfl
@[simp] theorem State.modStrand_shoots (s : State) (c sl : Nat) (f : Strand → Strand) : (s.modStrand c sl f).shoots = s.shoots := by
  unfold State.modStrand; split <;> rfl
@[simp] theorem State.modMe_shoots (s : State) (f : Strand → Strand) : (s.modMe f).shoots = s.shoots := State.modStrand_shoots s _ _ f
@[simp] theorem State.modMyCore_shoots (s : State) (f : Core → Core) : (s.modMyCore f).shoots = s.shoots := rfl
@[simp] theorem State.count_shoots (s : State) (c n k : Nat) : (s.count c n k).shoots = s.shoots := rfl
@[simp] theorem State.modStrand_steals (s : State) (c sl : Nat) (f : Strand → Strand) : (s.modStrand c sl f).steals = s.steals := by
  unfold State.modStrand; split <;> rfl
@[simp] theorem State.modMe_steals (s : State) (f : Strand → Strand) : (s.modMe f).steals = s.steals := State.modStrand_steals s _ _ f
@[simp] theorem State.modMyCore_steals (s : State) (f : Core → Core) : (s.modMyCore f).steals = s.steals := rfl
@[simp] theorem State.count_steals (s : State) (c n k : Nat) : (s.count c n k).steals = s.steals := rfl
@[simp] theorem State.modStrand_pageReplies (s : State) (c sl : Nat) (f : Strand → Strand) : (s.modStrand c sl f).pageReplies = s.pageReplies := by
  unfold State.modStrand; split <;> rfl
@[simp] theorem State.modMe_pageReplies (s : State) (f : Strand → Strand) : (s.modMe f).pageReplies = s.pageReplies := State.modStrand_pageReplies s _ _ f
@[simp] theorem State.modMyCore_pageReplies (s : State) (f : Core → Core) : (s.modMyCore f).pageReplies = s.pageReplies := rfl
@[simp] theorem State.count_pageReplies (s : State) (c n k : Nat) : (s.count c n k).pageReplies = s.pageReplies := rfl
@[simp] theorem State.modStrand_events (s : State) (c sl : Nat) (f : Strand → Strand) : (s.modStrand c sl f).events = s.events := by
  unfold State.modStrand; split <;> rfl
@[simp] theorem State.modMe_events (s : State) (f : Strand → Strand) : (s.modMe f).events = s.events := State.modStrand_events s _ _ f
@[simp] theorem State.modMyCore_events (s : State) (f : Core → Core) : (s.modMyCore f).events = s.events := rfl
@[simp] theorem State.count_events (s : State) (c n k : Nat) : (s.count c n k).events = s.events := rfl
@[simp] theorem State.modStrand_fresh (s : State) (c sl : Nat) (f : Strand → Strand) : (s.modStrand c sl f).fresh = s.fresh := by
  unfold State.modStrand; split <;> rfl
@[simp] theorem State.modMe_fresh (s : State) (f : Strand → Strand) : (s.modMe f).fresh = s.fresh := State.modStrand_fresh s _ _ f
@[simp] theorem State.modMyCore_fresh (s : State) (f : Core → Core) : (s.modMyCore f).fresh = s.fresh := rfl
@[simp] theorem State.count_fresh (s : State) (c n k : Nat) : (s.count c n k).fresh = s.fresh := rfl
@[simp] theorem State.modStrand_cur (s : State) (c sl : Nat) (f : Strand → Strand) : (s.modStrand c sl f).cur = s.cur := by
  unfold State.modStrand; split <;> rfl
@[simp] theorem State.modMe_cur (s : State) (f : Strand → Strand) : (s.modMe f).cur = s.cur := State.modStrand_cur s _ _ f
@[simp] theorem State.modMyCore_cur (s : State) (f : Core → Core) : (s.modMyCore f).cur = s.cur := rfl
@[simp] theorem State.count_cur (s : State) (c n k : Nat) : (s.count c n k).cur = s.cur := rfl
@[simp] theorem State.modStrand_issuing (s : State) (c sl : Nat) (f : Strand → Strand) : (s.modStrand c sl f).issuing = s.issuing := by
  unfold State.modStrand; split <;> rfl
@[simp] theorem State.modMe_issuing (s : State) (f : Strand → Strand) : (s.modMe f).issuing = s.issuing := State.modStrand_issuing s _ _ f
@[simp] theorem State.modMyCore_issuing (s : State) (f : Core → Core) : (s.modMyCore f).issuing = s.issuing := rfl
@[simp] theorem State.count_issuing (s : State) (c n k : Nat) : (s.count c n k).issuing = s.issuing := rfl
@[simp] theorem State.modStrand_agenda (s : State) (c sl : Nat) (f : Strand → Strand) : (s.modStrand c sl f).agenda = s.agenda := by
  unfold State.modStrand; split <;> rfl
@[simp] theorem State.modMe_agenda (s : State) (f : Strand → Strand) : (s.modMe f).agenda = s.agenda := State.modStrand_agenda s _ _ f
@[simp] theorem State.modMyCore_agenda (s : State) (f : Core → Core) : (s.modMyCore f).agenda = s.agenda := rfl
@[simp] theorem State.count_agenda (s : State) (c n k : Nat) : (s.count c n k).agenda = s.agenda := rfl

theorem State.modStrand_some {s : State} {c sl : Nat} {p : Strand} (h : s.strand? c sl = some p) (f : Strand → Strand) :
    s.modStrand c sl f = s.putStrand c sl (f p) := by
  simp [State.modStrand, h]

theorem State.Runs.me {s : State} (h : s.Runs) : s.strand? s.cur.1 s.cur.2 = some s.me := by
  obtain ⟨p, hp⟩ := Option.isSome_iff_exists.mp h
  simp [State.me, State.strandAt, hp]

theorem State.me_of_strand? {s : State} {p : Strand} (h : s.strand? s.cur.1 s.cur.2 = some p) : s.me = p := by
  simp [State.me, State.strandAt, h]

@[simp] theorem State.me_modMe {s : State} (h : s.Runs) (f : Strand → Strand) : (s.modMe f).me = f s.me := by
  apply State.me_of_strand?
  rw [State.modMe_cur, State.modMe, State.modStrand_some h.me, State.strand?_putStrand]

theorem State.runs_modMe {s : State} (h : s.Runs) (f : Strand → Strand) : (s.modMe f).Runs := by
  unfold State.Runs
  rw [State.modMe_cur, State.modMe, State.modStrand_some h.me, State.strand?_putStrand]
  rfl

end Sys2Proof.Machine
end

