-- ==== Sys2Proof/Laws/Ops.lean ====
section
/-! SUPPORT. The shared operations keep the canonical form of memory, and what taking a fault and returning from one do. -/

namespace Sys2Proof.Machine

/-- A fold of an operation that keeps the canonical form keeps it. -/
theorem foldl_wf {α : Type} (f : State → α → State)
    (hf : ∀ s a, s.mem.wf = true → (f s a).mem.wf = true) (l : List α) :
    ∀ s : State, s.mem.wf = true → (l.foldl f s).mem.wf = true := by
  induction l with
  | nil => intro s h; exact h
  | cons a l ih => intro s h; exact ih _ (hf s a h)

/-- An operation that changes no memory keeps the canonical form. -/
theorem wf_of_mem {s t : State} (e : t.mem = s.mem) (h : s.mem.wf = true) : t.mem.wf = true := e ▸ h

@[simp] theorem State.poke_wf {s : State} (cells : List Host.Cell) (h : s.mem.wf = true) : (s.poke cells).mem.wf = true :=
  memWrite_wf _ h

@[simp] theorem State.trace_wf {s : State} (c : Nat) (r : TraceRec) (h : s.mem.wf = true) :
    (s.trace c r).mem.wf = true := by
  unfold State.trace
  dsimp only
  split
  · exact h
  · split
    · rw [State.modCtx_mem]; exact State.poke_wf _ h
    · rw [State.modCtx_mem]; exact h

@[simp] theorem State.modStrand_wf {s : State} (c sl : Nat) (f : Strand → Strand) (h : s.mem.wf = true) :
    (s.modStrand c sl f).mem.wf = true := by
  unfold State.modStrand
  split <;> exact h

@[simp] theorem State.modMe_wf {s : State} (f : Strand → Strand) (h : s.mem.wf = true) : (s.modMe f).mem.wf = true :=
  State.modStrand_wf _ _ _ h

@[simp] theorem State.count_wf {s : State} (c n k : Nat) (h : s.mem.wf = true) : (s.count c n k).mem.wf = true := h

@[simp] theorem State.modPlace_wf {s : State} (c : Nat) (pl : Place) (f : Strand → Strand) (h : s.mem.wf = true) :
    (s.modPlace c pl f).mem.wf = true := by
  unfold State.modPlace
  split
  · exact State.modStrand_wf _ _ _ h
  · split <;> exact h

@[simp] theorem State.stopWhere_wf {s : State} (c : Nat) (hit : Option Nat → Strand → Bool) (h : s.mem.wf = true) :
    (s.stopWhere c hit).mem.wf = true :=
  foldl_wf _ (fun _ _ ht => State.trace_wf _ _ ht) _ _ h

@[simp] theorem State.stopStrand_wf {s : State} (c sl : Nat) (h : s.mem.wf = true) : (s.stopStrand c sl).mem.wf = true :=
  State.stopWhere_wf _ _ h

@[simp] theorem State.settleStop_wf {s : State} (c : Nat) (h : s.mem.wf = true) : (s.settleStop c).mem.wf = true := by
  unfold State.settleStop
  dsimp only
  split
  · exact State.trace_wf _ _ h
  · exact h

@[simp] theorem State.stopCore_wf {s : State} (c : Nat) (h : s.mem.wf = true) : (s.stopCore c).mem.wf = true := by
  unfold State.stopCore
  dsimp only
  split
  · exact h
  · refine State.settleStop_wf _ (State.stopWhere_wf _ _ ?_)
    split <;> exact h

@[simp] theorem State.stopOwn_wf {s : State} (c own : Nat) (h : s.mem.wf = true) : (s.stopOwn c own).mem.wf = true :=
  State.settleStop_wf _ (State.stopWhere_wf _ _ h)

@[simp] theorem State.fire_wf {s : State} (c i : Nat) (who : Option (Nat × Nat)) (sid pc : Word) (path : Nat) (what : Word)
    (h : s.mem.wf = true) : (s.fire c i who sid pc path what).mem.wf = true := by
  unfold State.fire
  dsimp only
  have h1 : ∀ (t : State) (b : Prop) [Decidable b] (r : TraceRec), t.mem.wf = true →
      (if b then t else t.trace c r).mem.wf = true := by
    intro t b _ r ht
    split
    · exact ht
    · exact State.trace_wf _ _ ht
  split
  · exact State.stopOwn_wf _ _ (h1 _ _ _ h)
  · exact State.stopCore_wf _ (h1 _ _ _ h)
  · exact h1 _ _ _ h

@[simp] theorem State.fireAll_wf {s : State} (c : Nat) (p : WatchPt → Bool) (who : Option (Nat × Nat)) (sid pc : Word) (path : Nat)
    (what : Word) (h : s.mem.wf = true) : (s.fireAll c p who sid pc path what).mem.wf = true := by
  unfold State.fireAll
  refine foldl_wf _ (fun t i ht => ?_) _ _ h
  split
  · exact State.fire_wf _ _ _ _ _ _ _ ht
  · exact ht

@[simp] theorem State.watchRange_wf {s : State} (wr : Bool) (locs : List Nat) (who : Option (Nat × Nat)) (sid pc : Word)
    (path : Nat) (h : s.mem.wf = true) : (s.watchRange wr locs who sid pc path).mem.wf = true := by
  unfold State.watchRange
  exact foldl_wf _ (fun t c ht => State.fireAll_wf _ _ _ _ _ _ _ ht) _ _ h

@[simp] theorem State.reportAt_wf {s : State} (c : Nat) (pl : Place) (h : s.mem.wf = true) : (s.reportAt c pl).mem.wf = true := by
  unfold State.reportAt
  split
  · split
    · exact State.trace_wf _ _ (State.modPlace_wf _ _ _ h)
    · exact h
  · exact h

@[simp] theorem State.reportStep_wf {s : State} (c sl : Nat) (h : s.mem.wf = true) : (s.reportStep c sl).mem.wf = true :=
  State.reportAt_wf _ _ h

@[simp] theorem State.watchGAt_wf {s : State} (c : Nat) (pl : Place) (n : Nat) (h : s.mem.wf = true) :
    (s.watchGAt c pl n).mem.wf = true := by
  unfold State.watchGAt
  split
  · exact State.fireAll_wf _ _ _ _ _ _ _ h
  · exact h

@[simp] theorem State.watchG_wf {s : State} (c sl n : Nat) (h : s.mem.wf = true) : (s.watchG c sl n).mem.wf = true :=
  State.watchGAt_wf _ _ _ h

@[simp] theorem State.watchV_wf {s : State} (c sl n : Nat) (h : s.mem.wf = true) : (s.watchV c sl n).mem.wf = true :=
  State.fireAll_wf _ _ _ _ _ _ _ h

@[simp] theorem State.setG_wf {s : State} (n : Nat) (v : Word) (h : s.mem.wf = true) : (s.setG n v).mem.wf = true :=
  State.watchG_wf _ _ _ (State.modMe_wf _ h)

@[simp] theorem State.setD_wf {s : State} (d : Dst) (v : Word) (h : s.mem.wf = true) : (s.setD d v).mem.wf = true := by
  unfold State.setD
  split
  · exact State.setG_wf _ _ h
  · exact h

@[simp] theorem State.handOver_wf {s : State} (c sl : Nat) (rel : Bool) (b : BufStore) (h : s.mem.wf = true) :
    (s.handOver c sl rel b).mem.wf = true := by
  unfold State.handOver
  dsimp only
  split
  · exact h
  · exact State.watchRange_wf _ _ _ _ _ _ h

@[simp] theorem State.commitRegion_wf {s : State} (c sl : Nat) (h : s.mem.wf = true) : (s.commitRegion c sl).mem.wf = true := by
  unfold State.commitRegion
  split
  · exact h
  · dsimp only
    have h1 : ∀ (b : Bool) (u : State), u.mem.wf = true → (if b then u else u.count c 11 1).mem.wf = true := by
      intro b u hu
      split <;> exact hu
    split
    · exact h1 _ _ h
    · exact foldl_wf _ (fun t b ht => State.handOver_wf _ _ _ _ ht) _ _ (h1 _ _ h)

@[simp] theorem State.commit_wf {s : State} (h : s.mem.wf = true) : s.commit.mem.wf = true := State.commitRegion_wf _ _ h

@[simp] theorem State.commitHere_wf {s : State} (h : s.mem.wf = true) : s.commitHere.mem.wf = true :=
  State.modMe_wf _ (State.commit_wf h)

@[simp] theorem State.abortRegion_wf {s : State} (c sl : Nat) (h : s.mem.wf = true) : (s.abortRegion c sl).mem.wf = true := by
  unfold State.abortRegion
  split
  · exact h
  · split
    · exact h
    · apply State.count_wf
      rw [State.modCore_mem]
      apply foldl_wf
      · intro t e ht
        exact State.watchV_wf _ _ _ ht
      · exact foldl_wf _ (fun t n ht => State.watchG_wf _ _ _ ht) _ _ h

@[simp] theorem State.undoV_wf {s : State} (n : Nat) (h : s.mem.wf = true) : (s.undoV n).mem.wf = true := by
  unfold State.undoV
  dsimp only
  split
  · exact h
  · apply State.modMe_wf
    split
    · exact State.commitHere_wf h
    · exact h

@[simp] theorem State.undoM_wf {s : State} (n : Nat) (h : s.mem.wf = true) : (s.undoM n).mem.wf = true := by
  unfold State.undoM
  dsimp only
  split
  · exact h
  · apply State.modMe_wf
    split
    · exact State.commitHere_wf h
    · exact h

@[simp] theorem State.setV_wf {s : State} (i : Nat) (bytes : List Nat) (v : VReg) (h : s.mem.wf = true) :
    (s.setV i bytes v).mem.wf = true := State.watchV_wf _ _ _ (State.modMe_wf _ h)

@[simp] theorem State.setM_wf {s : State} (n : Nat) (v : BitVec 16) (h : s.mem.wf = true) : (s.setM n v).mem.wf = true := by
  unfold State.setM
  split <;> exact h

@[simp] theorem State.retireTo_wf {s : State} (pc : Word) (h : s.mem.wf = true) : (s.retireTo pc).mem.wf = true :=
  State.reportStep_wf _ _ (State.count_wf _ _ _ (State.modMe_wf _ h))

@[simp] theorem State.retire_wf {s : State} (h : s.mem.wf = true) : s.retire.mem.wf = true := State.retireTo_wf _ h

@[simp] theorem State.await_wf {s : State} (w : Wait) (h : s.mem.wf = true) : (s.await w).mem.wf = true :=
  wf_of_mem rfl (State.modMe_wf (fun p => { p with st := .waiting w, waitNo := s.fresh }) h)

@[simp] theorem State.wait_wf {s : State} (w : Wait) (h : s.mem.wf = true) : (s.wait w).mem.wf = true :=
  State.reportStep_wf _ _ (State.await_wf w h)

@[simp] theorem State.endWait_wf {s : State} (c : Nat) (pl : Place) (d : Dst) (v : Word) (h : s.mem.wf = true) :
    (s.endWait c pl d v).mem.wf = true := by
  unfold State.endWait
  have h1 : (s.modPlace c pl fun p => p.endWait d v).mem.wf = true := State.modPlace_wf _ _ _ h
  refine State.reportAt_wf _ _ (State.count_wf _ _ _ ?_)
  cases d <;> first | exact State.watchGAt_wf _ _ _ h1 | exact h1

@[simp] theorem State.retryWhere_wf {s : State} (c : Nat) (p : Wait → Bool) (h : s.mem.wf = true) :
    (s.retryWhere c p).mem.wf = true :=
  foldl_wf _ (fun _ _ ht => State.modPlace_wf _ _ _ ht) _ _ h

@[simp] theorem State.faultAt_wf {s : State} (c sl : Nat) (f : FaultRec) (h : s.mem.wf = true) :
    (s.faultAt c sl f).mem.wf = true :=
  State.reportStep_wf _ _ (wf_of_mem rfl (State.modStrand_wf c sl (fun p => { p with st := .faulted f, walk := none }) h))

@[simp] theorem State.faultPlace_wf {s : State} (c : Nat) (pl : Place) (f : FaultRec) (h : s.mem.wf = true) :
    (s.faultPlace c pl f).mem.wf = true := by
  unfold State.faultPlace
  split
  · exact State.faultAt_wf _ _ _ h
  · exact State.modPlace_wf _ _ _ h

@[simp] theorem State.raiseAt_wf {s : State} (w : WordId) (code : Code) (sub : Nat) (addr : Word) (h : s.mem.wf = true) :
    (s.raiseAt w code sub addr).mem.wf = true := State.faultAt_wf _ _ _ (State.commit_wf h)

@[simp] theorem State.raise_wf {s : State} (code : Code) (sub : Nat) (addr : Word) (h : s.mem.wf = true) :
    (s.raise code sub addr).mem.wf = true := State.raiseAt_wf _ _ _ _ h

@[simp] theorem State.servePager_wf {s : State} (site : Nat) (h : s.mem.wf = true) : (s.servePager site).mem.wf = true := by
  unfold State.servePager
  dsimp only
  split
  · split
    · split
      · apply State.endWait_wf
        rw [State.modChip_mem]
        exact State.watchRange_wf _ _ _ _ _ _ (State.poke_wf _ h)
      · exact h
    · exact h
  · exact h

@[simp] theorem State.pageRequest_wf {s : State} (site : Nat) (r : PageReq) (h : s.mem.wf = true) :
    (s.pageRequest site r).mem.wf = true := State.servePager_wf _ h

@[simp] theorem State.xlate_wf {s : State} (c sl : Nat) (kind : ReqKind) (va : Word) (w : WordId) (h : s.mem.wf = true) :
    (s.xlate c sl kind va w).mem.wf = true := by
  unfold State.xlate
  dsimp only
  have h1 : ((s.modStrand c sl fun p => { p with walk := none }).abortRegion c sl).mem.wf = true :=
    State.abortRegion_wf _ _ (State.modStrand_wf _ _ _ h)
  split
  · exact State.faultAt_wf _ _ _ h1
  · exact State.pageRequest_wf _ _ (State.reportStep_wf _ _ (State.modStrand_wf _ _ _ h1))

@[simp] theorem State.joinWalk_wf {s : State} (k : Nat) (asid : BitVec 12) (sec : Bool) (va : Word)
    (w : Nat × Nat × ReqKind × Word) (h : s.mem.wf = true) : (s.joinWalk k asid sec va w).1.mem.wf = true := by
  unfold State.joinWalk
  dsimp only
  split <;> exact h

@[simp] theorem State.startWalk_wf {s : State} (c sl : Nat) (kind : ReqKind) (va : Word) (h : s.mem.wf = true) :
    (s.startWalk c sl kind va).mem.wf = true := State.modStrand_wf _ _ _ (State.joinWalk_wf _ _ _ _ _ h)

@[simp] theorem State.touch_wf {s : State} (ps : List Piece) (h : s.mem.wf = true) : (s.touch ps).mem.wf = true := by
  refine foldl_wf _ (fun t p ht => ?_) _ _ h
  split <;> exact ht

/-- An access keeps the canonical form when what follows its checks does. -/
theorem State.withAccess_wf {s : State} (kind : ReqKind) (nd : Need) (ea : Word) (n : Nat)
    (go : List Piece → State → State) (hg : ∀ ps t, t.mem.wf = true → (go ps t).mem.wf = true) (h : s.mem.wf = true) :
    (s.withAccess kind nd ea n go).mem.wf = true := by
  unfold State.withAccess
  dsimp only
  split
  · exact State.raise_wf _ _ _ h
  · exact State.startWalk_wf _ _ _ _ h
  · exact hg _ _ (State.touch_wf _ h)

@[simp] theorem State.takeFault_wf {s : State} (c sl hd : Nat) (p : Strand) (f : FaultRec) (h : s.mem.wf = true) :
    (s.takeFault c sl hd p f).mem.wf = true := h

@[simp] theorem State.returnFault_wf {s : State} (c sl : Nat) (t : Word) (mask : BitVec 16) (h : s.mem.wf = true) :
    (s.returnFault c sl t mask).mem.wf = true := by
  unfold State.returnFault
  split
  · exact h
  · exact foldl_wf _ (fun t n ht => State.watchG_wf _ _ _ ht) _ _ h

/-! ### Instructions -/

@[simp] theorem State.startInstr_wf {s : State} (maj fn : Nat) (len : Len) (h : s.mem.wf = true) :
    (s.startInstr maj fn len).mem.wf = true := State.modMe_wf _ h

@[simp] theorem State.again_wf {s : State} (h : s.mem.wf = true) : s.again.mem.wf = true := State.modMe_wf _ h

/-- An instruction keeps the canonical form when its own effect does. -/
theorem State.instr_wf {s : State} (maj fn : Nat) (o : Ops) (body : State → State)
    (hb : ∀ t, t.mem.wf = true → (body t).mem.wf = true) (h : s.mem.wf = true) : (s.instr maj fn o body).mem.wf = true := by
  unfold State.instr
  dsimp only
  split
  · exact hb _ (State.modMe_wf _ (State.startInstr_wf _ _ _ h))
  · exact State.raise_wf _ _ _ (State.startInstr_wf _ _ _ h)

theorem State.vinstr_wf {s : State} (maj fn : Nat) (o : Ops) (wr : Bool) (body : State → State)
    (hb : ∀ t, t.mem.wf = true → (body t).mem.wf = true) (h : s.mem.wf = true) :
    (s.vinstr maj fn o wr body).mem.wf = true := by
  refine State.instr_wf _ _ _ _ (fun t ht => ?_) h
  split
  · exact State.raise_wf _ _ _ ht
  · split
    · exact State.raise_wf _ _ _ ht
    · exact State.again_wf ht
    · exact hb _ ht

theorem State.supInstr_wf {s : State} (need : Bool) (maj fn : Nat) (o : Ops) (body : State → State)
    (hb : ∀ t, t.mem.wf = true → (body t).mem.wf = true) (h : s.mem.wf = true) :
    (s.supInstr need maj fn o body).mem.wf = true := by
  unfold State.supInstr
  split
  · exact State.raise_wf _ _ _ (State.startInstr_wf _ _ _ h)
  · exact State.instr_wf _ _ _ _ hb h

theorem State.pagerInstr_wf {s : State} (maj fn : Nat) (o : Ops) (body : State → State)
    (hb : ∀ t, t.mem.wf = true → (body t).mem.wf = true) (h : s.mem.wf = true) :
    (s.pagerInstr maj fn o body).mem.wf = true := by
  unfold State.pagerInstr
  split
  · exact State.raise_wf _ _ _ (State.startInstr_wf _ _ _ h)
  · exact State.instr_wf _ _ _ _ hb h

theorem State.noHandler_wf {s : State} (body : State → State) (hb : ∀ t, t.mem.wf = true → (body t).mem.wf = true)
    (h : s.mem.wf = true) : (s.noHandler body).mem.wf = true := by
  unfold State.noHandler
  split
  · exact State.raise_wf _ _ _ h
  · exact hb _ h

@[simp] theorem State.undoD_wf {s : State} (d : Dst) (h : s.mem.wf = true) : (s.undoD d).mem.wf = true := by
  unfold State.undoD
  split
  · exact State.undoV_wf _ h
  · exact State.undoM_wf _ h
  · exact h

@[simp] theorem State.retireV_wf {s : State} (o : Ops) (h : s.mem.wf = true) : (s.retireV o).mem.wf = true :=
  State.retire_wf (State.count_wf _ _ _ (State.modMe_wf _ h))

@[simp] theorem State.putD_wf {s : State} (o : Ops) (v : Word) (h : s.mem.wf = true) : (s.putD o v).mem.wf = true :=
  State.retire_wf (State.setD_wf _ _ h)

@[simp] theorem State.putLanes_wf {s : State} (o : Ops) (f : Nat → BitVec 32) (h : s.mem.wf = true) :
    (s.putLanes o f).mem.wf = true := State.retireV_wf _ (State.setV_wf _ _ _ (State.undoD_wf _ h))

/-! ### Taking a fault and returning from it -/

/-- Taking a fault puts the handler into the slot and the faulted strand, counted, into the holder (04 R111, R112). -/
theorem State.takeFault_places (s : State) (c sl h : Nat) (p : Strand) (f : FaultRec) :
    (s.takeFault c sl h p f).strand? c sl = some { s.handlerStrand p sl f with own := s.fresh + 1 } ∧
    tfind ((s.takeFault c sl h p f).core c).holders h = some (sl, { p with fcnt := p.fcnt + 1 }) ∧
    ∀ d, d ≠ c → (s.takeFault c sl h p f).core d = s.core d := by
  refine ⟨?_, ?_, fun d hd => ?_⟩
  · simp [State.takeFault, State.strand?]
  · simp [State.takeFault]
  · simp [State.takeFault, State.tick, State.modCore, State.setCore, State.core, tget_tput_ne _ _ _ hd]

/-- A return without a faulted strand changes nothing. -/
theorem State.returnFault_none {s : State} {c sl : Nat} (t : Word) (mask : BitVec 16) (h : (s.core c).holderOf sl = none) :
    s.returnFault c sl t mask = s := by simp [State.returnFault, h]

end Sys2Proof.Machine
end

