-- ==== Sys2Proof/Laws/Strand.lean ====
section
/-! SUPPORT. Laws of the strand that executes: updates of it compose, and what the start and the retirement of an
instruction do to a state in which no debugging facility watches. -/

namespace Sys2Proof.Machine

theorem tput_tput {α : Type} : ∀ (t : Tbl α) (n : Nat) (v w : α), tput (tput t n v) n w = tput t n w
  | [], n, v, w => by simp [tput]
  | (k, x) :: t, n, v, w => by
    simp only [tput]
    split
    · simp [tput]
    · split
      · simp [tput]
      · rename_i h1 h2
        simp [tput, h1, h2, tput_tput t n v w]

theorem State.setCore_setCore (s : State) (c : Nat) (k j : Core) : (s.setCore c k).setCore c j = s.setCore c j := by
  simp [State.setCore, tput_tput]

theorem State.modCore_modCore (s : State) (c : Nat) (f g : Core → Core) :
    (s.modCore c f).modCore c g = s.modCore c fun k => g (f k) := by
  simp [State.modCore, State.setCore_setCore]

theorem State.putStrand_putStrand (s : State) (c sl : Nat) (p q : Strand) :
    (s.putStrand c sl p).putStrand c sl q = s.putStrand c sl q := by
  simp [State.putStrand, State.modCore_modCore, tput_tput]

theorem State.modStrand_modStrand (s : State) (c sl : Nat) (f g : Strand → Strand) :
    (s.modStrand c sl f).modStrand c sl g = s.modStrand c sl fun p => g (f p) := by
  cases h : s.strand? c sl with
  | none => simp [State.modStrand, h]
  | some p =>
    rw [State.modStrand_some h, State.modStrand_some h, State.modStrand_some (State.strand?_putStrand s c sl (f p)),
      State.putStrand_putStrand]

theorem State.modMe_modMe (s : State) (f g : Strand → Strand) : (s.modMe f).modMe g = s.modMe fun p => g (f p) := by
  have := State.modStrand_modStrand s s.cur.1 s.cur.2 f g
  simpa [State.modMe] using this

theorem State.strand?_modMe_ne (s : State) (f : Strand → Strand) {n : Nat} (h : n ≠ s.cur.2) :
    (s.modMe f).strand? s.cur.1 n = s.strand? s.cur.1 n := by
  cases hp : s.strand? s.cur.1 s.cur.2 with
  | none => simp [State.modMe, State.modStrand, hp]
  | some p => rw [State.modMe, State.modStrand_some hp, State.strand?_putStrand_ne s _ _ h]

theorem State.core_modMe_ne (s : State) (f : Strand → Strand) {c : Nat} (h : c ≠ s.cur.1) :
    (s.modMe f).core c = s.core c := by
  unfold State.modMe State.modStrand
  split
  · exact State.modCore_core_ne s _ h
  · rfl

/-- The core that executes after a change of its strand: only its slots change. -/
theorem State.myCore_modMe (s : State) (f : Strand → Strand) :
    ∃ l, (s.modMe f).myCore = { s.myCore with slots := l } := by
  unfold State.modMe State.modStrand
  split
  · exact ⟨_, State.modCore_core s _ _⟩
  · exact ⟨s.myCore.slots, rfl⟩

/-! ### No debugging facility watches (19) -/

theorem State.Quiet.modMe {s : State} (h : s.Quiet) (hr : s.Runs) {f : Strand → Strand}
    (hf : ∀ p, (f p).stepping = p.stepping) : (s.modMe f).Quiet := by
  constructor
  · intro i hi
    obtain ⟨l, hl⟩ := s.myCore_modMe f
    rw [hl]; exact h.watch i hi
  · rw [State.me_modMe hr, hf]; exact h.step

theorem foldl_same {α β : Type} (f : β → α → β) : ∀ (l : List α) (b : β), (∀ a ∈ l, f b a = b) → l.foldl f b = b
  | [], b, _ => rfl
  | a :: l, b, h => by
    rw [List.foldl_cons, h a (by simp)]
    exact foldl_same f l b fun x hx => h x (by simp [hx])

theorem State.fireAll_none (s : State) (c : Nat) (p : WatchPt → Bool) (who : Option (Nat × Nat)) (sid pc : Word) (path : Nat)
    (what : Word) (h : ∀ i, i < 4 → p (vget { ctl := 0, val := 0, hit := 0 } (s.core c).wp i) = false) :
    s.fireAll c p who sid pc path what = s := by
  unfold State.fireAll
  refine foldl_same _ _ _ fun i hi => ?_
  rw [h i (List.mem_range.mp hi)]; rfl

theorem State.Quiet.watchG {s : State} (h : s.Quiet) (sl n : Nat) : s.watchG s.cur.1 sl n = s := by
  unfold State.watchG State.watchGAt
  split
  · refine State.fireAll_none s _ _ _ _ _ _ _ fun i hi => ?_
    have := h.watch i hi
    simp only [State.myCore] at this
    simp only [Bool.and_eq_false_iff, beq_eq_false_iff_ne]
    exact .inl (.inl (.inl this))
  · rfl

theorem State.Quiet.watchV {s : State} (h : s.Quiet) (sl n : Nat) : s.watchV s.cur.1 sl n = s := by
  unfold State.watchV
  refine State.fireAll_none s _ _ _ _ _ _ _ fun i hi => ?_
  have := h.watch i hi
  simp only [State.myCore] at this
  simp only [Bool.and_eq_false_iff, beq_eq_false_iff_ne]
  exact .inl (.inl this)

theorem State.reportStep_none {s : State} {c sl : Nat} (h : ∀ p, s.strand? c sl = some p → p.stepping = false) :
    s.reportStep c sl = s := by
  unfold State.reportStep State.reportAt
  split
  · rename_i p hp; simp [h p hp]
  · rfl

/-! ### The start of an instruction -/

/-- The strand once an instruction has started (01 R38, R40; 04 R103; 07 R186). -/
def Strand.entered (p : Strand) (maj fn : Nat) (o : Ops) : Strand :=
  let q := { p with word := { maj := BitVec.ofNat 8 maj, fn := BitVec.ofNat 6 fn, len := lenCode o.len } }
  let q := if q.ckptDue then q.checkpoint else q
  { q with latches := q.latched o }

@[simp] theorem Strand.entered_g (p : Strand) (maj fn : Nat) (o : Ops) : (p.entered maj fn o).g = p.g := by
  unfold Strand.entered; dsimp only; split <;> rfl
@[simp] theorem Strand.entered_pc (p : Strand) (maj fn : Nat) (o : Ops) : (p.entered maj fn o).pc = p.pc := by
  unfold Strand.entered; dsimp only; split <;> rfl
@[simp] theorem Strand.entered_asid (p : Strand) (maj fn : Nat) (o : Ops) : (p.entered maj fn o).asid = p.asid := by
  unfold Strand.entered; dsimp only; split <;> rfl
@[simp] theorem Strand.entered_lh (p : Strand) (maj fn : Nat) (o : Ops) : (p.entered maj fn o).lh = p.lh := by
  unfold Strand.entered; dsimp only; split <;> rfl
@[simp] theorem Strand.entered_stepping (p : Strand) (maj fn : Nat) (o : Ops) :
    (p.entered maj fn o).stepping = p.stepping := by
  unfold Strand.entered; dsimp only; split <;> rfl
@[simp] theorem Strand.entered_rows (p : Strand) (maj fn : Nat) (o : Ops) : (p.entered maj fn o).rows = p.rows := by
  unfold Strand.entered; dsimp only; split <;> rfl
@[simp] theorem Strand.entered_word (p : Strand) (maj fn : Nat) (o : Ops) : (p.entered maj fn o).word =
    { maj := BitVec.ofNat 8 maj, fn := BitVec.ofNat 6 fn, len := lenCode o.len } := by
  unfold Strand.entered; dsimp only; split <;> rfl

/-- What the start of an instruction leaves of a strand. -/
theorem Strand.entered_frame (p : Strand) (maj fn : Nat) (o : Ops) :
    { p.entered maj fn o with
      word := p.word, latches := p.latches, ckpt := p.ckpt, ckptDue := p.ckptDue, retired := p.retired,
      firstStore := p.firstStore } = p := by
  unfold Strand.entered; dsimp only; split <;> rfl

theorem lenCode_bytes (l : Len) (m f : Nat) :
    WordId.bytes { maj := BitVec.ofNat 8 m, fn := BitVec.ofNat 6 f, len := lenCode l } = l.bytes := by
  cases l <;> rfl

theorem State.instr_ok {s : State} (hr : s.Runs) (maj fn : Nat) {o : Ops} (ho : o.regsExist s.me.nreg = true)
    (body : State → State) : s.instr maj fn o body = body (s.modMe fun p => p.entered maj fn o) := by
  have hn : (s.startInstr maj fn o.len).me.nreg = s.me.nreg := by
    unfold State.startInstr
    rw [State.me_modMe hr]
    dsimp only [Strand.nreg]
    split <;> rfl
  unfold State.instr
  dsimp only
  rw [hn, if_pos ho]
  unfold State.startInstr
  rw [State.modMe_modMe]
  rfl

/-! ### Operands after the start -/

@[simp] theorem State.modMe_launch (s : State) (f : Strand → Strand) (a l : Nat) : (s.modMe f).launch a l = s.launch a l := by
  simp [State.launch, State.ctx]

theorem State.val_entered {s : State} (hr : s.Runs) (maj fn : Nat) (o : Ops) (x : Src) :
    (s.modMe fun p => p.entered maj fn o).val x = s.val x := by
  cases x <;> simp [State.val, State.konst, Strand.getG, State.me_modMe hr]

theorem State.valZ_entered {s : State} (hr : s.Runs) (maj fn : Nat) (o : Ops) (x : Src) :
    (s.modMe fun p => p.entered maj fn o).valZ x = s.valZ x := by
  cases x <;> simp [State.valZ, State.val_entered hr]

/-! ### Retirement -/

/-- The strand after an instruction that wrote its g destination and retired. -/
def Strand.wrote (p : Strand) (d : Dst) (v : Word) : Strand :=
  (match d with | .g n => p.setG n.toNat v | _ => p).retire

@[simp] theorem Strand.wrote_g (p : Strand) (d : Dst) (v : Word) :
    (p.wrote d v).g = match d with | .g n => vset p.g n.toNat v | _ => p.g := by
  cases d <;> rfl
@[simp] theorem Strand.wrote_pc (p : Strand) (d : Dst) (v : Word) : (p.wrote d v).pc = p.pc + toWord p.word.bytes := by
  cases d <;> rfl
@[simp] theorem Strand.wrote_st (p : Strand) (d : Dst) (v : Word) : (p.wrote d v).st = .ready := by
  cases d <;> rfl
@[simp] theorem Strand.wrote_stepping (p : Strand) (d : Dst) (v : Word) : (p.wrote d v).stepping = p.stepping := by
  cases d <;> rfl

theorem Strand.wrote_frame (p : Strand) (d : Dst) (v : Word) :
    { p.wrote d v with g := p.g, pc := p.pc, st := p.st, retired := p.retired, heldSince := p.heldSince, board := p.board } = p := by
  cases d <;> rfl

theorem State.strand?_count (s : State) (c n k d sl : Nat) : (s.count c n k).strand? d sl = s.strand? d sl := by
  unfold State.count State.strand?
  by_cases h : d = c
  · subst h; rw [State.modCore_core]; split <;> rfl
  · rw [State.modCore_core_ne s _ h]

theorem State.me_count (s : State) (c n k : Nat) : (s.count c n k).me = s.me := by
  unfold State.me State.strandAt
  rw [State.count_cur, State.strand?_count]

/-- Retirement with no step to report. -/
theorem State.retireTo_quiet {s : State} (hr : s.Runs) (hq : s.me.stepping = false) (pc : Word) :
    s.retireTo pc = (s.modMe fun p => p.retireTo pc).count s.cur.1 2 1 := by
  unfold State.retireTo
  apply State.reportStep_none
  intro p hp
  rw [State.strand?_count] at hp
  have h : (s.modMe fun p => p.retireTo pc).me = p := by
    apply State.me_of_strand?
    simpa using hp
  rw [← h, State.me_modMe hr]
  exact hq

/-- A register write and retirement, with no debugging facility watching. -/
theorem State.putD_quiet {s : State} (hr : s.Runs) (hq : s.Quiet) (o : Ops) (v : Word) :
    s.putD o v = (s.modMe fun p => p.wrote o.d v).count s.cur.1 2 1 := by
  unfold State.putD State.setD
  cases hd : o.d with
  | g n =>
    have hs : s.setG n.toNat v = s.modMe fun p => p.setG n.toNat v := by
      unfold State.setG
      have := (hq.modMe hr (f := fun p => p.setG n.toNat v) fun _ => rfl).watchG s.cur.2 n.toNat
      simpa using this
    have hr' := State.runs_modMe hr fun p => p.setG n.toNat v
    dsimp only
    rw [hs, State.retire, State.retireTo_quiet hr' (by rw [State.me_modMe hr]; exact hq.step), State.modMe_modMe,
      State.me_modMe hr, State.modMe_cur]
    congr 1
    unfold State.modMe
    rw [State.modStrand_some hr.me, State.modStrand_some hr.me]
    rfl
  | none =>
    dsimp only
    rw [State.retire, State.retireTo_quiet hr hq.step]
    congr 1
    unfold State.modMe
    rw [State.modStrand_some hr.me, State.modStrand_some hr.me]
    rfl
  | v n =>
    dsimp only
    rw [State.retire, State.retireTo_quiet hr hq.step]
    congr 1
    unfold State.modMe
    rw [State.modStrand_some hr.me, State.modStrand_some hr.me]
    rfl
  | m n =>
    dsimp only
    rw [State.retire, State.retireTo_quiet hr hq.step]
    congr 1
    unfold State.modMe
    rw [State.modStrand_some hr.me, State.modStrand_some hr.me]
    rfl

end Sys2Proof.Machine
end

