-- ==== Sys2Proof/Laws/Scalar.lean ====
section
/-! SUPPORT. The one spec lemma of the instructions that write one g register and retire: what they leave. -/

namespace Sys2Proof.Machine

theorem State.count_core_ne (s : State) {c d : Nat} (n k : Nat) (h : d ≠ c) : (s.count c n k).core d = s.core d :=
  State.modCore_core_ne s _ h

theorem State.myCore_count (s : State) (n k : Nat) : (s.count s.cur.1 n k).myCore =
    if s.myCore.counting then { s.myCore with perf := vset s.myCore.perf n (vget 0 s.myCore.perf n + toWord k) }
    else s.myCore := by
  unfold State.myCore
  rw [State.count_cur]
  exact State.modCore_core s _ _

/-- A change of the executing strand and a count: what stays. -/
theorem State.onlyStrand_modMe_count (s : State) (f : Strand → Strand) (n k : Nat) :
    OnlyStrand s ((s.modMe f).count s.cur.1 n k) := by
  have hcur : ((s.modMe f).count s.cur.1 n k).cur = s.cur := by simp
  refine ⟨?_, fun l => by simp, ?_, ?_, ?_⟩
  · have h1 : ∀ (u : State) c g, { u.modCore c g with cores := u.cores } = u := fun u c g => rfl
    have h2 : { s.modMe f with cores := s.cores } = s := by
      unfold State.modMe State.modStrand
      split
      · exact h1 _ _ _
      · rfl
    calc { (s.modMe f).count s.cur.1 n k with cores := s.cores }
        = { { (s.modMe f).count s.cur.1 n k with cores := (s.modMe f).cores } with cores := s.cores } := rfl
      _ = { s.modMe f with cores := s.cores } := by rw [State.count, h1]
      _ = s := h2
  · intro c hc
    rw [State.count_core_ne _ _ _ hc, State.core_modMe_ne s f hc]
  · have hm := State.myCore_count (s.modMe f) n k
    rw [State.modMe_cur] at hm
    obtain ⟨l, hl⟩ := s.myCore_modMe f
    rw [hm, hl]
    split <;> rfl
  · intro m hm
    rw [State.strand?_count, State.strand?_modMe_ne s f hm]

theorem vget_vset_any {α : Type} {n : Nat} (d : α) (v : Vector α n) (i j : Nat) (a : α) (hj : j < n) :
    vget d (vset v i a) j = if j = i then a else vget d v j := by
  split
  · subst_vars; exact vget_vset_same d v _ a hj
  · exact vget_vset_ne d v a ‹_›

theorem Strand.kept_wrote (p : Strand) (maj fn : Nat) (o : Ops) (d : Dst) (v : Word) :
    StrandKept p ((p.entered maj fn o).wrote d v) := by
  have hck : p.ckptDue = true ∨ p.ckptDue = false := by cases p.ckptDue <;> simp
  refine ⟨?_, ?_, ?_, ?_, ?_⟩
  · unfold Strand.wrote Strand.entered
    cases d <;> dsimp only <;> split <;> rfl
  · intro e he
    have h2 : (p.entered maj fn o).board = p.board := by unfold Strand.entered; dsimp only; split <;> rfl
    cases d <;> simp_all [Strand.wrote, Strand.retire, Strand.retireTo, Strand.setG, tdel]
  all_goals
    obtain h | h := hck <;> cases d <;>
      simp [Strand.wrote, Strand.entered, Strand.retire, Strand.retireTo, Strand.setG, Strand.checkpoint, h,
        Strand.snapshot]

/-- An instruction that writes a value of the state to its g destination and retires. -/
theorem State.instr_putD {s : State} (hc : s.Calm) (maj fn : Nat) {o : Ops} (ho : o.regsExist s.me.nreg = true)
    (f : State → Word) :
    ScalarDone s (s.instr maj fn o fun u => u.putD o (f u)) o o.d (f (s.modMe fun p => p.entered maj fn o)) := by
  rw [State.instr_ok hc.runs maj fn ho]
  have hr := State.runs_modMe hc.runs fun p => p.entered maj fn o
  have hq := hc.quiet.modMe hc.runs (f := fun p => p.entered maj fn o) (by simp)
  generalize hv : f (s.modMe fun p => p.entered maj fn o) = v
  rw [State.putD_quiet hr hq, State.modMe_modMe, State.modMe_cur]
  have hme : ((s.modMe fun p => (p.entered maj fn o).wrote o.d v).count s.cur.1 2 1).me =
      (s.me.entered maj fn o).wrote o.d v := by
    rw [State.me_count, State.me_modMe hc.runs]
  have hck : s.me.ckptDue = true ∨ s.me.ckptDue = false := by cases s.me.ckptDue <;> simp
  refine ⟨?_, ?_, ?_, State.onlyStrand_modMe_count _ _ _ _, ?_⟩
  · intro n hn
    rw [hme]
    unfold Strand.getG
    rw [Strand.wrote_g]
    cases hd : o.d <;> simp only [Strand.entered_g]
    rw [vget_vset_any _ _ _ _ _ hn]
    simp only [eq_comm]
  · rw [hme]
    refine ⟨?_, by simp, ?_⟩
    · rw [Strand.wrote_pc, Strand.entered_pc, Strand.entered_word, lenCode_bytes]
    · obtain h | h := hck <;> cases hd : o.d <;>
        simp [Strand.wrote, Strand.entered, Strand.retire, Strand.retireTo, Strand.setG, Strand.checkpoint, h]
  · rw [hme]; exact Strand.kept_wrote _ _ _ _ _ _
  · intro n hn
    have hm := State.myCore_count (s.modMe fun p => (p.entered maj fn o).wrote o.d v) 2 1
    obtain ⟨l, hl⟩ := s.myCore_modMe fun p => (p.entered maj fn o).wrote o.d v
    rw [State.modMe_cur] at hm
    rw [hm, hl]
    have hcnt : ({ s.myCore with slots := l } : Core).counting = s.myCore.counting := rfl
    rw [hcnt]
    by_cases h : s.myCore.counting
    · simp only [h, if_true]
      rw [vget_vset_any _ _ _ _ _ hn]
      by_cases h2 : n = 2
      · subst h2; rfl
      · have : ((2, 1).1 == n) = false := by simpa using fun h => h2 h.symm
        simp [h2, List.filter, this, toWord]
    · simp [h]

end Sys2Proof.Machine
end

