-- ==== Sys2Proof/Tests/Slice0.lean ====
section
/-! SUPPORT. Tests: words assembled by hand from the encoding tables of the manual, ill-formed terms that are refused, steps on
small states, and a state that meets the hypotheses of each statement. -/

namespace Sys2Proof.Tests

open Sys2Proof.Machine

set_option Elab.async false

/-! ### Words (01 Tables 01.2 to 01.7; the X tables of 05, 06, 08, 09, 10, 11, 16, 23) -/

/-- Operands in the order of 01 Table 01.2. -/
def ops (len : Len) (m : BitVec 3) (d : Dst) (a b c : Src) : Ops := { len := len, m := m, d := d, a := a, b := b, c := c }

/-- Whether words decode to the instructions beside them: bits of the word, the word, the instruction. -/
def decodes (l : List (Nat × Nat × Instr)) : Bool := l.all fun e => decodeTableWord e.1 e.2.1 == some e.2.2

theorem test_decode_ialu : decodes [
    (64, 0x0000C0C501000004, .add false (ops .w64 0 (.g 0) (.g 1) (.l6 5) .none)),
    (64, 0x0008C08902010404, .sub true (ops .w64 0 (.g 1) (.g 2) (.k 9) .none)),
    (64, 0x0000C0FD03020804, .and false (ops .w64 0 (.g 2) (.g 3) (.l6 61) .none)),
    (64, 0x0008C00F04030C04, .or true (ops .w64 0 (.g 3) (.g 4) (.g 15) .none)),
    (64, 0x0000C0C505041004, .xor false (ops .w64 0 (.g 4) (.g 5) (.l6 5) .none)),
    (64, 0x0008C08906051404, .andn true (ops .w64 0 (.g 5) (.g 6) (.k 9) .none)),
    (64, 0x0000C0FD07061804, .shl false (ops .w64 0 (.g 6) (.g 7) (.l6 61) .none)),
    (64, 0x0008C00F08071C04, .shr true (ops .w64 0 (.g 7) (.g 8) (.g 15) .none)),
    (64, 0x0000C0C509082004, .sar false (ops .w64 0 (.g 8) (.g 9) (.l6 5) .none)),
    (64, 0x0008C0890A092404, .rol true (ops .w64 0 (.g 9) (.g 10) (.k 9) .none)),
    (64, 0x0000C0FD0B0A2804, .min false (ops .w64 0 (.g 10) (.g 11) (.l6 61) .none)),
    (64, 0x0008C00F0C0B2C04, .max true (ops .w64 0 (.g 11) (.g 12) (.g 15) .none)),
    (64, 0x0000C0C50D0C3004, .minu false (ops .w64 0 (.g 12) (.g 13) (.l6 5) .none)),
    (64, 0x0008C0890E0D3404, .maxu true (ops .w64 0 (.g 13) (.g 14) (.k 9) .none)),
    (128, 0x123456789ABCDEF00000C002C0030006, .add false (ops .w128 0 (.g 3) (.l64 0x123456789ABCDEF0) (.g 2) .none))] = true := by decide +kernel

theorem test_decode_imul : decodes [
    (64, 0x0008C00780020008, .mul true (ops .w64 0 (.g 2) (.k 0) (.g 7) .none)),
    (96, 0xFFFEEE900000C0C081030409, .mulh false (ops .w96 0 (.g 3) (.k 1) (.l32 0xFFFEEE90) .none)),
    (64, 0x0008C00782040808, .mulhu true (ops .w64 0 (.g 4) (.k 2) (.g 7) .none)),
    (96, 0xFFFEEE900000C0C083050C09, .div false (ops .w96 0 (.g 5) (.k 3) (.l32 0xFFFEEE90) .none)),
    (64, 0x0008C00784061008, .divu true (ops .w64 0 (.g 6) (.k 4) (.g 7) .none)),
    (96, 0xFFFEEE900000C0C085071409, .rem false (ops .w96 0 (.g 7) (.k 5) (.l32 0xFFFEEE90) .none)),
    (64, 0x0008C00786081808, .remu true (ops .w64 0 (.g 8) (.k 6) (.g 7) .none))] = true := by decide +kernel

theorem test_decode_ibit : decodes [
    (64, 0x0000C0C00900000C, .clz (ops .w64 0 (.g 0) (.g 9) .none .none)),
    (64, 0x0000C0C08301040C, .ctz (ops .w64 0 (.g 1) (.k 3) .none .none)),
    (64, 0x0000C0C0C702080C, .popc (ops .w64 0 (.g 2) (.l6 7) .none .none)),
    (64, 0x0000C0C009030C0C, .brev (ops .w64 0 (.g 3) (.g 9) .none .none)),
    (64, 0x0000C0C08304100C, .bswap (ops .w64 0 (.g 4) (.k 3) .none .none)),
    (64, 0x0000C0DF0605140C, .sext (ops .w64 0 (.g 5) (.g 6) (.l6 31) .none)),
    (64, 0x0000D0C80605180C, .extb (ops .w64 0 (.g 5) (.g 6) (.l6 8) (.l6 16))),
    (64, 0x0000018806051C0C, .insb (ops .w64 0 (.g 5) (.g 6) (.k 8) (.g 1)))] = true := by decide +kernel

theorem test_decode_move : decodes [
    (64, 0x0000C0C001000010, .cmpEq (ops .w64 0 (.g 0) (.g 1) (.l6 0) .none)),
    (64, 0x0000C0C101010410, .cmpNe (ops .w64 0 (.g 1) (.g 1) (.l6 1) .none)),
    (64, 0x0000C0C201020810, .cmpLt (ops .w64 0 (.g 2) (.g 1) (.l6 2) .none)),
    (64, 0x0000C0C301030C10, .cmpGe (ops .w64 0 (.g 3) (.g 1) (.l6 3) .none)),
    (64, 0x0000C0C401041010, .cmpLtu (ops .w64 0 (.g 4) (.g 1) (.l6 4) .none)),
    (64, 0x0000C0C501051410, .cmpGeu (ops .w64 0 (.g 5) (.g 1) (.l6 5) .none)),
    (64, 0x0000C10302010014, .sel (ops .w64 0 (.g 1) (.g 2) (.g 3) (.l6 1))),
    (64, 0x0000C0C0BF010018, .mov (ops .w64 0 (.g 1) (.k 63) .none .none)),
    (128, 0xFEDCBA98765432100000C0C0C001041A, .movi (ops .w128 0 (.g 1) (.l64 0xFEDCBA9876543210) .none .none)),
    (96, 0x89ABCDEF0008C0C0C0010419, .moviH (ops .w96 0 (.g 1) (.l32 0x89ABCDEF) .none .none)),
    (64, 0x0FF806C005040818, .lea ⟨3, -1⟩ (ops .w64 0 (.g 4) (.g 5) .none (.g 6))),
    (96, 0xFFFFFFF80000C0C0C0020C19, .addpc (ops .w96 0 (.g 2) (.l32 0xFFFFFFF8) .none .none))] = true := by decide +kernel

theorem test_decode_flow_1 : decodes [
    (64, 0x0028C0C300C00080, .bccEq 5 (ops .w64 0 .none (.g 0) (.l6 3) .none)),
    (64, 0xFFF8C0C301C00480, .bccNe (-1) (ops .w64 0 .none (.g 1) (.l6 3) .none)),
    (64, 0x0028C0C302C00880, .bccLt 5 (ops .w64 0 .none (.g 2) (.l6 3) .none)),
    (64, 0xFFF8C0C303C00C80, .bccGe (-1) (ops .w64 0 .none (.g 3) (.l6 3) .none)),
    (64, 0x0028C0C304C01080, .bccLtu 5 (ops .w64 0 .none (.g 4) (.l6 3) .none)),
    (64, 0xFFF8C0C305C01480, .bccGeu (-1) (ops .w64 0 .none (.g 5) (.l6 3) .none)),
    (96, 0x000100000000C0C003C01881, .bccZ 0x10000 (ops .w96 0 .none (.g 3) .none .none)),
    (64, 0x0010C0C003C01C80, .bccNz 2 (ops .w64 0 .none (.g 3) .none .none)),
    (64, 0xFFF0C0C0C0C00084, .jmp (-2) (ops .w64 0 .none .none .none .none)),
    (64, 0x0000C0C082C00484, .jmpi (ops .w64 0 .none (.k 2) .none .none)),
    (64, 0x7FF8C0C0C00E0884, .call 4095 (ops .w64 0 (.g 14) .none .none .none)),
    (64, 0x0000C0C0030E0C84, .calli (ops .w64 0 (.g 14) (.g 3) .none .none)),
    (64, 0x0000C0C00EC01084, .ret (ops .w64 0 .none (.g 14) .none .none)),
    (64, 0xFFE0C0C0C0070088, .loop (-4) (ops .w64 0 (.g 7) .none .none .none)),
    (128, 0x00000009000000200000C0C001C0008E, .jtab 0x20 9 (ops .w128 0 .none (.g 1) .none .none)),
    (64, 0x0408C0C0C0C00090, .trap 0x81 (ops .w64 0 .none .none .none .none))] = true := by decide +kernel

theorem test_decode_flow_2 : decodes [
    (64, 0x0038C0C0C0C00490, .brk 7 (ops .w64 0 .none .none .none .none)),
    (64, 0x55E0C0C0C0C00890, .svc 0xABC (ops .w64 0 .none .none .none .none)),
    (64, 0x0000C0C0C0C00C90, .nop (ops .w64 0 .none .none .none .none)),
    (64, 0x0000C0C0C0C01090, .pause (ops .w64 0 .none .none .none .none)),
    (64, 0x0000C0C0C0C01490, .yield (ops .w64 0 .none .none .none .none)),
    (64, 0x0000C0FF02C01890, .sresume (ops .w64 0 .none (.g 2) (.l6 63) .none)),
    (64, 0x0000C0C0C0C01C90, .skill (ops .w64 0 .none .none .none .none)),
    (64, 0x0080C0C0C3010094, .rdsys 0x010 (ops .w64 0 (.g 1) (.l6 3) .none .none)),
    (64, 0x0040C0C2C0C00098, .wrsys 0x008 (ops .w64 0 .none .none (.l6 2) .none)),
    (64, 0x0000C0C0C001009C, .rdtime (ops .w64 0 (.g 1) .none .none .none)),
    (64, 0x0008C0C0C001009C, .rdtimeCc (ops .w64 0 (.g 1) .none .none .none))] = true := by decide +kernel

theorem test_decode_memory_1 : decodes [
    (64, 0x69F803C0020100C0, .ld .h true ⟨2, 63⟩ (ops .w64 0 (.g 1) (.g 2) .none (.g 3))),
    (64, 0xD040C0C0020100C0, .ldAcq .d false ⟨0, 8⟩ (ops .w64 0 (.g 1) (.g 2) .none (.l6 0))),
    (64, 0x078081C0020400C4, .ldq ⟨1, -16⟩ (ops .w64 0 (.g 4) (.g 2) .none (.k 1))),
    (64, 0x0200C0FF02C000C8, .st .b ⟨0, -64⟩ (ops .w64 0 .none (.g 2) (.l6 63) (.l6 0))),
    (96, 0x000010009000C00302C000C9, .stRel .w ⟨0, 0x1000⟩ (ops .w96 0 .none (.g 2) (.g 3) (.l6 0))),
    (64, 0x0C00010602C000CC, .stq ⟨3, 0⟩ (ops .w64 0 .none (.g 2) (.g 6) (.g 1))),
    (64, 0x0000C0C0C0C000D0, .rcommit (ops .w64 0 .none .none .none .none)),
    (64, 0x8100C081090000D4, .aadd false ⟨.core, .rlx, -32⟩ (ops .w64 0 (.g 0) (.g 9) (.k 1) .none)),
    (64, 0xCAF8C081090104D4, .aand true ⟨.clu, .acq, 31⟩ (ops .w64 0 (.g 1) (.g 9) (.k 1) .none)),
    (64, 0x9500C081090208D4, .aor false ⟨.chip, .rel, -32⟩ (ops .w64 0 (.g 2) (.g 9) (.k 1) .none)),
    (64, 0xDEF8C08109030CD4, .axor true ⟨.pkg, .ar, 31⟩ (ops .w64 0 (.g 3) (.g 9) (.k 1) .none)),
    (64, 0xA100C081090410D4, .amin false ⟨.sys, .rlx, -32⟩ (ops .w64 0 (.g 4) (.g 9) (.k 1) .none)),
    (64, 0xC2F8C081090514D4, .amax true ⟨.core, .acq, 31⟩ (ops .w64 0 (.g 5) (.g 9) (.k 1) .none)),
    (64, 0x8D00C081090618D4, .aminu false ⟨.clu, .rel, -32⟩ (ops .w64 0 (.g 6) (.g 9) (.k 1) .none)),
    (64, 0xD6F8C08109071CD4, .amaxu true ⟨.chip, .ar, 31⟩ (ops .w64 0 (.g 7) (.g 9) (.k 1) .none)),
    (64, 0x9900C081090820D4, .aswap false ⟨.pkg, .rlx, -32⟩ (ops .w64 0 (.g 8) (.g 9) (.k 1) .none))] = true := by decide +kernel

theorem test_decode_memory_2 : decodes [
    (64, 0x9020C00109C024D4, .afadd false ⟨.chip, .rlx, 4⟩ (ops .w64 0 .none (.g 9) (.g 1) .none)),
    (64, 0xCA40FF03020100D8, .acas true ⟨.clu, .acq, 8⟩ (ops .w64 0 (.g 1) (.g 2) (.g 3) (.l6 63))),
    (64, 0xD6000A06080400DC, .acas2 ⟨.chip, .ar, 0⟩ (ops .w64 0 (.g 4) (.g 8) (.g 6) (.g 10)))] = true := by decide +kernel

theorem test_decode_sync : decodes [
    (64, 0x2600C0C0C0C000E0, .fence .sys .ar (ops .w64 0 .none .none .none .none)),
    (64, 0x1C88C0C0C0C000E4, .fencep .pkg .rel 0x11 (ops .w64 0 .none .none .none .none)),
    (64, 0x9260C003020100E8, .waitchg false ⟨.chip, .acq, 12⟩ (ops .w64 0 (.g 1) (.g 2) (.g 3) .none)),
    (64, 0x0000C0C5020100EC, .spawn (ops .w64 0 (.g 1) (.g 2) (.l6 5) .none)),
    (64, 0x0000C0C0C0C000F0, .exit (ops .w64 0 .none .none .none .none)),
    (64, 0x0000C0C003C000F4, .migrate (ops .w64 0 .none (.g 3) .none .none)),
    (64, 0x0008C0C0D4C000F4, .migrateC (ops .w64 0 .none (.l6 20) .none .none)),
    (64, 0x1F80C403020100F8, .rvjoin ⟨.pkg, .ar, -16⟩ (ops .w64 0 (.g 1) (.g 2) (.g 3) (.l6 4))),
    (64, 0x148084C102C004F8, .rvarrive ⟨.chip, .rel, 16⟩ (ops .w64 0 .none (.g 2) (.l6 1) (.k 4))),
    (64, 0x2200C003020108F8, .rvwait ⟨.sys, .acq, 0⟩ (ops .w64 0 (.g 1) (.g 2) (.g 3) .none))] = true := by decide +kernel

theorem test_decode_vector_1 : decodes [
    (64, 0x0000C0C0C4C00140, .vgrow (ops .w64 0 .none (.l6 4) .none .none)),
    (64, 0x0000C0C002C00540, .vshrink (ops .w64 0 .none (.g 2) .none .none)),
    (64, 0x0002C0C085430144, .vmov (ops .w64 2 (.v 3) (.k 5) .none .none)),
    (64, 0x0000C0C744430544, .vbcast (ops .w64 0 (.v 3) (.v 4) (.l6 7) .none)),
    (64, 0x0000C00144030944, .vext (ops .w64 0 (.g 3) (.v 4) (.g 1) .none)),
    (64, 0x0007C0CF04430D44, .vins (ops .w64 7 (.v 3) (.g 4) (.l6 15) .none)),
    (64, 0x0000C0C1C07F1144, .viota (ops .w64 0 (.v 63) (.l6 0) (.l6 1) .none)),
    (64, 0x0000C04241810148, .vcmp .eq (ops .w64 0 (.m 1) (.v 1) (.v 2) .none)),
    (96, 0x000003E80008C0C041820149, .vcmp .ne (ops .w96 0 (.m 2) (.v 1) (.l32 0x3E8) .none)),
    (64, 0x0010C04241830148, .vcmp .lt (ops .w64 0 (.m 3) (.v 1) (.v 2) .none)),
    (96, 0x00000BB80018C0C041840149, .vcmp .ge (ops .w96 0 (.m 4) (.v 1) (.l32 0xBB8) .none)),
    (64, 0x0020C04241850148, .vcmp .ltu (ops .w64 0 (.m 5) (.v 1) (.v 2) .none)),
    (96, 0x000013880028C0C041860149, .vcmp .geu (ops .w96 0 (.m 6) (.v 1) (.l32 0x1388) .none)),
    (64, 0x0040C04241870148, .vcmp .feq (ops .w64 0 (.m 7) (.v 1) (.v 2) .none)),
    (96, 0x00001B580048C0C041810149, .vcmp .fne (ops .w96 0 (.m 1) (.v 1) (.l32 0x1B58) .none)),
    (64, 0x0050C04241820148, .vcmp .flt (ops .w64 0 (.m 2) (.v 1) (.v 2) .none))] = true := by decide +kernel

theorem test_decode_vector_2 : decodes [
    (96, 0x000023280058C0C041830149, .vcmp .fge (ops .w96 0 (.m 3) (.v 1) (.l32 0x2328) .none)),
    (64, 0x0060C04241840148, .vcmp .fun (ops .w64 0 (.m 4) (.v 1) (.v 2) .none)),
    (64, 0x0088C0C0C0870548, .mlog .and 1 2 (ops .w64 0 (.m 7) .none .none .none)),
    (64, 0x02D0C0C0C0870548, .mlog .or 2 3 (ops .w64 0 (.m 7) .none .none .none)),
    (64, 0x0518C0C0C0870548, .mlog .xor 3 4 (ops .w64 0 (.m 7) .none .none .none)),
    (64, 0x0760C0C0C0870548, .mlog .andn 4 5 (ops .w64 0 (.m 7) .none .none .none)),
    (64, 0x0818C0C0C0810548, .mlog .not 3 0 (ops .w64 0 (.m 1) .none .none .none)),
    (64, 0x0A28C0C0C0810548, .mlog .mov 5 0 (ops .w64 0 (.m 1) .none .none .none)),
    (64, 0x0C00C0C003810548, .mlog .fromg 0 0 (ops .w64 0 (.m 1) (.g 3) .none .none)),
    (64, 0x0030C0C0C0010948, .mpop .cnt 6 (ops .w64 0 (.g 1) .none .none .none)),
    (64, 0x0070C0C0C0010948, .mpop .first 6 (ops .w64 0 (.g 1) .none .none .none)),
    (64, 0x00B0C0C0C0010948, .mpop .raw 6 (ops .w64 0 (.g 1) .none .none .none)),
    (64, 0x0000C0434241014C, .vperm (ops .w64 0 (.v 1) (.v 2) (.v 3) .none)),
    (64, 0x000803C44241054C, .vslide true (ops .w64 0 (.v 1) (.v 2) (.l6 4) (.g 3))),
    (64, 0x0000C0C049400150, .vred .add (ops .w64 0 (.v 0) (.v 9) .none .none)),
    (64, 0x0009C0C049410550, .vscan .min (ops .w64 1 (.v 1) (.v 9) .none .none))] = true := by decide +kernel

theorem test_decode_vector_3 : decodes [
    (64, 0x0012C0C049420150, .vred .max (ops .w64 2 (.v 2) (.v 9) .none .none)),
    (64, 0x001BC0C049430550, .vscan .minu (ops .w64 3 (.v 3) (.v 9) .none .none)),
    (64, 0x0024C0C049440150, .vred .maxu (ops .w64 4 (.v 4) (.v 9) .none .none)),
    (64, 0x002DC0C049450550, .vscan .and (ops .w64 5 (.v 5) (.v 9) .none .none)),
    (64, 0x0036C0C049460150, .vred .or (ops .w64 6 (.v 6) (.v 9) .none .none)),
    (64, 0x003FC0C049470550, .vscan .xor (ops .w64 7 (.v 7) (.v 9) .none .none)),
    (64, 0x0040C0C049480150, .vred .fadd (ops .w64 0 (.v 8) (.v 9) .none .none)),
    (64, 0x0049C0C049490550, .vscan .fmin (ops .w64 1 (.v 9) (.v 9) .none .none)),
    (64, 0x0052C0C0494A0150, .vred .fmax (ops .w64 2 (.v 10) (.v 9) .none .none))] = true := by decide +kernel

theorem test_decode_vialu : decodes [
    (64, 0x0000C04342410180, .vadd (ops .w64 0 (.v 1) (.v 2) (.v 3) .none)),
    (64, 0x0000C0C942410580, .vsub (ops .w64 0 (.v 1) (.v 2) (.l6 9) .none)),
    (64, 0x0000C04342410980, .vmul (ops .w64 0 (.v 1) (.v 2) (.v 3) .none)),
    (64, 0x000084C942410D80, .vmad (ops .w64 0 (.v 1) (.v 2) (.l6 9) (.k 4))),
    (64, 0x0000C04342411180, .vand (ops .w64 0 (.v 1) (.v 2) (.v 3) .none)),
    (64, 0x0000C0C942411580, .vor (ops .w64 0 (.v 1) (.v 2) (.l6 9) .none)),
    (64, 0x0000C04342411980, .vxor (ops .w64 0 (.v 1) (.v 2) (.v 3) .none)),
    (64, 0x0000C0C942411D80, .vshl (ops .w64 0 (.v 1) (.v 2) (.l6 9) .none)),
    (64, 0x0000C04342412180, .vshr (ops .w64 0 (.v 1) (.v 2) (.v 3) .none)),
    (64, 0x0000C0C942412580, .vsar (ops .w64 0 (.v 1) (.v 2) (.l6 9) .none)),
    (64, 0x0008C00342412980, .vmin true (ops .w64 0 (.v 1) (.v 2) (.g 3) .none)),
    (64, 0x0000C00342412D80, .vmax false (ops .w64 0 (.v 1) (.v 2) (.g 3) .none))] = true := by decide +kernel

theorem test_decode_vfalu : decodes [
    (64, 0x0218C04342410184, .fadd ⟨true, true, false, false, false, false⟩ .rtz (ops .w64 0 (.v 1) (.v 2) (.v 3) .none)),
    (64, 0x0420C04342410584, .fsub ⟨false, false, true, false, false, false⟩ .rdn (ops .w64 0 (.v 1) (.v 2) (.v 3) .none)),
    (96, 0x3F8000000640C0C042410985, .fmul ⟨false, false, false, true, false, false⟩ .rup (ops .w96 0 (.v 1) (.v 2) (.l32 0x3F800000) .none)),
    (64, 0x0980444342410D84, .ffma ⟨false, false, false, false, true, true⟩ .sr (ops .w64 0 (.v 1) (.v 2) (.v 3) (.v 4))),
    (64, 0x0E10C04342411184, .fmin ⟨false, true, false, false, false, false⟩ (ops .w64 0 (.v 1) (.v 2) (.v 3) .none)),
    (64, 0x0E60C04342411584, .fmax ⟨false, false, true, true, false, false⟩ (ops .w64 0 (.v 1) (.v 2) (.v 3) .none))] = true := by decide +kernel

theorem test_decode_convert : decodes [
    (64, 0x0E00C0C042410188, .frcp (ops .w64 0 (.v 1) (.v 2) .none .none)),
    (64, 0x0E00C0C042410588, .frsq (ops .w64 0 (.v 1) (.v 2) .none .none)),
    (64, 0x0E00C04342410988, .frcpn (ops .w64 0 (.v 1) (.v 2) (.v 3) .none)),
    (64, 0x0E00C04342410D88, .frsqn (ops .w64 0 (.v 1) (.v 2) (.v 3) .none)),
    (64, 0x0000C0C042411188, .fexp2 .rne (ops .w64 0 (.v 1) (.v 2) .none .none)),
    (64, 0x0E00C0C042411588, .flog2 .dyn (ops .w64 0 (.v 1) (.v 2) .none .none)),
    (64, 0x0800C0C042411988, .ftanh .sr (ops .w64 0 (.v 1) (.v 2) .none .none)),
    (64, 0x1058C0C04245018C, .fcvt .f32 .e4m3 .rne 2 true true (ops .w64 0 (.v 5) (.v 2) .none .none)),
    (64, 0x14E0C0C04245058C, .icvt .f32 .i8 .rtz 3 (ops .w64 0 (.v 5) (.v 2) .none .none)),
    (64, 0x0030C0434245098C, .c4enc 6 (ops .w64 0 (.v 5) (.v 2) (.v 3) .none)),
    (64, 0x2F80C0C042450D8C, .bscaleDerive .e5m2 (ops .w64 0 (.v 5) (.v 2) .none .none)),
    (64, 0x0380C04342450D8C, .bscaleApply .dyn (ops .w64 0 (.v 5) (.v 2) (.v 3) .none)),
    (64, 0x0000C0C0C0490190, .amaxrd (ops .w64 0 (.v 9) .none .none .none)),
    (64, 0x0000C0C0C0C00590, .amaxclr (ops .w64 0 .none .none .none .none))] = true := by decide +kernel

theorem test_decode_vmem : decodes [
    (64, 0x83E005C002410200, .vld ⟨0, -4⟩ (ops .w64 0 (.v 1) (.g 2) .none (.g 5))),
    (64, 0x85E1054302C00600, .vst ⟨1, 60⟩ (ops .w64 1 .none (.g 2) (.v 3) (.g 5))),
    (64, 0x880244C002410A00, .vgath ⟨2, 0⟩ (ops .w64 2 (.v 1) (.g 2) .none (.v 4))),
    (64, 0x8C43444302C00E00, .vscat ⟨3, 8⟩ (ops .w64 3 .none (.g 2) (.v 3) (.v 4))),
    (64, 0x000083C102470204, .sbind (ops .w64 0 (.v 7) (.g 2) (.l6 1) (.k 3))),
    (64, 0x0000C0C0C0470604, .sunbind (ops .w64 0 (.v 7) .none .none .none)),
    (64, 0x1748C8C401C00208, .cbinit 9 2 3 1 (ops .w64 0 .none (.g 1) (.l6 4) (.l6 8))),
    (64, 0x0058C0C0C0010608, .cbwaitf 11 (ops .w64 0 (.g 1) .none .none .none)),
    (64, 0x0060C0C0C0010A08, .cbwaite 12 (ops .w64 0 (.g 1) .none .none .none)),
    (64, 0x0068C0C0C0C00E08, .cbpop 13 (ops .w64 0 .none .none .none .none)),
    (64, 0x0070C0C002C01208, .cbpush 14 (ops .w64 0 .none (.g 2) .none .none)),
    (64, 0x0078C0C0C0011608, .cbstat 15 (ops .w64 0 (.g 1) .none .none .none))] = true := by decide +kernel

theorem test_decode_matrix : decodes [
    (128, 0x0000000000000000D00003C002010242, .mwload .c4 true (ops .w128 0 (.g 1) (.g 2) (.l6 0) (.g 3))),
    (64, 0x0000C0D002010244, .mcbook (ops .w64 0 (.g 1) (.g 2) (.l6 16) .none)),
    (128, 0x000007090000C100D160C3C0C001024A, .mstream ⟨true, true, false, .int8, 5, 2, 96, 256, 7, 9⟩ (ops .w128 0 (.g 1) .none .none (.l6 3))),
    (128, 0x0000010200000040306003810201024E, .mdrain ⟨false, false, true, .bf16, 0, 3, 64, 1, 2⟩ (ops .w128 0 (.g 1) (.g 2) (.k 1) (.g 3))),
    (64, 0x0030C0C0C0C00250, .mclr true 2 (ops .w64 0 .none .none .none .none)),
    (64, 0x0000C0C0C0010254, .mswap (ops .w64 0 (.g 1) .none .none .none)),
    (64, 0x0008C0C0C0010258, .mwait true (ops .w64 0 (.g 1) .none .none .none)),
    (64, 0x0000C0C002010258, .mwait false (ops .w64 0 (.g 1) (.g 2) .none .none))] = true := by decide +kernel

theorem test_decode_cluster : decodes [
    (64, 0x0030C0C0CF030280, .gang 2 true (ops .w64 0 (.g 3) (.l6 15) .none .none)),
    (64, 0x0048C0C0C4010284, .clbarArrive 9 (ops .w64 0 (.g 1) (.l6 4) .none .none)),
    (64, 0x0050C0C002C00684, .clbarWait 10 (ops .w64 0 .none (.g 2) .none .none)),
    (64, 0x00188201C0C00288, .chset 3 (ops .w64 0 .none (.l6 0) (.g 1) (.k 2))),
    (64, 0x0008C0C0C0040688, .chunk 1 (ops .w64 0 (.g 4) .none .none .none)),
    (64, 0x0028C0C0C001028C, .geom 5 (ops .w64 0 (.g 1) .none .none .none)),
    (64, 0x000004030201068C, .part 0 false (ops .w64 0 (.g 1) (.g 2) (.g 3) (.g 4))),
    (64, 0x0060C0C08283068C, .part 4 true (ops .w64 0 (.m 3) (.k 2) .none .none)),
    (64, 0x0020C0C702010290, .tlbinvPage true (ops .w64 0 (.g 1) (.g 2) (.l6 7) .none)),
    (64, 0x0008C002C0C00290, .tlbinvAsid false (ops .w64 0 .none .none (.g 2) .none)),
    (64, 0x0030C0C0C0C00290, .tlbinvGlob true (ops .w64 0 .none .none .none .none)),
    (64, 0x0018C0C0C0C00290, .tlbinvAll false (ops .w64 0 .none .none .none .none))] = true := by decide +kernel

theorem test_decode_engine : decodes [
    (128, 0x000000400000010080000605040902C2, .acopy ⟨2, false, false, 0x100, 0x40⟩ (ops .w128 0 (.g 9) (.g 4) (.g 5) (.g 6))),
    (128, 0x0000000000000000340083F8020102C6, .acopycbFill 6 true false (ops .w128 0 (.g 1) (.g 2) (.l6 56) (.k 3))),
    (128, 0x0000000000000000BA0003C002C002C6, .acopycbDrain 7 false true (ops .w128 0 .none (.g 2) (.l6 0) (.g 3))),
    (64, 0x0018C0C0020102C8, .await 3 false (ops .w64 0 (.g 1) (.g 2) .none .none)),
    (64, 0x0040C0C0C0C002C8, .await 0 true (ops .w64 0 .none .none .none .none)),
    (64, 0x00A8C0C0C00102CC, .aseq 5 .own (ops .w64 0 (.g 1) .none .none .none)),
    (128, 0x0000004012345678AC000483020102D2, .hgemv ⟨.e5m2, true, false, 96, 0x1234, 0x5678, 0x40⟩ (ops .w128 0 (.g 1) (.g 2) (.k 3) (.g 4))),
    (64, 0x0000C0C0020102D4, .pagereqNext (ops .w64 0 (.g 1) (.g 2) .none .none)),
    (64, 0x0008C903C0C002D4, .pagereqReply (ops .w64 0 .none .none (.g 3) (.l6 9)))] = true := by decide +kernel

theorem test_decode_message : decodes [
    (64, 0x0750C08302010300, .amsend ⟨true, 6, 10⟩ (ops .w64 0 (.g 1) (.g 2) (.k 3) .none)),
    (96, 0x000000460400C005C0010305, .amsendc ⟨true, 0, 0⟩ (ops .w96 0 (.g 1) (.l32 0x46) (.g 5) .none))] = true := by decide +kernel

theorem test_decode_fabric : decodes [
    (128, 0x00000000000010001000060504090342, .rmapostWrite true false 0x1000 (ops .w128 0 (.g 9) (.g 4) (.g 5) (.g 6))),
    (128, 0x0000000000000008280086C004C00342, .rmapostRead false true 8 (ops .w128 0 .none (.g 4) (.l6 0) (.k 6))),
    (128, 0x00000000000000005800060504010342, .rmapostFadd true true (ops .w128 0 (.g 1) (.g 4) (.g 5) (.g 6))),
    (128, 0x00000000000000006800060504090342, .rmapostCas false true (ops .w128 0 (.g 9) (.g 4) (.g 5) (.g 6))),
    (64, 0x0000C0C009020344, .rmapoll (ops .w64 0 (.g 2) (.g 9) .none .none))] = true := by decide +kernel

/-! ### Terms that the checks refuse (01 R24 to R37; 02 R47, R50; and the X tables) -/

/-- Whether every term of a list is refused. -/
def refused (l : List Instr) : Bool := l.all fun i => !i.wellFormed

/-- Length (01 R31), mask selector (01 R27), the kind of each slot (01 R24 to R26), and an event, which has no word. -/
theorem test_refused_operands : refused [
    .mov (ops .w96 0 (.g 1) (.l32 5) .none .none),
    .add false (ops .w64 1 (.g 1) (.g 2) (.g 3) .none),
    .add false (ops .w64 0 .none (.g 2) (.g 3) .none),
    .add false (ops .w64 0 (.g 1) (.v 2) (.g 3) .none),
    .vperm (ops .w64 0 (.v 1) (.v 2) (.g 3) .none),
    .add false (ops .w64 0 (.g 1) (.g 2) (.g 3) (.g 4)),
    .kick 0] = true := by decide +kernel

/-- Pairs begin at an even register (02 R50, 06 R150). -/
theorem test_refused_pairs : refused [
    .ldq ⟨0, 0⟩ (ops .w64 0 (.g 3) (.g 2) .none (.l6 0)),
    .stq ⟨0, 0⟩ (ops .w64 0 .none (.g 2) (.g 5) (.l6 0)),
    .acas2 ⟨.chip, .rlx, 0⟩ (ops .w64 0 (.g 4) (.g 8) (.g 6) (.g 7))] = true := by decide +kernel

/-- Literals against the length: 6 bits, one word, two words, L1:L0 where the family takes none (01 R29, R30, R35). -/
theorem test_refused_literals : refused [
    .add false (ops .w64 0 (.g 1) (.g 2) (.l32 9) .none),
    .add false (ops .w96 0 (.g 1) (.g 2) (.l6 9) .none),
    .add false (ops .w96 0 (.g 1) (.l32 1) (.l32 9) .none),
    .add false (ops .w128 0 (.g 1) (.g 2) (.l32 9) .none),
    .fadd ⟨false, false, false, false, false, false⟩ .rne (ops .w128 0 (.v 1) (.v 2) (.l64 9) .none),
    .st .b ⟨0, 0⟩ (ops .w96 0 .none (.g 2) (.l32 9) (.l6 0))] = true := by decide +kernel

/-- Offsets outside their field in the 64-bit form (01 R33, R34, R36). -/
theorem test_refused_offsets : refused [
    .ld .d false ⟨0, 64⟩ (ops .w64 0 (.g 1) (.g 2) .none (.l6 0)),
    .aadd true ⟨.chip, .rlx, 32⟩ (ops .w64 0 (.g 1) (.g 2) (.g 3) .none),
    .jmp 4096 (ops .w64 0 .none .none .none .none)] = true := by decide +kernel

/-- System registers: unlisted, read-only, an index out of range, an index where none is taken (02 R47). -/
theorem test_refused_registers : refused [
    .rdsys 0x00F (ops .w64 0 (.g 1) .none .none .none),
    .wrsys 0x000 (ops .w64 0 .none .none (.g 1) .none),
    .rdsys 0x010 (ops .w64 0 (.g 1) (.l6 8) .none .none),
    .rdsys 0x000 (ops .w64 0 (.g 1) (.l6 0) .none .none)] = true := by decide +kernel

/-- Fields of synchronising, mask and conversion instructions (06 R158 to R164; 08 R212, R217, R221, R223, R233). -/
theorem test_refused_fields : refused [
    .afadd true ⟨.chip, .rlx, 0⟩ (ops .w64 0 (.g 1) (.g 2) (.g 3) .none),
    .fencep .pkg .rlx 3 (ops .w64 0 .none .none .none .none),
    .fencep .pkg .rel 4 (ops .w64 0 .none .none .none .none),
    .waitchg true ⟨.chip, .rel, 0⟩ (ops .w64 0 (.g 1) (.g 2) (.g 3) .none),
    .mlog .not 1 2 (ops .w64 0 (.m 1) .none .none .none),
    .mlog .fromg 1 0 (ops .w64 0 (.m 1) (.g 1) .none .none),
    .fadd ⟨false, false, false, false, true, false⟩ .rne (ops .w64 0 (.v 1) (.v 2) (.v 3) .none),
    .fcvt .f16 .bf16 .rne 0 false false (ops .w64 0 (.v 1) (.v 2) .none .none),
    .fcvt .f32 .f16 .rne 2 false false (ops .w64 0 (.v 1) (.v 2) .none .none),
    .fcvt .f16 .f32 .rne 0 false false (ops .w64 0 (.v 1) (.v 2) .none .none),
    .fcvt .f16 .f32 .dyn 0 true false (ops .w64 0 (.v 1) (.v 2) .none .none),
    .icvt .f32 .f16 .rne 0 (ops .w64 0 (.v 1) (.v 2) .none .none),
    .icvt .u8 .f32 .rne 0 (ops .w64 0 (.v 1) (.v 2) .none .none),
    .bscaleDerive .f32 (ops .w64 0 (.v 1) (.v 2) .none .none),
    .cbinit 0 3 0 0 (ops .w64 0 .none (.g 1) (.g 2) (.g 3)),
    .cbinit 0 0 4 0 (ops .w64 0 .none (.g 1) (.g 2) (.g 3)),
    .cbinit 0 0 0 3 (ops .w64 0 .none (.g 1) (.g 2) (.g 3))] = true := by decide +kernel

/-- Fields of matrix, cluster, engine, message and fabric instructions (09 Table 09.5, 10 Table 10.1, 11 Table 11.3, R299, 16 R363,
23 R461). -/
theorem test_refused_engines : refused [
    .mstream ⟨false, false, false, .c4, 0, 0, 1, 1, 0, 0⟩ (ops .w128 0 .none (.g 1) (.l6 0) (.g 3)),
    .mstream ⟨false, false, false, .bf16, 1, 0, 1, 1, 0, 0⟩ (ops .w128 0 .none (.g 1) (.l6 0) (.g 3)),
    .mstream ⟨false, false, false, .bf16, 0, 0, 97, 1, 0, 0⟩ (ops .w128 0 .none (.g 1) (.l6 0) (.g 3)),
    .mstream ⟨false, false, false, .bf16, 0, 0, 96, 257, 0, 0⟩ (ops .w128 0 .none (.g 1) (.l6 0) (.g 3)),
    .mdrain ⟨false, false, true, .f32, 0, 0, 1, 0, 0⟩ (ops .w128 0 .none (.g 1) (.l6 0) (.g 3)),
    .geom 6 (ops .w64 0 (.g 1) .none .none .none),
    .part 7 false (ops .w64 0 (.g 1) (.g 2) .none .none),
    .acopy ⟨0, false, false, 0, 0⟩ (ops .w128 0 .none (.g 1) (.g 2) (.g 3)),
    .acopy ⟨1, false, false, 4, 0⟩ (ops .w128 0 .none (.g 1) (.g 2) (.g 3)),
    .hgemv ⟨.bf16, false, false, 0, 1, 1, 0⟩ (ops .w128 0 .none (.g 1) (.g 2) (.g 3)),
    .hgemv ⟨.bf16, false, false, 97, 1, 1, 0⟩ (ops .w128 0 .none (.g 1) (.g 2) (.g 3)),
    .hgemv ⟨.bf16, false, false, 1, 1, 1, 32⟩ (ops .w128 0 .none (.g 1) (.g 2) (.g 3)),
    .amsend ⟨false, 7, 0⟩ (ops .w64 0 .none (.g 1) (.g 2) .none),
    .amsend ⟨false, 0, 1⟩ (ops .w64 0 .none (.g 1) (.g 2) .none),
    .amsendc ⟨false, 6, 11⟩ (ops .w64 0 .none (.g 1) (.g 2) .none),
    .rmapostWrite false false 0x1000001 (ops .w128 0 .none (.g 1) (.g 2) (.g 3))] = true := by decide +kernel

/-- Words that no instruction has: an unassigned MAJ, LEN 11, an unused slot not encoded as unused. -/
theorem test_refused_words :
    decodeTableWord 64 0x000000000000FFFC = none ∧ decodeTableWord 64 0x0000C0C501030007 = none ∧
      decodeTableWord 64 0x000000C501030004 = none := by decide +kernel

/-! ### Small states

One strand of context 1 in slot 0 of core 16, the first core of the chiplet of stack 0. -/

/-- A strand whose instruction issues, with an allotment of one row of eight registers. -/
def strand : Strand :=
  { Strand.blank with asid := 1, sid := 5, st := .issuing, rows := [0], g := vset (vset Strand.blank.g 1 64) 2 3 }

/-- Its core. -/
def core (p : Strand) : Core := { Core.blank with cfg := coreCfg 1 false 0, slots := [(0, p)], lcore := 0 }

/-- A state with a strand and nothing else. -/
def one (p : Strand) : State :=
  { State.reset with cores := [(16, core p)], ctxs := [(1, { Ctx.blank with part := 0 })], cur := (16, 0) }

/-- Three g operands. -/
def ggg : Ops := ops .w64 0 (.g 3) (.g 1) (.g 2) .none

/-- No operand. -/
def bare : Ops := ops .w64 0 .none .none .none .none

theorem calm_of (s : State) (h : s.Runs) (w : ∀ i, i < 4 → wfld (vget { ctl := 0, val := 0, hit := 0 } s.myCore.wp i).ctl 62 2 ≠ 3)
    (p : s.me.stepping = false) : s.Calm := ⟨h, ⟨w, p⟩⟩

/-- A table's content satisfies what its default and every listed record do. -/
theorem tget_all {α : Type} {P : α → Prop} (d : α) (hd : P d) : ∀ t : Tbl α, (∀ e ∈ t, P e.2) → ∀ n, P (tget d t n)
  | [], _, _ => hd
  | (k, v) :: t, h, n => by
    unfold tget tfind
    split
    · exact h (k, v) (by simp)
    · exact tget_all d hd t (fun e he => h e (by simp [he])) n

theorem unwatched_of (s : State)
    (h : ∀ e ∈ s.cores, ∀ i, i < 4 → wfld (vget { ctl := 0, val := 0, hit := 0 } e.2.wp i).ctl 62 2 = 0) : s.Unwatched :=
  fun c => tget_all (P := fun k : Core => ∀ i, i < 4 → wfld (vget { ctl := 0, val := 0, hit := 0 } k.wp i).ctl 62 2 = 0)
    Core.blank (by decide +kernel) s.cores h c

theorem one_calm : (one strand).Calm := calm_of _ (by unfold State.Runs; decide +kernel) (by decide +kernel) (by decide +kernel)

theorem one_unwatched : (one strand).Unwatched := unwatched_of _ (by decide +kernel)

/-! ### A state that meets the hypotheses of each statement -/

theorem wit_IntegerResults : ∃ i s o v, State.Calm s ∧ integerRule s i = some (o, v) ∧ o.regsExist s.me.nreg = true :=
  ⟨.divu true ggg, one strand, ggg, _, one_calm, rfl, by decide +kernel⟩

theorem wit_BitResults : ∃ i s o P, State.Calm s ∧ bitRule s i = some (o, P) ∧ o.regsExist s.me.nreg = true :=
  ⟨.sext ggg, one strand, ggg, _, one_calm, rfl, by decide +kernel⟩

theorem wit_MoveResults : ∃ i s o v, State.Calm s ∧ moveRule s i = some (o, v) ∧ o.regsExist s.me.nreg = true :=
  ⟨.cmpLt ggg, one strand, ggg, _, one_calm, rfl, by decide +kernel⟩

theorem wit_TransferResults : ∃ i s x, State.Calm s ∧ transferRule s i = some x ∧ x.ops.regsExist s.me.nreg = true ∧
    ((indirectFn i).isSome = true → x.dest.toNat % 4 = 0) :=
  ⟨.calli ggg, one strand, _, one_calm, rfl, by decide +kernel, by decide +kernel⟩

theorem wit_MisalignedTransfers : ∃ i s o fn, State.Calm s ∧ s.me.region = [] ∧ indirectFn i = some (o, fn) ∧
    o.regsExist s.me.nreg = true ∧ (s.val o.a).toNat % 4 ≠ 0 :=
  ⟨.ret (ops .w64 0 .none (.g 2) .none .none), one strand, _, _, one_calm, by decide +kernel, rfl, by decide +kernel, by decide +kernel⟩

theorem wit_ReturnIsJump : ∃ (s : State) (o : Ops), s.Calm ∧ o.regsExist s.me.nreg = true ∧ (s.val o.a).toNat % 4 = 0 :=
  ⟨one strand, ggg, one_calm, by decide +kernel, by decide +kernel⟩

theorem wit_TrapInstructions : ∃ i s o fn code sub addr, State.Calm s ∧ s.me.region = [] ∧ s.spine.attached = none ∧
    trapRule i = some (o, fn, code, sub, addr) ∧ o.regsExist s.me.nreg = true :=
  ⟨.svc 0xFFF bare, one strand, _, _, _, _, _, one_calm, by decide +kernel, rfl, rfl, by decide +kernel⟩

theorem wit_CommitInstructions : ∃ i s o p y, State.Calm s ∧ s.Unwatched ∧ commitRule s i = some (o, p, y) ∧
    o.regsExist s.me.nreg = true :=
  ⟨.yield bare, one strand, _, _, _, one_calm, one_unwatched, rfl, by decide +kernel⟩

theorem wit_FenceResults : ∃ (i : Instr) (s : State) (o : Ops) (P : State → Prop), s.Calm ∧ s.Unwatched ∧ (∀ t, fenceRule s t i = some (o, P t)) ∧
    o.regsExist s.me.nreg = true :=
  ⟨.fencep .pkg .rel 0x11 bare, one strand, bare, _, one_calm, one_unwatched, fun _ => rfl, by decide +kernel⟩

theorem wit_StrandRegisters : ∃ (num : BitVec 12) (o : Ops) (s : State) (v : Word), s.Calm ∧
    strandRegRule s num.toNat = some v ∧ o.regsExist s.me.nreg = true :=
  ⟨0x00E, ops .w64 0 (.g 15) .none .none .none, one strand, _, one_calm, rfl, by decide +kernel⟩

theorem wit_PrivilegedRegisters : ∃ (num : BitVec 12) (s : State), s.Calm ∧ s.me.region = [] ∧ s.me.sup = false ∧ 0x100 ≤ num.toNat :=
  ⟨0x100, one strand, one_calm, by decide +kernel, by decide +kernel, by decide +kernel⟩

theorem wit_SequenceRegisters : ∃ (o : Ops) (s : State), s.Calm ∧ o.regsExist s.me.nreg = true ∧ (s.val o.a).toNat < 8 :=
  ⟨ops .w64 0 (.g 3) (.l6 3) .none .none, one strand, one_calm, by decide +kernel, by decide +kernel⟩

/-- A strand with SUP. -/
def supervisor : State := one { strand with sup := true }

theorem supervisor_calm : supervisor.Calm :=
  calm_of _ (by unfold State.Runs; decide +kernel) (by decide +kernel) (by decide +kernel)

/-- The last word of descriptor 7. -/
theorem wit_SupervisorRegisters : ∃ (num : BitVec 12) (o : Ops) (s : State) (i : Nat) (w : Word), s.Calm ∧ s.Unwatched ∧
    s.me.sup = true ∧ 0x100 ≤ num.toNat ∧ IndexOf s num o i ∧ o.regsExist s.me.nreg = true ∧
    supervisorRule s i num.toNat = some w :=
  ⟨0x100, ops .w64 0 (.g 3) (.l6 31) .none .none, supervisor, 31, _, supervisor_calm, unwatched_of _ (by decide +kernel),
    by decide +kernel, by decide +kernel, ⟨_, rfl, .inr ⟨by decide +kernel, by decide +kernel, by decide +kernel, by decide +kernel⟩⟩,
    by decide +kernel, rfl⟩

/-- A register without an index. -/
theorem wit_SupervisorRegisters_flat : ∃ (num : BitVec 12) (o : Ops) (s : State) (i : Nat), s.Calm ∧ s.Unwatched ∧
    s.me.sup = true ∧ 0x100 ≤ num.toNat ∧ IndexOf s num o i ∧ o.regsExist s.me.nreg = true :=
  ⟨0x103, ops .w64 0 .none .none (.g 2) .none, supervisor, 0, supervisor_calm, unwatched_of _ (by decide +kernel),
    by decide +kernel, by decide +kernel, ⟨_, rfl, .inl ⟨by decide +kernel, rfl⟩⟩, by decide +kernel⟩

/-! #### Accesses -/

/-- The first byte of the own scratchpad (06). -/
def pad : Word := 0xF0 <<< 56

/-- The strand with an address of its scratchpad in g1, an index that is no multiple of 4 in g2 and a high address in g4. -/
def near : Strand := { strand with g := vset (vset strand.g 1 pad) 4 (pad + 0x200000) }

theorem near_calm : (one near).Calm :=
  calm_of _ (by unfold State.Runs; decide +kernel) (by decide +kernel) (by decide +kernel)

theorem near_unwatched : (one near).Unwatched := unwatched_of _ (by decide +kernel)

/-- An access that passes its checks has a list of pieces. -/
def passes : Acc → Bool
  | .ok _ => true
  | _ => false

/-- The pieces of an access that passes its checks. -/
def piecesOf : Acc → List Piece
  | .ok ps => ps
  | _ => []

theorem ok_of : ∀ a : Acc, passes a = true → a = .ok (piecesOf a)
  | .ok _, _ => rfl

/-- Whether an access fails, with the code, SUB and address beside it. -/
def failsWith (code : Code) (sub : Nat) (v : Word) : Acc → Bool
  | .fault c s w => c == code && s == sub && w == v
  | _ => false

theorem fault_of (code : Code) (sub : Nat) (v : Word) : ∀ a : Acc, failsWith code sub v a = true → a = .fault code sub v
  | .fault c s w, h => by simp [failsWith] at h; obtain ⟨⟨rfl, rfl⟩, rfl⟩ := h; rfl

/-- No offset, no shift. -/
def flat : MemX := { shift := 0, off := 0 }

/-- A g destination, an address in g1, and the value in g2. -/
def gag : Ops := ops .w64 0 (.g 3) (.g 1) (.g 2) .none

theorem wit_ScalarLoads : ∃ i s x acq dest ps, State.Calm s ∧ loadRule s i = some (x, acq, dest) ∧
    x.ops.regsExist s.me.nreg = true ∧ s.checks x.need x.ea x.size = .ok ps :=
  ⟨.ldAcq .d false flat (ops .w64 0 (.g 3) (.g 1) .none .none), one near, _, _, _, _, near_calm, rfl, by decide +kernel,
    ok_of _ (by decide +kernel)⟩

theorem wit_JumpTables_above : ∃ (cnt : BitVec 32) (o : Ops) (s : State), s.Calm ∧ o.regsExist s.me.nreg = true ∧
    cnt.toNat ≤ (s.val o.a).toNat :=
  ⟨3, ops .w128 0 .none (.g 2) .none .none, one near, near_calm, by decide +kernel, by decide +kernel⟩

/-- A strand whose code stands in its scratchpad's window has its tables there. -/
def tableHere : State := one { near with pc := pad }

theorem wit_JumpTables_below : ∃ (tbl cnt : BitVec 32) (o : Ops) (s : State) (ps : List Piece), s.Calm ∧
    o.regsExist s.me.nreg = true ∧ (s.val o.a).toNat < cnt.toNat ∧
    s.checks Need.load (pcRelative s tbl + 4 * s.val o.a) 4 = .ok ps :=
  ⟨0, 4, ops .w128 0 .none (.g 2) .none .none, tableHere, _,
    calm_of _ (by unfold State.Runs; decide +kernel) (by decide +kernel) (by decide +kernel), by decide +kernel,
    by decide +kernel, ok_of _ (by decide +kernel)⟩

theorem wit_ScalarStores_buffered : ∃ i s x v ps, State.Calm s ∧ s.Unwatched ∧ storeRule s i = some (x, v, false) ∧
    x.ops.regsExist s.me.nreg = true ∧ s.checks x.need x.ea x.size = .ok ps ∧ (∀ p ∈ ps, p.ord ≠ .so) ∧
    regionEntries s.me.region + pagesOf ps ≤ 64 :=
  ⟨.st .w flat (ops .w64 0 .none (.g 1) (.g 2) .none), one near, _, _, _, near_calm, near_unwatched, rfl, by decide +kernel,
    ok_of _ (by decide +kernel), by decide +kernel, by decide +kernel⟩

theorem wit_ScalarStores_handed : ∃ i s x v rel ps, State.Calm s ∧ s.Unwatched ∧ storeRule s i = some (x, v, rel) ∧
    x.ops.regsExist s.me.nreg = true ∧ s.checks x.need x.ea x.size = .ok ps ∧ (rel = true ∨ ∃ p ∈ ps, p.ord = .so) ∧
    s.me.region = [] :=
  ⟨.stRel .d flat (ops .w64 0 .none (.g 1) (.g 2) .none), one near, _, _, _, _, near_calm, near_unwatched, rfl,
    by decide +kernel, ok_of _ (by decide +kernel), .inl rfl, by decide +kernel⟩

theorem wit_AccessFaults : ∃ i s x code sub a, State.Calm s ∧ s.me.region = [] ∧ (∃ w sgn m o, i = .ld w sgn m o) ∧
    (loadRule s i).map (·.1) = some x ∧ x.ops.regsExist s.me.nreg = true ∧
    s.checks x.need x.ea x.size = .fault code sub a :=
  ⟨.ld .d false flat (ops .w64 0 (.g 3) (.g 4) .none .none), one near, _, .addr, 3, pad + 0x200000, near_calm,
    by decide +kernel, ⟨_, _, _, _, rfl⟩, rfl, by decide +kernel, fault_of _ _ _ _ (by decide +kernel)⟩

/-- A vector destination, an address in g1. -/
def vag : Ops := ops .w64 0 (.v 2) (.g 1) .none .none

theorem wit_VectorLoads : ∃ (i : Instr) (s : State) (o : Ops) (ea : Nat → Word) (ps : Nat → List Piece), s.Calm ∧ laneAddress s i = some (o, ea) ∧ laneLoads i = true ∧
    o.regsExist s.me.nreg = true ∧ (∃ n, o.d = .v n) ∧ StreamsReady s o ∧ UndoRoom s ∧ enabled (s.maskOf o) ≠ [] ∧
    ∀ k ∈ enabled (s.maskOf o), s.checks Need.load (ea k) 4 = .ok (ps k) :=
  ⟨.vld flat vag, one near, vag, fun i => effective (one near) flat vag + toWord (4 * i),
    fun k => piecesOf ((one near).checks Need.load (effective (one near) flat vag + toWord (4 * k)) 4), near_calm, rfl, rfl,
    by decide +kernel, ⟨_, rfl⟩, ⟨by decide +kernel, by decide +kernel⟩, by unfold UndoRoom; decide +kernel, by decide +kernel,
    fun k hk => ok_of _ ((by decide +kernel : ∀ k ∈ enabled ((one near).maskOf vag),
      passes ((one near).checks Need.load (effective (one near) flat vag + toWord (4 * k)) 4) = true) k hk)⟩

/-- An address in g1, lanes in v2, their indexes in v3. -/
def agv : Ops := ops .w64 0 .none (.g 1) (.v 2) (.v 3)

theorem wit_VectorStores : ∃ (i : Instr) (s : State) (o : Ops) (ea : Nat → Word) (ps : Nat → List Piece), s.Calm ∧ laneAddress s i = some (o, ea) ∧ laneLoads i = false ∧
    o.regsExist s.me.nreg = true ∧ s.streamUse s.cur.1 s.me o.vsrcs = .ready ∧ enabled (s.maskOf o) ≠ [] ∧
    regionEntries s.me.region ≤ 48 ∧
    ∀ k ∈ enabled (s.maskOf o), s.checks Need.store (ea k) 4 = .ok (ps k) ∧ ∀ p ∈ ps k, p.ord ≠ .so :=
  let ea : Nat → Word := fun i => BitVec.ofInt 64 (((one near).val agv.a).toInt +
    (lane ((one near).vec agv.c) i).toInt * 2 ^ flat.shift.toNat + flat.off.toInt)
  ⟨.vscat flat agv, one near, agv, ea, fun k => piecesOf ((one near).checks Need.store (ea k) 4), near_calm, rfl, rfl,
    by decide +kernel, by decide +kernel, by decide +kernel, by decide +kernel,
    fun k hk => ⟨ok_of _ ((by decide +kernel : ∀ k ∈ enabled ((one near).maskOf agv),
      passes ((one near).checks Need.store (ea k) 4) = true) k hk),
      (by decide +kernel : ∀ k ∈ enabled ((one near).maskOf agv),
        ∀ p ∈ piecesOf ((one near).checks Need.store (ea k) 4), p.ord ≠ .so) k hk⟩⟩

/-! #### Vectors -/

/-- A vector destination and two vector sources. -/
def vvv : Ops := ops .w64 0 (.v 2) (.v 3) (.v 4) .none

theorem one_streams : StreamsReady (one strand) vvv := ⟨by decide +kernel, by decide +kernel⟩

theorem one_room : UndoRoom (one strand) := by unfold UndoRoom; decide +kernel

theorem wit_LaneResults : ∃ i s o f, State.Calm s ∧ laneRule s i = some (o, f) ∧ o.regsExist s.me.nreg = true ∧
    (∃ n, o.d = .v n) ∧ StreamsReady s o ∧ UndoRoom s :=
  ⟨.vadd vvv, one strand, vvv, _, one_calm, rfl, by decide +kernel, ⟨_, rfl⟩, one_streams, one_room⟩

theorem wit_RoundedLaneResults : ∃ i s o f, State.Calm s ∧ roundRule s i = some (o, f) ∧ o.regsExist s.me.nreg = true ∧
    (∃ n, o.d = .v n) ∧ StreamsReady s o ∧ UndoRoom s :=
  ⟨.fadd ⟨true, false, false, false, false, false⟩ .sr vvv, one strand, vvv, _, one_calm, rfl, by decide +kernel, ⟨_, rfl⟩,
    one_streams, one_room⟩

theorem wit_ConversionResults : ∃ i s o w off f, State.Calm s ∧ elementRule s i = some (o, w, off, f) ∧
    w * (off + 16) ≤ 512 ∧ o.regsExist s.me.nreg = true ∧ (∃ n, o.d = .v n) ∧ StreamsReady s o ∧ UndoRoom s :=
  ⟨.c4enc 7 vvv, one strand, vvv, 4, 112, _, one_calm, rfl, by decide, by decide +kernel, ⟨_, rfl⟩, one_streams, one_room⟩

theorem wit_ReductionResults : ∃ i s o f fl, State.Calm s ∧ treeRule s i = some (o, f, fl) ∧ o.regsExist s.me.nreg = true ∧
    (∃ n, o.d = .v n) ∧ StreamsReady s o ∧ UndoRoom s :=
  ⟨.vscan .fadd vvv, one strand, vvv, _, _, one_calm, rfl, by decide +kernel, ⟨_, rfl⟩, one_streams, one_room⟩

/-- A mask destination and two vector sources. -/
def mvv : Ops := ops .w64 0 (.m 0) (.v 3) (.v 4) .none

theorem wit_MaskResults : ∃ i s o f, State.Calm s ∧ maskRule s i = some (o, f) ∧ o.regsExist s.me.nreg = true ∧
    (∃ n, o.d = .m n) ∧ s.streamUse s.cur.1 s.me o.vsrcs = .ready ∧ UndoRoom s ∧ ∀ ma mb op, i = .mlog op ma mb o → o.vsrcs = [] :=
  ⟨.vcmp .fun mvv, one strand, mvv, _, one_calm, rfl, by decide +kernel, ⟨_, rfl⟩, by decide +kernel, one_room,
    fun _ _ _ h => by cases h⟩

/-- A g destination and a vector source. -/
def gvg : Ops := ops .w64 0 (.g 3) (.v 3) (.g 2) .none

theorem wit_ExtractResults : ∃ (i : Instr) (s : State) (o : Ops) (v : Word) (fl : BitVec 16), s.Calm ∧ extractRule s i = some (o, v, fl) ∧ o.regsExist s.me.nreg = true ∧
    (∃ n, o.d = .g n) ∧ s.streamUse s.cur.1 s.me o.vsrcs = .ready ∧ (∀ mode ma, i = .mpop mode ma o → o.vsrcs = []) ∧
    (i = .amaxrd o → o.vsrcs = []) :=
  ⟨.vext gvg, one strand, gvg, _, _, one_calm, rfl, by decide +kernel, ⟨_, rfl⟩, by decide +kernel,
    (fun _ _ h => by cases h), fun h => by cases h⟩

theorem wit_AmaxResults : ∃ (o : Ops) (s : State), s.Calm ∧ o.regsExist s.me.nreg = true ∧ (∃ n, o.d = .v n) ∧
    StreamsReady s o ∧ UndoRoom s :=
  ⟨ops .w64 0 (.v 2) .none .none .none, one strand, one_calm, by decide +kernel, ⟨_, rfl⟩,
    ⟨by decide +kernel, by decide +kernel⟩, one_room⟩

/-! #### Allotment, streams, circular buffers -/

/-- A strand's core with a full and an empty circular buffer of the strand paths. -/
def buffered (p : Strand) : State :=
  { one p with cores := [(16, { core p with
      cbd := vset (vset Core.blank.cbd 0 { CbDesc.blank with valid := true, slotb := 1, nslot := 3, fills := 4, pops := 3, claims := 5 })
        1 { CbDesc.blank with valid := true, slotb := 1, nslot := 3, fills := 3, pops := 3, claims := 6 } })] }

/-- The strand with a register count in each of g1 (12), g2 (3), g5 (0). -/
def grower : Strand := { strand with g := vset strand.g 1 12 }

theorem grower_calm : (one grower).Calm :=
  calm_of _ (by unfold State.Runs; decide +kernel) (by decide +kernel) (by decide +kernel)

theorem buffered_calm : (buffered near).Calm :=
  calm_of _ (by unfold State.Runs; decide +kernel) (by decide +kernel) (by decide +kernel)

theorem one_settled : (one strand).Settled := ⟨by decide +kernel, by decide +kernel, by decide +kernel⟩

theorem one_no_waits : (one strand).NoWaits := ⟨by decide +kernel, by decide +kernel⟩

theorem wit_GrowResults_fault : ∃ (o : Ops) (s : State), s.Calm ∧ s.Unwatched ∧ o.regsExist s.me.nreg = true ∧
    11 < (s.val o.a).toNat ∧ s.me.region = [] :=
  ⟨ops .w64 0 .none (.g 1) .none .none, one grower, grower_calm, unwatched_of _ (by decide +kernel), by decide +kernel,
    by decide +kernel, by decide +kernel⟩

theorem wit_GrowResults_none : ∃ (o : Ops) (s : State), s.Calm ∧ s.Unwatched ∧ o.regsExist s.me.nreg = true ∧
    (s.val o.a).toNat ≤ s.me.rows.length ∧ (s.val o.a).toNat ≤ 11 ∧ s.me.handler = false :=
  ⟨ops .w64 0 .none (.l6 1) .none .none, one strand, one_calm, one_unwatched, by decide +kernel, by decide +kernel,
    by decide +kernel, by decide +kernel⟩

theorem wit_GrowResults_more : ∃ (o : Ops) (s : State) (k : Nat), s.Calm ∧ s.Unwatched ∧ o.regsExist s.me.nreg = true ∧
    (s.val o.a).toNat = s.me.rows.length + k + 1 ∧ (s.val o.a).toNat ≤ 11 ∧ s.me.handler = false ∧
    s.myCore.growers = [] ∧ k + 1 ≤ s.myCore.rowsLeft.length :=
  ⟨ops .w64 0 .none (.l6 11) .none .none, one strand, 9, one_calm, one_unwatched, by decide +kernel, by decide +kernel,
    by decide +kernel, by decide +kernel, by decide +kernel, by decide +kernel⟩

/-- A core whose other rows a strand in slot 7 holds, which waits or does not. -/
def rowless (st : SState) : State :=
  { one strand with
    cores := [(16, { core strand with slots := [(0, strand), (7, { strand with st := st, rows := (List.range 63).map (· + 1) })] })] }

theorem rowless_calm : (rowless .ready).Calm :=
  calm_of _ (by unfold State.Runs; decide +kernel) (by decide +kernel) (by decide +kernel)

theorem wit_GrowResults_waits : ∃ (o : Ops) (s : State) (k : Nat), s.Calm ∧ s.Unwatched ∧ o.regsExist s.me.nreg = true ∧
    (s.val o.a).toNat = s.me.rows.length + k + 1 ∧ (s.val o.a).toNat ≤ 11 ∧ s.me.handler = false ∧ s.me.st = .issuing ∧
    s.myCore.growers = [] ∧ s.myCore.rowsLeft.length < k + 1 ∧ ∀ e ∈ s.myCore.slots, s.parkable e.2 = false :=
  ⟨ops .w64 0 .none (.l6 2) .none .none, rowless .ready, 0, rowless_calm, unwatched_of _ (by decide +kernel), by decide +kernel,
    by decide +kernel, by decide +kernel, by decide +kernel, by decide +kernel, by decide +kernel, by decide +kernel,
    by decide +kernel⟩

/-- A core whose park table is full, its only candidate for parking in slot 7. -/
def parkedFull : State :=
  let w := { strand with st := .waiting (.seq 2 9 (.g 3)), rows := (List.range 63).map (· + 1) }
  let e : ParkEntry := { strand := strand, blocks := [], restorable := none, slot := none }
  { one strand with
    cores := [(16, { core strand with slots := [(0, strand), (7, w)], park := (List.range 64).map fun i => (i, e) })] }

theorem wit_GrowResults_tableFull : ∃ (o : Ops) (s : State) (k : Nat), s.Calm ∧ s.Unwatched ∧ o.regsExist s.me.nreg = true ∧
    (s.val o.a).toNat = s.me.rows.length + k + 1 ∧ (s.val o.a).toNat ≤ 11 ∧ s.me.handler = false ∧ s.me.st = .issuing ∧
    s.myCore.growers = [] ∧ s.myCore.rowsLeft.length < k + 1 ∧ 64 ≤ s.myCore.park.length :=
  ⟨ops .w64 0 .none (.l6 2) .none .none, parkedFull, 0, calm_of _ (by unfold State.Runs; decide +kernel) (by decide +kernel) (by decide +kernel),
    unwatched_of _ (by decide +kernel), by decide +kernel, by decide +kernel, by decide +kernel, by decide +kernel,
    by decide +kernel, by decide +kernel, by decide +kernel, by decide +kernel⟩

/-- The strands of a core without a free row: the one that grows, and in slot 7 one of two rows that waits for the matrix unit. -/
def candidate : Strand := { strand with st := .waiting (.seq 2 9 (.g 3)), rows := [62, 63], age := 5 }

/-- Their core: the other rows belong to a strand that is ready, and one accumulator set is free for spill. -/
def crammed : State :=
  { one strand with
    cores := [(16, { core strand with
      slots := [(0, strand), (5, { strand with st := .ready, rows := (List.range 61).map (· + 1) }), (7, candidate)]
      mtx := { Core.blank.mtx with acc := vset Core.blank.mtx.acc 2 { AccSet.blank with free := true } } })] }

theorem wit_GrowResults_parks : ∃ (o : Ops) (s : State) (k sl : Nat) (q : Strand), s.Calm ∧ s.Unwatched ∧
    o.regsExist s.me.nreg = true ∧ (s.val o.a).toNat = s.me.rows.length + k + 1 ∧ (s.val o.a).toNat ≤ 11 ∧
    s.me.handler = false ∧ s.me.st = .issuing ∧ s.myCore.growers = [] ∧ s.myCore.rowsLeft.length < k + 1 ∧
    OldestCandidate s sl q ∧ k + 1 ≤ (s.myCore.without sl).rowsLeft.length :=
  ⟨ops .w64 0 .none (.l6 3) .none .none, crammed, 1, 7, candidate, calm_of _ (by unfold State.Runs; decide +kernel) (by decide +kernel) (by decide +kernel),
    unwatched_of _ (by decide +kernel), by decide +kernel, by decide +kernel, by decide +kernel, by decide +kernel,
    by decide +kernel, by decide +kernel, by decide +kernel,
    ⟨by decide +kernel, by decide +kernel, by decide +kernel, by decide +kernel, by decide +kernel, ⟨0, by decide, by decide +kernel⟩⟩,
    by decide +kernel⟩

theorem wit_ShrinkResults_fault : ∃ (o : Ops) (s : State), s.Calm ∧ s.Unwatched ∧ s.NoWaits ∧ o.regsExist s.me.nreg = true ∧
    11 < (s.val o.a).toNat ∧ s.me.region = [] :=
  ⟨ops .w64 0 .none (.l6 12) .none .none, one strand, one_calm, one_unwatched, one_no_waits, by decide +kernel,
    by decide +kernel, by decide +kernel⟩

/-- The strand with a stream bound to v2. -/
def binder : Strand := { near with streams := [{ reg := 2, base := pad, stride := 64, count := 2, pos := 0, ahead := [] }] }

theorem binder_calm : (one binder).Calm :=
  calm_of _ (by unfold State.Runs; decide +kernel) (by decide +kernel) (by decide +kernel)

theorem wit_ShrinkResults_bound : ∃ (o : Ops) (s : State), s.Calm ∧ s.Unwatched ∧ s.NoWaits ∧ o.regsExist s.me.nreg = true ∧
    (s.val o.a).toNat < s.me.rows.length ∧ (s.val o.a).toNat ≤ 11 ∧ s.me.region = [] ∧
    ∃ b ∈ s.me.streams, 6 * (s.val o.a).toNat ≤ b.reg :=
  ⟨ops .w64 0 .none (.l6 0) .none .none, one binder, binder_calm, unwatched_of _ (by decide +kernel),
    ⟨by decide +kernel, by decide +kernel⟩, by decide +kernel, by decide +kernel, by decide +kernel, by decide +kernel,
    by decide +kernel⟩

theorem wit_ShrinkResults_less : ∃ (o : Ops) (s : State), s.Calm ∧ s.Unwatched ∧ s.NoWaits ∧ o.regsExist s.me.nreg = true ∧
    (s.val o.a).toNat ≤ 11 ∧ ∀ b ∈ s.me.streams, b.reg < 6 * (s.val o.a).toNat :=
  ⟨ops .w64 0 .none (.l6 1) .none .none, one binder, binder_calm, unwatched_of _ (by decide +kernel),
    ⟨by decide +kernel, by decide +kernel⟩, by decide +kernel, by decide +kernel, by decide +kernel⟩

theorem wit_StreamBindings : ∃ (o : Ops) (s : State), s.Calm ∧ s.Unwatched ∧ o.regsExist s.me.nreg = true ∧
    bindFault s o = none :=
  ⟨ops .w64 0 (.v 3) (.g 1) (.l6 0) (.l6 2), one binder, binder_calm, unwatched_of _ (by decide +kernel), by decide +kernel,
    by decide +kernel⟩

theorem wit_StreamBindings_fault : ∃ (o : Ops) (s : State) (code : Code) (sub : Nat), s.Calm ∧ s.Unwatched ∧
    o.regsExist s.me.nreg = true ∧ s.me.region = [] ∧ bindFault s o = some (code, sub) :=
  ⟨ops .w64 0 (.v 3) (.g 2) (.l6 0) (.l6 2), one binder, .addr, 1, binder_calm, unwatched_of _ (by decide +kernel),
    by decide +kernel, by decide +kernel, by decide +kernel⟩

theorem wit_BufferInit : ∃ (o : Ops) (s : State) (cb : BitVec 4) (level : BitVec 2), s.Calm ∧ s.Unwatched ∧
    o.regsExist s.me.nreg = true ∧ cbInitFault s cb level o = none :=
  ⟨ops .w64 0 .none (.l6 0) (.l6 1) (.l6 2), one strand, 15, 2, one_calm, one_unwatched, by decide +kernel, by decide +kernel⟩

theorem wit_BufferInit_fault : ∃ (o : Ops) (s : State) (cb : BitVec 4) (level : BitVec 2) (code : Code) (sub : Nat), s.Calm ∧
    s.Unwatched ∧ o.regsExist s.me.nreg = true ∧ s.me.region = [] ∧ cbInitFault s cb level o = some (code, sub) :=
  ⟨ops .w64 0 .none (.l6 0) (.l6 0) (.l6 2), one strand, 15, 2, .addr, 6, one_calm, one_unwatched, by decide +kernel,
    by decide +kernel, by decide +kernel⟩

theorem buffered_unwatched : (buffered near).Unwatched := unwatched_of _ (by decide +kernel)

theorem buffered_no_waits : (buffered near).NoWaits := ⟨by decide +kernel, by decide +kernel⟩

theorem buffered_settled : (buffered near).Settled := ⟨by decide +kernel, by decide +kernel, by decide +kernel⟩

theorem wit_BufferForms : ∃ (cb : BitVec 4) (o : Ops) (s : State) (d : CbDesc), s.Calm ∧ s.Unwatched ∧ s.NoWaits ∧ s.Settled ∧
    o.regsExist s.me.nreg = true ∧ d = s.myCore.cb cb.toNat ∧ s.me.handler = false ∧ cbFormFault d false = none ∧
    d.fills ≠ d.pops ∧ cbFormFault d true = none ∧ (d.claims - d.pops).toNat < d.nslot.toNat :=
  ⟨0, ops .w64 0 (.g 3) .none .none .none, buffered near, _, buffered_calm, buffered_unwatched, buffered_no_waits,
    buffered_settled, by decide +kernel, rfl, by decide +kernel, by decide +kernel, by decide +kernel, by decide +kernel,
    by decide +kernel⟩

/-- The strand with the address of the second slot of its buffer in g1. -/
def pusher : Strand := { near with g := vset near.g 1 (pad + 64) }

theorem wit_BufferForms_push : ∃ (cb : BitVec 4) (o : Ops) (s : State) (d : CbDesc) (n : BitVec 32), s.Calm ∧ s.Unwatched ∧
    s.NoWaits ∧ s.Settled ∧ o.regsExist s.me.nreg = true ∧ d = s.myCore.cb cb.toNat ∧ cbFormFault d true = none ∧
    s.val o.a = slotAddress d n ∧ n.toNat < d.nslot.toNat ∧ n.toNat = d.fills.toNat % d.nslot.toNat ∧ d.claims ≠ d.fills ∧
    ∀ m : BitVec 32, m.toNat < n.toNat → slotAddress d m ≠ slotAddress d n :=
  ⟨0, ops .w64 0 .none (.g 1) .none .none, buffered pusher, _, 1,
    calm_of _ (by unfold State.Runs; decide +kernel) (by decide +kernel) (by decide +kernel), unwatched_of _ (by decide +kernel),
    ⟨by decide +kernel, by decide +kernel⟩, ⟨by decide +kernel, by decide +kernel, by decide +kernel⟩, by decide +kernel, rfl,
    by decide +kernel, by decide +kernel, by decide +kernel, by decide +kernel, by decide +kernel, fun m h => by
      have e : m = 0 := by apply BitVec.eq_of_toNat_eq; simp at h ⊢; omega
      subst e; decide +kernel⟩

theorem wit_BufferWaits : ∃ (cb : BitVec 4) (s : State) (d : CbDesc), s.Calm ∧ s.me.region = [] ∧ s.me.handler = false ∧
    (ops .w64 0 (.g 3) .none .none .none).regsExist s.me.nreg = true ∧ d = s.myCore.cb cb.toNat ∧
    cbFormFault d false = none ∧ d.fills = d.pops ∧ d.err = false ∧ cbFormFault d true = none ∧
    d.nslot.toNat ≤ (d.claims - d.pops).toNat :=
  ⟨1, buffered near, _, buffered_calm, by decide +kernel, by decide +kernel, by decide +kernel, rfl, by decide +kernel,
    by decide +kernel, by decide +kernel, by decide +kernel, by decide +kernel⟩

theorem wit_BufferWaits_fault : ∃ (cb : BitVec 4) (s : State) (d : CbDesc) (sub : Nat), s.Calm ∧ s.me.region = [] ∧
    s.me.handler = false ∧ (ops .w64 0 (.g 3) .none .none .none).regsExist s.me.nreg = true ∧ d = s.myCore.cb cb.toNat ∧
    cbFormFault d false = some sub ∧ cbFormFault d true = some sub :=
  ⟨15, buffered near, _, 0x20, buffered_calm, by decide +kernel, by decide +kernel, by decide +kernel, rfl, by decide +kernel,
    by decide +kernel⟩

/-! #### Atomics, creation and end of strands -/

/-- Site 1 live with its sixteen cores, in partition 0, of which the launch of the strand has the one chiplet. -/
def placed (p : Strand) : State :=
  { one p with
    sites := [(1, { st := .live, kind := .bClass, failedEdges := 0, cores := 0xFFFF, lchip := 0, inc := 0, part := 0 })]
    parts := [(0, { Partition.blank with chips := [1], cores := [16, 17] })]
    cores := [(16, core p), (17, { Core.blank with cfg := coreCfg 1 false 0, lcore := 1 })]
    chiplets := [(1, { Chiplet.blank with pagerCore := 0xFFFE, route := [(319, 0)] })]
    ctxs := [(1, { Ctx.blank with part := 0, launches := [(0, { Launch.blank with chips := [0], count := 8, entry := 64 })] })] }

theorem placed_calm : (placed near).Calm :=
  calm_of _ (by unfold State.Runs; decide +kernel) (by decide +kernel) (by decide +kernel)

theorem placed_unwatched : (placed near).Unwatched := unwatched_of _ (by decide +kernel)

theorem placed_settled : (placed near).Settled := ⟨by decide +kernel, by decide +kernel, by decide +kernel⟩

theorem placed_off : (placed near).ColophonOff (placed near).me.asid.toNat := by unfold State.ColophonOff; decide +kernel

/-- A synchronisation at core scope without offset. -/
def syncAt (sc : Scope) : SyncX := { scope := sc, order := .rlx, off := 0 }

theorem wit_AtomicIssue : ∃ (i : Instr) (s : State) (x : Step) (ps : List Piece), s.Calm ∧ s.Unwatched ∧
    stepRule s i = some x ∧ x.ops.regsExist s.me.nreg = true ∧ (s.me.handler = false ∨ handlerBarred s i = none) ∧
    s.checks (Need.atom x.bytes x.x.scope) (syncAddress s x) x.bytes = .ok ps ∧ ps ≠ [] ∧
    (x.x.scope = .pkg ∨ x.x.scope = .sys) ∧ s.routable (coreSite s.cur.1) spineSite = true :=
  ⟨.aadd true (syncAt .sys) gag, placed near, _, _, placed_calm, placed_unwatched, rfl, by decide +kernel,
    .inl (by decide +kernel), ok_of _ (by decide +kernel), by decide +kernel, .inr rfl, by decide +kernel⟩

/-- An AADD of 3 to eight bytes of the own scratchpad. -/
def anAtom (k : AtomKind) (st : AtomStage) : AtomOp where
  id := 9
  core := 16
  slot := 0
  own := 0
  sid := 5
  ord := 0
  asid := 1
  kind := k
  scope := .core
  order := .rlx
  loc := locCore 16 0
  ea := pad
  page := .rc
  home := .port 16
  bytes := if k = .aop .add ∨ k = .cas then 8 else 16
  b := 3
  c := 2
  owing := false
  d := .g 3
  opd := 0
  seq := 0
  stage := st
  pc := 0
  gen := 0
  word := WordId.none
  route := 0
  arrived := 0
  heldUp := false
  sent := 0
  rsp := (0, 0)

/-- The strand that waits for it. -/
def replyWaiter (w : Wait) : Strand := { near with st := .waiting w }

/-- A state with the operation and its strand. -/
def withAtom (k : AtomKind) (st : AtomStage) : State :=
  { placed (replyWaiter (.reply 9)) with atoms := [anAtom k st] }

theorem wit_AtomicAtHome : ∃ (s : State) (a : AtomOp) (p : Strand), s.mem.wf = true ∧ s.Unwatched ∧ s.ColophonOff a.asid ∧
    s.atom? a.id = some a ∧ (s.atoms.map (·.id)).Nodup ∧ AtHome s a ∧ (∃ f, a.kind = .aop f) ∧ s.atomStrand a = some (.slot a.slot, p) ∧ s.strand? a.core a.slot = some p :=
  ⟨withAtom (.aop .add) .toHome, anAtom (.aop .add) .toHome, _, by decide +kernel, unwatched_of _ (by decide +kernel),
    by unfold State.ColophonOff; decide +kernel, by decide +kernel, by decide +kernel,
    ⟨rfl, by decide +kernel, by decide +kernel, by decide +kernel, by decide +kernel⟩, ⟨_, rfl⟩, by decide +kernel, rfl⟩

theorem wit_AtomicReply : ∃ (s : State) (a : AtomOp) (p : Strand) (res : BitVec 128), s.Unwatched ∧ s.atom? a.id = some a ∧
    a.stage = .reply res ∧ s.atomStrand a = some (.slot a.slot, p) ∧ s.strand? a.core a.slot = some p ∧
    p.st = .waiting (.reply a.id) ∧ p.stepping = false ∧ ReplyComes s a :=
  ⟨withAtom (.aop .add) (.reply 7), anAtom (.aop .add) (.reply 7), replyWaiter (.reply 9), 7,
    unwatched_of _ (by decide +kernel), by decide +kernel, rfl, by decide +kernel, by decide +kernel,
    by decide +kernel, by decide +kernel, ⟨by decide +kernel, by decide +kernel⟩⟩

theorem wit_AtomicReply_pair : ∃ (s : State) (a : AtomOp) (p : Strand) (res : BitVec 128), s.Unwatched ∧ s.atom? a.id = some a ∧
    a.stage = .reply res ∧ a.kind = .cas2 ∧ s.atomStrand a = some (.slot a.slot, p) ∧ s.strand? a.core a.slot = some p ∧
    p.st = .waiting (.reply a.id) ∧ p.stepping = false ∧ ReplyComes s a :=
  ⟨withAtom .cas2 (.reply 7), anAtom .cas2 (.reply 7), replyWaiter (.reply 9), 7,
    unwatched_of _ (by decide +kernel), by decide +kernel, rfl, rfl, by decide +kernel, by decide +kernel,
    by decide +kernel, by decide +kernel, ⟨by decide +kernel, by decide +kernel⟩⟩

theorem wit_WaitChange : ∃ (x : SyncX) (o : Ops) (s : State) (ps : List Piece), s.Calm ∧ s.Unwatched ∧ s.Settled ∧
    s.me.handler = false ∧ o.regsExist s.me.nreg = true ∧
    s.checks (Need.watch (atomBytes true) x.scope) (s.val o.a + x.off.signExtend 64) (atomBytes true) = .ok ps ∧ ps ≠ [] ∧
    memVal s.mem (reached ps) ≠ (s.val o.b).toNat % 2 ^ (8 * atomBytes true) :=
  ⟨syncAt .core, gag, placed near, _, placed_calm, placed_unwatched, placed_settled, by decide +kernel, by decide +kernel,
    ok_of _ (by decide +kernel), by decide +kernel, by decide +kernel⟩

theorem wit_WaitChange_equal : ∃ (x : SyncX) (o : Ops) (s : State) (ps : List Piece), s.Calm ∧ s.Unwatched ∧ s.Settled ∧
    s.me.handler = false ∧ o.regsExist s.me.nreg = true ∧
    s.checks (Need.watch (atomBytes true) x.scope) (s.val o.a + x.off.signExtend 64) (atomBytes true) = .ok ps ∧ ps ≠ [] ∧
    memVal s.mem (reached ps) = (s.val o.b).toNat % 2 ^ (8 * atomBytes true) :=
  ⟨syncAt .core, ops .w64 0 (.g 3) (.g 1) (.l6 0) .none, placed near, _, placed_calm, placed_unwatched, placed_settled,
    by decide +kernel, by decide +kernel, ok_of _ (by decide +kernel), by decide +kernel, by decide +kernel⟩

/-- A message handler. -/
def messenger : Strand := { near with kind := .message }

theorem wit_HandlersBarred : ∃ i s o, State.Calm s ∧ s.me.region = [] ∧ s.me.handler = true ∧ handlerBarred s i = some o ∧
    o.regsExist s.me.nreg = true :=
  ⟨.spawn gag, placed messenger, gag, calm_of _ (by unfold State.Runs; decide +kernel) (by decide +kernel) (by decide +kernel),
    by decide +kernel, by decide +kernel, rfl, by decide +kernel⟩

/-- A strand with every privilege. -/
def privileged : Strand := { near with sup := true, pager := true }

theorem privileged_calm : (placed privileged).Calm :=
  calm_of _ (by unfold State.Runs; decide +kernel) (by decide +kernel) (by decide +kernel)

theorem wit_RegistersChecked : ∃ (i : Instr) (s : State) (f : Shape), s.Calm ∧ s.me.region = [] ∧ s.me.sup = true ∧ s.me.pager = true ∧
    i.shape = some f ∧ f.ops.regsExist s.me.nreg = false :=
  ⟨.add false (ops .w64 0 (.v 6) (.g 1) (.g 2) .none), placed privileged, _, privileged_calm, by decide +kernel,
    by decide +kernel, by decide +kernel, rfl, by decide +kernel⟩

theorem wit_SpawnResults_fault : ∃ (o : Ops) (s : State), s.Calm ∧ s.Unwatched ∧ s.me.handler = false ∧
    o.regsExist s.me.nreg = true ∧ (s.val o.a).toNat % 4 ≠ 0 ∧ s.me.region = [] :=
  ⟨ops .w64 0 (.g 3) (.g 2) (.g 2) .none, placed near, placed_calm, placed_unwatched, by decide +kernel, by decide +kernel,
    by decide +kernel, by decide +kernel⟩

theorem wit_SpawnResults_slot : ∃ (o : Ops) (s : State) (n : Nat), s.Calm ∧ s.Unwatched ∧ s.me.handler = false ∧
    o.regsExist s.me.nreg = true ∧ (s.val o.a).toNat % 4 = 0 ∧ s.Settled ∧ s.ColophonOff s.me.asid.toNat ∧
    s.spareSlot s.cur.1 = some n :=
  ⟨gag, placed near, 1, placed_calm, placed_unwatched, by decide +kernel, by decide +kernel, by decide +kernel,
    placed_settled, placed_off, by decide +kernel⟩

/-- A core whose 64 slots are taken. -/
def crowded : State :=
  { placed near with cores := [(16, { core near with slots := (0, near) :: (List.range 63).map fun n => (n + 1, Strand.blank) })] }

theorem wit_SpawnResults_queue : ∃ (o : Ops) (s : State), s.Calm ∧ s.Unwatched ∧ s.me.handler = false ∧
    o.regsExist s.me.nreg = true ∧ (s.val o.a).toNat % 4 = 0 ∧ s.Settled ∧ s.ColophonOff s.me.asid.toNat ∧
    s.spareSlot s.cur.1 = none ∧ (s.chip (coreSite s.cur.1)).children.length < 512 :=
  ⟨gag, crowded, calm_of _ (by unfold State.Runs; decide +kernel) (by decide +kernel) (by decide +kernel),
    unwatched_of _ (by decide +kernel), by decide +kernel, by decide +kernel, by decide +kernel,
    ⟨by decide +kernel, by decide +kernel, by decide +kernel⟩, by unfold State.ColophonOff; decide +kernel, by decide +kernel,
    by decide +kernel⟩

/-- The strand without an allotment, which may migrate. -/
def mover : Strand := { near with rows := [] }

theorem mover_calm : (placed mover).Calm :=
  calm_of _ (by unfold State.Runs; decide +kernel) (by decide +kernel) (by decide +kernel)

theorem mover_may : MayMigrate (placed mover) :=
  ⟨by decide +kernel, by decide +kernel, by decide +kernel, by decide +kernel, by decide +kernel⟩

theorem mover_settled : (placed mover).Settled := ⟨by decide +kernel, by decide +kernel, by decide +kernel⟩

theorem wit_MigrateResults_other : ∃ i s o k, State.Calm s ∧ s.Unwatched ∧ MayMigrate s ∧ s.Settled ∧
    s.ColophonOff s.me.asid.toNat ∧ o.regsExist s.me.nreg = true ∧ migrateTo s i = some (o, k) ∧
    s.routable (coreSite s.cur.1) (coreSite k) = true ∧ k ≠ s.cur.1 :=
  ⟨.migrateC (ops .w64 0 .none (.l6 1) .none .none), placed mover, ops .w64 0 .none (.l6 1) .none .none, 17, mover_calm, unwatched_of _ (by decide +kernel),
    mover_may, mover_settled, by unfold State.ColophonOff; decide +kernel, by decide +kernel, by decide +kernel,
    by decide +kernel, by decide +kernel⟩

theorem wit_MigrateResults_own : ∃ i s o k, State.Calm s ∧ s.Unwatched ∧ MayMigrate s ∧ s.Settled ∧
    s.ColophonOff s.me.asid.toNat ∧ o.regsExist s.me.nreg = true ∧ migrateTo s i = some (o, k) ∧
    s.routable (coreSite s.cur.1) (coreSite k) = true ∧ k = s.cur.1 :=
  ⟨.migrate (ops .w64 0 .none (.g 1) .none .none), placed mover, ops .w64 0 .none (.g 1) .none .none, 16, mover_calm, unwatched_of _ (by decide +kernel),
    mover_may, mover_settled, by unfold State.ColophonOff; decide +kernel, by decide +kernel, by decide +kernel,
    by decide +kernel, by decide +kernel⟩

theorem wit_StrandEnds : ∃ (o : Ops) (s : State), s.Calm ∧ s.Unwatched ∧ o.regsExist s.me.nreg = true ∧
    s.me.kind ≠ .handler ∧ ∀ d ∈ s.myCore.deferred, d.own ≠ s.me.own :=
  ⟨bare, placed near, placed_calm, placed_unwatched, by decide +kernel, by decide +kernel, by decide +kernel⟩

/-- A fault handler, and the strand whose fault it handles in holder 3. -/
def handling : State :=
  { placed { near with kind := .handler } with
    cores := [(16, { core { near with kind := .handler } with holders := [(3, (0, { near with sid := 6 }))] })] }

theorem handling_calm : handling.Calm :=
  calm_of _ (by unfold State.Runs; decide +kernel) (by decide +kernel) (by decide +kernel)

theorem wit_StrandEnds_handler : ∃ (o : Ops) (s : State) (h : Nat) (p : Strand), s.Calm ∧ s.Unwatched ∧
    o.regsExist s.me.nreg = true ∧ s.me.kind = .handler ∧ s.myCore.holderOf s.cur.2 = some (h, p) ∧
    ∀ d ∈ s.myCore.deferred, d.own ≠ s.me.own ∧ d.own ≠ p.own :=
  ⟨bare, handling, 3, { near with sid := 6 }, handling_calm, unwatched_of _ (by decide +kernel), by decide +kernel,
    by decide +kernel, by decide +kernel, by decide +kernel⟩

theorem wit_FaultReturn : ∃ (o : Ops) (s : State) (h : Nat) (p : Strand), s.Calm ∧ s.Settled ∧ s.NoWaits ∧
    s.me.kind = .handler ∧ o.regsExist s.me.nreg = true ∧ s.myCore.holderOf s.cur.2 = some (h, p) ∧
    (s.val o.a).toNat % 4 = 0 ∧ ∀ d ∈ s.myCore.deferred, d.own ≠ s.me.own :=
  ⟨ops .w64 0 .none (.g 1) (.g 2) .none, handling, 3, { near with sid := 6 }, handling_calm,
    ⟨by decide +kernel, by decide +kernel, by decide +kernel⟩, ⟨by decide +kernel, by decide +kernel⟩, by decide +kernel,
    by decide +kernel, by decide +kernel, by decide +kernel, by decide +kernel⟩

theorem wit_HandlerOnly : ∃ (i : Instr) (o : Ops) (s : State) (f : FaultRec), s.Calm ∧ s.me.kind ≠ .handler ∧
    o.regsExist s.me.nreg = true ∧ i = .sresume o ∧ f = s.faultHere 0x24 6 o .prot 0x01 0 :=
  ⟨_, ops .w64 0 .none (.g 1) (.g 2) .none, placed near, _, placed_calm, by decide +kernel, by decide +kernel, rfl, rfl⟩

/-! #### Queues, the cluster's units, the pager, sends -/

theorem wit_MatrixIssue : ∃ i s o body, State.Calm s ∧ s.Unwatched ∧ matrixRule s i = some (o, body) ∧
    o.regsExist s.me.nreg = true ∧ s.myCore.mtx.queue.length < 16 :=
  ⟨.mwload .int8 true (ops .w64 0 (.g 3) (.g 1) (.g 2) (.g 4)), placed near, _, _, placed_calm, placed_unwatched, rfl,
    by decide +kernel, by decide +kernel⟩

/-- An entry of a matrix queue. -/
def matrixEntry (t : Word) (b : MBody) (st : MSt) : MEntry where
  ticket := t
  own := 0
  owner := 5
  slot := 0
  pc := 0
  word := WordId.none
  body := b
  st := st
  row := 0
  base := 0
  claim := none
  pair := none
  waitNo := 0

/-- An engine operation of the strand. -/
def operation (id cls : Nat) (t : Word) (b : EngBody) (st : EngSt) : EngOp where
  id := id
  core := 16
  slot := 0
  cls := cls
  ticket := t
  own := 0
  owner := 5
  pc := 0
  word := WordId.none
  sec := false
  asid := 1
  body := b
  st := st
  pos := 0
  failed := false
  status := 0
  slotNo := none
  before := 0
  waitNo := 0
  data := []
  seq := 0
  got := []
  refused := []
  again := none
  walk := none
  pages := []
  arrived := none
  engine := 0

/-- A copy of eight bytes within the scratchpad. -/
def aCopy : EngBody := .copy pad (pad + 64) 1 1 8 0 0 0 0 false false false

/-- The state with full queues. -/
def loaded : State :=
  { placed near with
    cores := [(16, { core near with
      mtx := { Matrix.blank with queue := (List.range 16).map fun n => matrixEntry (toWord n) .swap .queued }
      rma := [{ ticket := 3, qp := 0, done := false, qst := 0, status := 0 }]
      eseq := vset Core.blank.eseq 0 3 })]
    ops := (List.range 16).map fun n => operation n 0 (toWord n) aCopy .queued }

theorem loaded_calm : loaded.Calm :=
  calm_of _ (by unfold State.Runs; decide +kernel) (by decide +kernel) (by decide +kernel)

theorem loaded_unwatched : loaded.Unwatched := unwatched_of _ (by decide +kernel)

theorem wit_MatrixIssue_full : ∃ i s o body, State.Calm s ∧ s.Unwatched ∧ matrixRule s i = some (o, body) ∧
    o.regsExist s.me.nreg = true ∧ 16 ≤ s.myCore.mtx.queue.length :=
  ⟨.mswap (ops .w64 0 (.g 3) .none .none .none), loaded, ops .w64 0 (.g 3) .none .none .none, _, loaded_calm,
    loaded_unwatched, rfl, by decide +kernel, by decide +kernel⟩

theorem wit_EngineIssue : ∃ i s o cls body, State.Calm s ∧ s.Unwatched ∧ engineRule s i = some (o, cls, body) ∧
    o.regsExist s.me.nreg = true ∧ (s.ops.filter fun e => e.core == s.cur.1 && e.cls == cls).length < classSize cls :=
  ⟨.rmapostWrite true true 8 (ops .w128 0 (.g 3) (.g 1) (.g 2) (.g 4)), placed near,
    ops .w128 0 (.g 3) (.g 1) (.g 2) (.g 4), _, _, placed_calm, placed_unwatched, rfl, by decide +kernel, by decide +kernel⟩

theorem wit_EngineIssue_full : ∃ i s o cls body, State.Calm s ∧ s.Unwatched ∧ engineRule s i = some (o, cls, body) ∧
    o.regsExist s.me.nreg = true ∧ classSize cls ≤ (s.ops.filter fun e => e.core == s.cur.1 && e.cls == cls).length :=
  ⟨.acopycbFill 0 false false (ops .w64 0 (.g 3) (.g 1) (.g 2) (.g 4)), loaded, ops .w64 0 (.g 3) (.g 1) (.g 2) (.g 4), _, _,
    loaded_calm, loaded_unwatched, rfl, by decide +kernel, by decide +kernel⟩

theorem wit_SequenceResults : ∃ i s o cls target, State.Calm s ∧ s.Unwatched ∧ sequenceRule s i = some (o, cls, target) ∧
    o.regsExist s.me.nreg = true ∧ target.toNat ≤ (vget 0 s.myCore.eseq cls).toNat :=
  ⟨.await 0 false (ops .w64 0 (.g 3) (.g 2) .none .none), loaded, ops .w64 0 (.g 3) (.g 2) .none .none, _, _, loaded_calm,
    loaded_unwatched, rfl, by decide +kernel, by decide +kernel⟩

theorem wit_SequenceResults_wait : ∃ i s o cls target, State.Calm s ∧ s.Unwatched ∧ sequenceRule s i = some (o, cls, target) ∧
    o.regsExist s.me.nreg = true ∧ (vget 0 s.myCore.eseq cls).toNat < target.toNat :=
  ⟨.mwait false (ops .w64 0 (.g 3) (.g 2) .none .none), loaded, ops .w64 0 (.g 3) (.g 2) .none .none, _, _, loaded_calm,
    loaded_unwatched, rfl, by decide +kernel, by decide +kernel⟩

theorem wit_SequenceResults_poll : ∃ (o : Ops) (s : State) (r : RmaStatus), s.Calm ∧ o.regsExist s.me.nreg = true ∧
    s.myCore.rma.find? (fun r => r.ticket == s.val o.a) = some r :=
  ⟨ops .w64 0 (.g 3) (.g 2) .none .none, loaded, _, loaded_calm, by decide +kernel, rfl⟩

theorem wit_SequenceResults_unknown : ∃ (o : Ops) (s : State), s.Calm ∧ o.regsExist s.me.nreg = true ∧
    ∀ r ∈ s.myCore.rma, r.ticket ≠ s.val o.a :=
  ⟨ops .w64 0 (.g 3) (.g 1) .none .none, loaded, loaded_calm, by decide +kernel, by decide +kernel⟩

theorem wit_PlaceAndLoopResults : ∃ (o : Ops) (s : State), s.Calm ∧ s.Unwatched ∧ o.regsExist s.me.nreg = true ∧
    s.ColophonOff s.me.asid.toNat :=
  ⟨ops .w64 0 (.g 3) (.g 1) .none .none, placed near, placed_calm, placed_unwatched, by decide +kernel, placed_off⟩

theorem wit_PlaceAndLoopResults_mask : ∃ (o : Ops) (s : State), s.Calm ∧ o.regsExist s.me.nreg = true ∧
    (∃ n, o.d = .m n) ∧ UndoRoom s ∧ o.vsrcs = [] :=
  ⟨ops .w64 0 (.m 7) (.g 1) .none .none, placed near, placed_calm, by decide +kernel, ⟨_, rfl⟩,
    by unfold UndoRoom; decide +kernel, by decide +kernel⟩

theorem wit_BarrierResults_fault : ∃ (bar : BitVec 4) (o : Ops) (s : State) (b : Bar), s.Calm ∧ s.Unwatched ∧
    o.regsExist s.me.nreg = true ∧ s.ColophonOff s.me.asid.toNat ∧ b = s.bar (coreClu s.cur.1) bar.toNat ∧
    256 < (s.val o.a).toNat ∧ s.me.region = [] :=
  ⟨15, ops .w64 0 (.g 3) (.g 1) .none .none, placed near, _, placed_calm, placed_unwatched, by decide +kernel, placed_off, rfl,
    by decide +kernel, by decide +kernel⟩

theorem placed_no_waits : (placed near).NoWaits := ⟨by decide +kernel, by decide +kernel⟩

theorem wit_BarrierResults_arrive : ∃ (bar : BitVec 4) (o : Ops) (s : State) (b : Bar), s.Calm ∧ s.Unwatched ∧
    o.regsExist s.me.nreg = true ∧ s.ColophonOff s.me.asid.toNat ∧ b = s.bar (coreClu s.cur.1) bar.toNat ∧
    0 < (s.val o.a).toNat ∧ (s.val o.a).toNat ≤ 256 ∧ s.Settled ∧ s.NoWaits :=
  ⟨15, ops .w64 0 (.g 3) (.g 2) .none .none, placed near, _, placed_calm, placed_unwatched, by decide +kernel, placed_off, rfl,
    by decide +kernel, by decide +kernel, placed_settled, placed_no_waits⟩

theorem wit_BarrierResults_passed : ∃ (bar : BitVec 4) (o : Ops) (s : State) (b : Bar), s.Calm ∧ s.Unwatched ∧
    o.regsExist s.me.nreg = true ∧ s.ColophonOff s.me.asid.toNat ∧ b = s.bar (coreClu s.cur.1) bar.toNat ∧
    s.me.handler = false ∧ b.phase.toNat ≠ (s.val o.a).toNat % 2 ^ 16 :=
  ⟨15, ops .w64 0 (.g 3) (.g 2) .none .none, placed near, _, placed_calm, placed_unwatched, by decide +kernel, placed_off, rfl,
    by decide +kernel, by decide +kernel⟩

theorem wit_BarrierResults_waits : ∃ (bar : BitVec 4) (o : Ops) (s : State) (b : Bar), s.Calm ∧ s.Unwatched ∧
    o.regsExist s.me.nreg = true ∧ s.ColophonOff s.me.asid.toNat ∧ b = s.bar (coreClu s.cur.1) bar.toNat ∧
    s.me.handler = false ∧ b.phase.toNat = (s.val o.a).toNat % 2 ^ 16 :=
  ⟨15, ops .w64 0 (.g 3) (.l6 0) .none .none, placed near, _, placed_calm, placed_unwatched, by decide +kernel, placed_off, rfl,
    by decide +kernel, by decide +kernel⟩

theorem wit_GangResults_waits : ∃ (g : BitVec 2) (o : Ops) (s : State) (x : Gang) (mk arr : BitVec 4), s.Calm ∧ s.Unwatched ∧
    s.Settled ∧ s.NoWaits ∧ s.me.handler = false ∧ o.regsExist s.me.nreg = true ∧ s.ColophonOff s.me.asid.toNat ∧
    x = s.gang (coreClu s.cur.1) g.toNat ∧ MayArrive s g ((s.val o.a).setWidth 4) ∧
    mk = (gangOpen x ((s.val o.a).setWidth 4)).1 ∧
    arr = (gangOpen x ((s.val o.a).setWidth 4)).2 ||| cixBit s.cur.1 ∧ arr ≠ mk :=
  ⟨3, ops .w64 0 (.g 3) (.g 2) .none .none, placed near, _, _, _, placed_calm, placed_unwatched, placed_settled,
    placed_no_waits, by decide +kernel, by decide +kernel, placed_off, rfl,
    ⟨by decide +kernel, by decide +kernel, by decide +kernel, by decide +kernel, by decide +kernel, by decide +kernel⟩, rfl,
    rfl, by decide +kernel⟩

theorem wit_GangResults_last : ∃ (g : BitVec 2) (o : Ops) (s : State) (x : Gang) (mk arr : BitVec 4), s.Calm ∧ s.Unwatched ∧
    s.Settled ∧ s.NoWaits ∧ s.me.handler = false ∧ o.regsExist s.me.nreg = true ∧ s.ColophonOff s.me.asid.toNat ∧
    x = s.gang (coreClu s.cur.1) g.toNat ∧ MayArrive s g ((s.val o.a).setWidth 4) ∧
    mk = (gangOpen x ((s.val o.a).setWidth 4)).1 ∧
    arr = (gangOpen x ((s.val o.a).setWidth 4)).2 ||| cixBit s.cur.1 ∧ arr = mk :=
  ⟨3, ops .w64 0 (.g 3) (.l6 1) .none .none, placed near, _, _, _, placed_calm, placed_unwatched, placed_settled,
    placed_no_waits, by decide +kernel, by decide +kernel, placed_off, rfl,
    ⟨by decide +kernel, by decide +kernel, by decide +kernel, by decide +kernel, by decide +kernel, by decide +kernel⟩, rfl,
    rfl, by decide +kernel⟩

theorem privileged_unwatched : (placed privileged).Unwatched := unwatched_of _ (by decide +kernel)

theorem wit_Invalidations : ∃ i s o wide kind asid va, State.Calm s ∧ s.Unwatched ∧
    shootRule s i = some (o, wide, kind, asid, va) ∧ s.me.sup = true ∧ s.Settled ∧ o.regsExist s.me.nreg = true :=
  ⟨.tlbinvPage true gag, placed privileged, gag, _, _, _, _, privileged_calm, privileged_unwatched, rfl, by decide +kernel,
    ⟨by decide +kernel, by decide +kernel, by decide +kernel⟩, by decide +kernel⟩

theorem wit_Invalidations_barred : ∃ i s o wide kind asid va, State.Calm s ∧ s.Unwatched ∧
    shootRule s i = some (o, wide, kind, asid, va) ∧ s.me.sup = false ∧ s.me.region = [] :=
  ⟨.tlbinvAll true gag, placed near, gag, _, _, _, _, placed_calm, placed_unwatched, rfl, by decide +kernel, by decide +kernel⟩

/-- A page request of tag 3. -/
def pageReq : PageReq where
  tag := 3
  va := 64
  sid := 6
  core := 17
  lcore := 1
  slot := 2
  kind := .load
  ticket := 0
  asid := 1
  sec := false
  op := none

/-- The pager's state, with a request in its queue and one pending. -/
def paging : State :=
  { placed privileged with
    chiplets := [(1, { Chiplet.blank with pagerCore := 0, pagerQ := [pageReq], pagerPend := [{ pageReq with tag := 1 }] })] }

theorem paging_calm : paging.Calm :=
  calm_of _ (by unfold State.Runs; decide +kernel) (by decide +kernel) (by decide +kernel)

theorem paging_unwatched : paging.Unwatched := unwatched_of _ (by decide +kernel)

theorem wit_PagerResults : ∃ (o : Ops) (s : State) (h : Chiplet) (ps : List Piece) (r : PageReq) (rest : List PageReq),
    s.Calm ∧ s.Unwatched ∧ h = s.chip (coreSite s.cur.1) ∧ s.me.pager = true ∧ o.regsExist s.me.nreg = true ∧
    s.mem.wf = true ∧ wfld (s.val o.a) 56 8 = 0xF0 ∧ s.checks { Need.store with align := 32 } (s.val o.a) 32 = .ok ps ∧
    h.pagerQ = r :: rest ∧ s.isPager s.cur.1 = true :=
  ⟨ops .w64 0 (.g 3) (.g 1) .none .none, paging, _, _, _, _, paging_calm, paging_unwatched, rfl, by decide +kernel,
    by decide +kernel, by decide +kernel, by decide +kernel, ok_of _ (by decide +kernel), rfl, by decide +kernel⟩

theorem wit_PagerResults_none : ∃ (o : Ops) (s : State) (h : Chiplet) (ps : List Piece),
    s.Calm ∧ s.Unwatched ∧ h = s.chip (coreSite s.cur.1) ∧ s.me.pager = true ∧ o.regsExist s.me.nreg = true ∧
    s.mem.wf = true ∧ wfld (s.val o.a) 56 8 = 0xF0 ∧ s.checks { Need.store with align := 32 } (s.val o.a) 32 = .ok ps ∧
    h.pagerQ = [] :=
  ⟨ops .w64 0 (.g 3) (.g 1) .none .none, placed privileged, _, _, privileged_calm, privileged_unwatched, rfl,
    by decide +kernel, by decide +kernel, by decide +kernel, by decide +kernel, ok_of _ (by decide +kernel), rfl⟩

theorem wit_PagerResults_reply : ∃ (o : Ops) (s : State) (h : Chiplet) (r : PageReq), s.Calm ∧ s.Unwatched ∧
    h = s.chip (coreSite s.cur.1) ∧ s.me.pager = true ∧ o.regsExist s.me.nreg = true ∧
    (s.val o.c).toNat ∈ [0, 6, 9, 10, 16] ∧
    h.pagerPend.find? (fun r => toWord (r.tag % 2 ^ 32) == s.val o.b) = some r :=
  ⟨ops .w64 0 .none .none (.l6 1) (.l6 16), paging, _, _, paging_calm, paging_unwatched, rfl, by decide +kernel,
    by decide +kernel, by decide +kernel, rfl⟩

theorem wit_PagerResults_unknown : ∃ (o : Ops) (s : State) (h : Chiplet), s.Calm ∧ s.Unwatched ∧
    h = s.chip (coreSite s.cur.1) ∧ s.me.pager = true ∧ o.regsExist s.me.nreg = true ∧
    (s.val o.c).toNat ∈ [0, 6, 9, 10, 16] ∧ ∀ r ∈ h.pagerPend, toWord (r.tag % 2 ^ 32) ≠ s.val o.b :=
  ⟨ops .w64 0 .none .none (.l6 3) (.l6 0), paging, _, paging_calm, paging_unwatched, rfl, by decide +kernel,
    by decide +kernel, by decide +kernel, by decide +kernel⟩

theorem wit_PagerResults_barred : ∃ s : State, s.Calm ∧ s.Unwatched ∧ s.me.pager = false ∧ s.me.region = [] :=
  ⟨placed near, placed_calm, placed_unwatched, by decide +kernel, by decide +kernel⟩

/-- An urgent message of six registers from g2. -/
def urgent : SendX := { urg := true, pcnt := 6, pbase := 2 }

theorem wit_SendResults : ∃ (i : Instr) (s : State) (o : Ops) (x : SendX) (k : Nat), s.Calm ∧ s.Unwatched ∧
    sendRule s i = some (o, x, k) ∧ o.regsExist s.me.nreg = true ∧ (s.val o.b).toNat % 4 = 0 ∧
    s.routable (coreSite s.cur.1) (coreSite k) = true ∧ (x.urg = true → s.myCore.urgUntil ≤ s.myCore.cc) :=
  ⟨.amsendc urgent (ops .w64 0 (.g 3) (.l6 1) (.g 4) .none), placed near, ops .w64 0 (.g 3) (.l6 1) (.g 4) .none, urgent, 17,
    placed_calm, placed_unwatched, by decide +kernel, by decide +kernel, by decide +kernel, by decide +kernel,
    fun _ => by decide +kernel⟩

theorem wit_SendResults_fault : ∃ (i : Instr) (s : State) (o : Ops) (x : SendX), s.Calm ∧ s.Unwatched ∧ i = .amsend x o ∧
    o.regsExist s.me.nreg = true ∧ (s.val o.b).toNat % 4 ≠ 0 ∧ s.me.region = [] :=
  ⟨_, placed near, ops .w64 0 (.g 3) (.g 1) (.g 2) .none, urgent, placed_calm, placed_unwatched, rfl, by decide +kernel,
    by decide +kernel, by decide +kernel⟩

/-! #### What cores do by themselves -/

/-- A leaf that maps 512 MiB of stack 0, readable, writable, executable, of order UO and STACKLOCAL (14 Table 14.6). -/
def leaf : Word := toWord (1 + 0x1C + 2 * 2 ^ 7 + 2 ^ 10 + 2 ^ 52 + 2 ^ 29)

/-- A translation of the first 512 MiB of context 1. -/
def lowPage : TlbEntry := { asid := 1, glob := false, sec := false, big := true, vp := 0, pte := leaf, set := 0, way := 0 }

/-- A line of two words ADD g3, g1, #5 and NOP (01 Table 01.9). -/
def codeLine : BitVec 512 := BitVec.ofNat 512 (0x0000C0C501030004 + 2 ^ 64 * 0x0000C0C0000000C0)

/-- The state with a cached line of code at the strand's PC. -/
def cached (p : Strand) : State :=
  { placed { p with pc := 64 } with clusters := [(4, { Cluster.blank with tlb := [lowPage], icache := [(1, codeLine)] })] }

/-- A ready strand. -/
def idle : Strand := { near with st := .ready }

theorem wit_IssueEvents : ∃ (c : Nat) (s u : State), (s.core c).phase = .run ∧ (s.clu (coreClu c)).power = .up ∧
    u = (s.cycle c).dueAt c ∧ ∃ a ∈ u.eligible c, a.slot < 64 ∧
      ∀ b ∈ u.eligible c, b ≠ a → b.strand.age < a.strand.age :=
  ⟨16, cached idle, _, by decide +kernel, by decide +kernel, rfl, by decide +kernel⟩

theorem wit_IssueEvents_none : ∃ (c : Nat) (s u : State), (s.core c).phase = .run ∧ (s.clu (coreClu c)).power = .up ∧
    u = (s.cycle c).dueAt c ∧ u.eligible c = [] :=
  ⟨17, cached idle, _, by decide +kernel, by decide +kernel, rfl, by decide +kernel⟩

theorem wit_IssueEvents_nothingDue : ∃ (c : Nat) (s u : State), NothingDue s c ∧ u = (s.cycle c).dueAt c :=
  ⟨16, cached idle, _,
    ⟨by decide +kernel, fun e h => by
      have := (by decide +kernel : ∀ e ∈ ((cached idle).core 16).slots, e.2.mustCommit = false ∧ e.2.firstStore = none) e h
      exact ⟨this.1, fun u hu => by simp [this.2] at hu⟩, by decide +kernel, by decide +kernel⟩, rfl⟩

/-- A strand that has paused and yielded, with a region of 1,024 cycles and 4,096 instructions. -/
def patient : Strand :=
  { idle with pauseUntil := some 0, yielding := some { others := [], left := 0 }, firstStore := some 0, retired := 4096 }

/-- Its core at cycle 1,024. -/
def aged : State := { placed patient with cores := [(16, { core patient with cc := 1024 })] }

theorem wit_IssueEvents_ends : ∃ (c n : Nat) (s : State) (p : Strand), s.strand? c n = some p ∧
    (∃ u, p.pauseUntil = some u ∧ u.toNat ≤ (s.core c).cc.toNat) ∧ (∃ y, p.yielding = some y ∧ y.left = 0) ∧ s.Unwatched ∧
    p.st = .ready ∧ (∃ u, p.firstStore = some u ∧ (u + 1024).toNat ≤ (s.core c).cc.toNat) ∧ 4096 ≤ p.retired ∧
    p.stopped = false :=
  ⟨16, 0, aged, patient, rfl, ⟨0, rfl, by decide +kernel⟩, ⟨_, rfl, rfl⟩, unwatched_of _ (by decide +kernel), rfl,
    ⟨0, rfl, by decide +kernel⟩, by decide +kernel, rfl⟩

theorem wit_IssueEvents_sample : ∃ (c n : Nat) (s : State), 0 < (s.core c).sampleDue ∧ (s.core c).phase = .run ∧
    (s.core c).sampleSlot = some n :=
  ⟨16, 0, { placed idle with cores := [(16, { core idle with sampleDue := 1 })] }, by decide +kernel, by decide +kernel,
    by decide +kernel⟩

/-- A fault ADDR with SUB 0x03. -/
def aFault : FaultRec := { code := .addr, sub := 3, deferred := false, word := WordId.none, pc := 64, addr := pad }

/-- A strand with it. -/
def faulted : Strand := { near with st := .faulted aFault }

/-- Its core, and a launch with a fault handler. -/
def faulty (entry : Word) : State :=
  { placed faulted with
    cores := [(16, { core faulted with faultQ := [0] })]
    ctxs := [(1, { Ctx.blank with part := 0, launches := [(0, { Launch.blank with chips := [0], fault := entry })] })] }

theorem wit_FaultAndSlotEvents : ∃ (c sl h : Nat) (s : State) (p : Strand) (f : FaultRec) (rest : List Nat),
    (s.core c).phase = .run ∧ (s.core c).faultQ = sl :: rest ∧ s.strand? c sl = some p ∧ p.stopped = false ∧
    p.st = .faulted f ∧ Handled s p f ∧ (∀ n ∈ rest, Harmless s c n) ∧ (s.core c).freeHolder = some h ∧
    (∀ w ∈ s.writes, w.own ≠ p.own) ∧ (∀ l ∈ s.loads, l.own ≠ p.own) ∧
    ∀ g, g < 4 → ∀ m ∈ (s.gang (coreClu c) g).members, m ≠ (c, p.own) :=
  ⟨16, 0, 0, faulty 128, faulted, aFault, [], by decide +kernel, by decide +kernel, by decide +kernel, by decide +kernel, rfl,
    ⟨by decide +kernel, by decide +kernel, by decide +kernel⟩, by simp, by decide +kernel, by decide +kernel, by decide +kernel,
    by decide +kernel⟩

/-- Its core with the fault behind an earlier one of a strand of another launch, which has a fault handler. -/
def queued : State :=
  { placed faulted with
    cores := [(16, { core faulted with slots := [(0, faulted), (5, { faulted with lh := 1 })], faultQ := [5, 0] })]
    ctxs := [(1, { Ctx.blank with
      part := 0, launches := [(0, { Launch.blank with fault := 0 }), (1, { Launch.blank with fault := 128 })] })] }

theorem queued_harmless : ∀ n ∈ [5], Harmless queued 16 n := by
  intro n hn q g hq hg
  obtain rfl : n = 5 := by simpa using hn
  have e : queued.strand? 16 5 = some { faulted with lh := 1 } := by decide +kernel
  rw [e] at hq
  obtain rfl := Option.some.inj hq
  obtain rfl : aFault = g := by simpa [faulted] using hg
  exact .inr (.inr ⟨by decide +kernel, by decide +kernel, by decide +kernel⟩)

theorem wit_FaultAndSlotEvents_unhandled : ∃ (c sl : Nat) (s : State) (p : Strand) (f : FaultRec) (before rest : List Nat),
    (s.core c).phase = .run ∧ (s.core c).faultQ = before ++ sl :: rest ∧ (∀ n ∈ before, Harmless s c n) ∧
    s.strand? c sl = some p ∧ p.stopped = false ∧ p.st = .faulted f ∧ f.code ≠ .replayDiverge ∧ ¬ Handled s p f :=
  ⟨16, 0, queued, faulted, aFault, [5], [], by decide +kernel, by decide +kernel, queued_harmless, by decide +kernel,
    by decide +kernel, rfl, by decide +kernel, fun h => absurd h.entry (by decide +kernel)⟩

/-- A deferred fault of the strand. -/
def deferral : Deferred := { own := 0, f := { aFault with deferred := true } }

theorem wit_FaultAndSlotEvents_deferred : ∃ (c n : Nat) (s : State) (p : Strand) (d : Deferred), s.Unwatched ∧
    (s.core c).phase = .run ∧ n < 64 ∧ s.strand? c n = some p ∧ p.st = .ready ∧ p.walk = none ∧ p.stopped = false ∧
    p.stepping = false ∧ (s.core c).deferred.find? (fun e => e.own == p.own) = some d :=
  ⟨16, 0, { placed idle with cores := [(16, { core idle with deferred := [deferral] })] }, idle, deferral,
    unwatched_of _ (by decide +kernel), by decide +kernel, by decide, by decide +kernel, rfl, by decide +kernel,
    by decide +kernel, by decide +kernel, by decide +kernel⟩

/-- The strand in an MWAIT. -/
def mwaiter : Strand := { idle with st := .waiting (.seq 2 9 (.g 3)) }

theorem wit_FaultAndSlotEvents_deferred_waiting : ∃ (c n : Nat) (s : State) (p : Strand) (d : Deferred) (cls : Nat) (x : Word)
    (y : Dst), s.Unwatched ∧ (s.core c).phase = .run ∧ n < 64 ∧ s.strand? c n = some p ∧ p.st = .waiting (.seq cls x y) ∧
    p.stopped = false ∧ p.stepping = false ∧ (s.core c).deferred.find? (fun e => e.own == p.own) = some d :=
  ⟨16, 0, { placed mwaiter with cores := [(16, { core mwaiter with deferred := [deferral] })] }, mwaiter, deferral, 2, 9, .g 3,
    unwatched_of _ (by decide +kernel), by decide +kernel, by decide, by decide +kernel, rfl, by decide +kernel,
    by decide +kernel, by decide +kernel⟩

/-- A parked strand with one block in an accumulator set, restorable, which has taken a slot or not. -/
def parked (slot : Option Nat) : ParkEntry :=
  { strand := { near with rows := [0] }, blocks := [.acc 3 31], restorable := some 1, slot := slot }

/-- A strand's core with one park entry. -/
def parking (p : Strand) (e : ParkEntry) : State := { placed p with cores := [(16, { core p with park := [(2, e)] })] }

theorem wit_FaultAndSlotEvents_park : ∃ (c sl n : Nat) (s : State) (e : ParkEntry) (rest : List (Nat × ParkEntry)),
    (s.core c).phase = .run ∧ (s.core c).restorables = (n, e) :: rest ∧
    (∀ x ∈ (s.core c).restorables, x.2.slot.isSome = true) ∧ e.slot = some sl ∧
    e.blocks.length ≤ (s.core c).freeRows.length :=
  ⟨16, 63, 2, parking idle (parked (some 63)), parked (some 63), [], by decide +kernel, by decide +kernel, by decide +kernel,
    by decide +kernel, by decide +kernel⟩

theorem wit_FaultAndSlotEvents_park_only : ∃ (c sl n : Nat) (s : State) (e : ParkEntry), (s.core c).phase = .run ∧
    (s.core c).park = [(n, e)] ∧ e.restorable.isSome = true ∧ e.slot = none ∧ s.firstOf c (e.restorable.getD 0) = true ∧
    (s.core c).freeSlot = some sl ∧ e.blocks.length ≤ (s.core c).freeRows.length :=
  ⟨16, 1, 2, parking idle (parked none), parked none, by decide +kernel, by decide +kernel, by decide +kernel, by decide +kernel,
    by decide +kernel, by decide +kernel, by decide +kernel⟩

/-- A strand that holds every row of its core. -/
def rowHolder : Strand := { idle with rows := List.range 128 }

theorem wit_FaultAndSlotEvents_park_slot : ∃ (c sl n : Nat) (s : State) (e : ParkEntry), (s.core c).phase = .run ∧
    (s.core c).restorables.find? (fun x => x.2.slot.isNone) = some (n, e) ∧ (s.core c).freeSlot = some sl ∧
    s.firstOf c (e.restorable.getD 0) = true ∧
    (∀ x ∈ (s.core c).restorables, (s.core c).freeRows.length < x.2.blocks.length) ∧ (s.core c).migQ = [] :=
  ⟨16, 1, 2, parking rowHolder (parked none), parked none, by decide +kernel, by decide +kernel, by decide +kernel,
    by decide +kernel, by decide +kernel, by decide +kernel⟩

/-- A core with queued arrivals. -/
def arrivals (migs : List Strand) (spill : List SpillItem) (box : List ActMsg) : State :=
  { placed idle with cores := [(16, { core idle with migQ := migs, spillQ := spill, inbuf := box })] }

/-- A message. -/
def aMsg : ActMsg where
  handler := 128
  payload := Vector.replicate 6 1
  sid := 5
  sent := 0
  ord := 0
  lh := 0
  lcore := 0
  urg := false
  pcnt := 6
  arrived := 0
  asid := 1
  sec := false
  sup := false
  pager := false

theorem arrivals_first (migs : List Strand) (spill : List SpillItem) (box : List ActMsg) : NoFirst (arrivals migs spill box) 16 :=
  ⟨by intro e h; exact absurd h (by simp [arrivals, State.core, tget, tfind, core, Core.blank]),
   by intro m h; exact absurd h (by simp [arrivals, placed, one, State.reset])⟩

theorem wit_FaultAndSlotEvents_migration : ∃ (c sl : Nat) (s : State) (p : Strand) (rest : List Strand),
    (s.core c).phase = .run ∧ (s.core c).freeSlot = some sl ∧ wfld (s.core c).dbg 4 2 = 0 ∧ NoFirst s c ∧
    (s.core c).restorables = [] ∧ (s.core c).migQ = p :: rest ∧ (s.core c).spillQ = [] :=
  ⟨16, 1, arrivals [idle] [] [], idle, [], by decide +kernel, by decide +kernel, by decide +kernel, arrivals_first _ _ _,
    by decide +kernel, by decide +kernel, by decide +kernel⟩

theorem wit_FaultAndSlotEvents_spilled : ∃ (c sl : Nat) (s : State) (p : Strand) (rest : List SpillItem),
    (s.core c).phase = .run ∧ (s.core c).freeSlot = some sl ∧ wfld (s.core c).dbg 4 2 = 0 ∧ NoFirst s c ∧
    (s.core c).spillQ = .mig p :: rest :=
  ⟨16, 1, arrivals [] [.mig idle] [], idle, [], by decide +kernel, by decide +kernel, by decide +kernel, arrivals_first _ _ _,
    by decide +kernel⟩

theorem wit_FaultAndSlotEvents_spilled_message : ∃ (c sl : Nat) (s : State) (m : ActMsg) (rest : List SpillItem),
    (s.core c).phase = .run ∧ (s.core c).freeSlot = some sl ∧ wfld (s.core c).dbg 4 2 = 0 ∧ NoFirst s c ∧
    (s.core c).spillQ = .msg m :: rest :=
  ⟨16, 1, arrivals [] [.msg aMsg] [], aMsg, [], by decide +kernel, by decide +kernel, by decide +kernel, arrivals_first _ _ _,
    by decide +kernel⟩

theorem wit_FaultAndSlotEvents_message : ∃ (c sl : Nat) (s : State) (m : ActMsg) (rest : List ActMsg),
    (s.core c).phase = .run ∧ (s.core c).freeSlot = some sl ∧ wfld (s.core c).dbg 4 2 = 0 ∧ NoFirst s c ∧ NoClaims s c ∧
    (s.core c).inbuf = m :: rest ∧ (s.ctx m.asid.toNat).mode ≠ .replay :=
  ⟨16, 1, arrivals [] [] [aMsg], aMsg, [], by decide +kernel, by decide +kernel, by decide +kernel,
    arrivals_first _ _ _, ⟨arrivals_first _ _ _, by decide +kernel, by decide +kernel⟩, by decide +kernel, by decide +kernel⟩

/-! #### Accesses and operations on their way -/

/-- A store of four bytes of the own scratchpad on its way, to a replicated line when it has replicas. -/
def aWrite (reps : BitVec 48) (locked : Bool) : WriteUnit where
  id := 7
  core := 16
  slot := 0
  own := 0
  sid := 5
  seq := 0
  rel := false
  ord := .uo
  cells := (List.range 4).map fun i => (if reps = 0 then locCore 16 i else i, BitVec.ofNat 8 (i + 1))
  repl := reps != 0
  locked := locked
  reps := reps
  pc := 0
  route := 0
  agent := none
  after := 0
  sent := 0
  va := pad

theorem noRetry_of (s : State) (c : Nat)
    (h : (∀ e ∈ (s.core c).slots, e.2.wait? = none) ∧ ∀ e ∈ (s.core c).park, e.2.strand.wait? = none) : NoRetry s c :=
  ⟨fun e he => by simp [Unheld, h.1 e he], fun e he => by simp [Unheld, h.2 e he]⟩

theorem wit_AccessEvents_write : ∃ (s : State) (w : WriteUnit), s.mem.wf = true ∧
    s.writes.find? (fun v => v.id == w.id) = some w ∧ NoRetry s w.core ∧ w.repl = false ∧ s.mayWrite w = true ∧
    (w.cells.map Prod.fst).Nodup ∧ Comes s w.sent w.core (w.cells.headD (0, 0)).1 w.route ∧
    s.staleReq w.core (w.cells.headD (0, 0)).1 w.route = false :=
  ⟨{ placed idle with writes := [aWrite 0 false] }, aWrite 0 false, by decide +kernel, by decide +kernel,
    noRetry_of _ _ (by decide +kernel), by decide +kernel, by decide +kernel, by decide +kernel,
    ⟨by decide +kernel, by decide +kernel⟩, by decide +kernel⟩

/-- The chiplet of the own scratchpad has another incarnation than the route of a core of its neighbour, site 2, names. -/
def reincarnated : State :=
  { placed idle with
    sites := [(1, { st := .live, kind := .bClass, failedEdges := 0, cores := 0xFFFF, lchip := 0, inc := 1, part := 0 }),
      (2, { st := .live, kind := .mClass, failedEdges := 0, cores := 0xFFFF, lchip := 1, inc := 0, part := 0 })]
    writes := [{ aWrite 0 false with core := 32 }] }

theorem wit_AccessEvents_stale : ∃ (s : State) (w : WriteUnit), s.mem.wf = true ∧
    s.writes.find? (fun v => v.id == w.id) = some w ∧ NoRetry s w.core ∧ w.repl = false ∧ s.mayWrite w = true ∧
    Comes s w.sent w.core (w.cells.headD (0, 0)).1 w.route ∧ s.staleReq w.core (w.cells.headD (0, 0)).1 w.route = true :=
  ⟨reincarnated, { aWrite 0 false with core := 32 }, by decide +kernel, by decide +kernel,
    noRetry_of _ _ (by decide +kernel), by decide +kernel, by decide +kernel, ⟨by decide +kernel, by decide +kernel⟩,
    by decide +kernel⟩

theorem wit_AccessEvents_lock : ∃ (s : State) (w : WriteUnit), s.mem.wf = true ∧
    s.writes.find? (fun v => v.id == w.id) = some w ∧ NoRetry s w.core ∧ w.repl = true ∧ w.locked = false ∧
    s.mayWrite w = true ∧ (∀ x ∈ w.cells, s.replLocked x.1 = false) ∧ s.replStuck w = false ∧
    ∀ n ∈ w.replSites, s.staleTo w.site n = false :=
  ⟨{ placed idle with writes := [aWrite 1 false] }, aWrite 1 false, by decide +kernel, by decide +kernel,
    noRetry_of _ _ (by decide +kernel), by decide +kernel, by decide +kernel, by decide +kernel, by decide +kernel,
    by decide +kernel, by decide +kernel⟩

/-- The first replica of a write stands at a chiplet that has been reset. -/
def reincarnatedReplica : State :=
  { placed idle with
    sites := [(1, { st := .live, kind := .bClass, failedEdges := 0, cores := 0xFFFF, lchip := 0, inc := 1, part := 0 }),
      (2, { st := .live, kind := .mClass, failedEdges := 0, cores := 0xFFFF, lchip := 1, inc := 0, part := 0 })]
    chiplets := [(2, { Chiplet.blank with pagerCore := 0xFFFE, route := [(0, 0)] })]
    writes := [{ aWrite 1 false with core := 32 }] }

theorem wit_AccessEvents_lockStale : ∃ (s : State) (w : WriteUnit) (n : Nat) (rest : List Nat), s.mem.wf = true ∧
    s.writes.find? (fun v => v.id == w.id) = some w ∧ NoRetry s w.core ∧ w.repl = true ∧ w.locked = false ∧
    s.mayWrite w = true ∧ (∀ x ∈ w.cells, s.replLocked x.1 = false) ∧ s.replStuck w = false ∧ w.replSites = n :: rest ∧
    s.staleTo w.site n = true ∧ w.agent = none :=
  ⟨reincarnatedReplica, { aWrite 1 false with core := 32 }, _, _, by decide +kernel, by decide +kernel,
    noRetry_of _ _ (by decide +kernel), by decide +kernel, by decide +kernel, by decide +kernel, by decide +kernel,
    by decide +kernel, rfl, by decide +kernel, rfl⟩

theorem wit_AccessEvents_update : ∃ (s : State) (w : WriteUnit), s.mem.wf = true ∧
    s.writes.find? (fun v => v.id == w.id) = some w ∧ NoRetry s w.core ∧ w.locked = true ∧ s.replStuck w = false ∧
    (w.cells.map fun x => x.1 % 2 ^ 36).Nodup :=
  ⟨{ placed idle with writes := [aWrite 1 true] }, aWrite 1 true, by decide +kernel, by decide +kernel,
    noRetry_of _ _ (by decide +kernel), by decide +kernel, by decide +kernel, by decide +kernel⟩

/-- A load of some bytes of the own scratchpad. -/
def aLoad (dest : LoadDest) (n : Nat) (b : Option Byte) : LoadOp where
  id := 8
  core := 16
  slot := 0
  own := 0
  sid := 5
  seq := 1
  acq := false
  dest := dest
  parts := [{ cells := (List.range n).map fun i => (locCore 16 i, b), mapped := (List.range n).map fun i => locCore 16 i,
              ord := .uo, repl := false, route := 0, sent := 0, rsp := (0, 0) }]
  pc := 0
  word := WordId.none
  acqSeq := 0

/-- A state with it. -/
def loading (p : Strand) (l : LoadOp) : State := { placed p with loads := [l] }

theorem wit_AccessEvents_read : ∃ (s : State) (l : LoadOp) (i : Nat) (u : RUnit) (p : Strand), s.Unwatched ∧
    s.loads.find? (fun m => m.id == l.id) = some l ∧ (s.core l.core).allStrands.find? (fun q => q.own == l.own) = some p ∧
    l.parts[i]? = some u ∧ s.mayRead l i = true ∧ Comes s u.sent l.core (firstOf u) u.route ∧
    s.staleReq l.core (firstOf u) u.route = false ∧ NoRetry s l.core :=
  ⟨loading idle (aLoad (.g 3 8 false) 8 none), aLoad (.g 3 8 false) 8 none, 0, _, idle, unwatched_of _ (by decide +kernel),
    by decide +kernel, by decide +kernel, rfl, by decide +kernel, ⟨by decide +kernel, by decide +kernel⟩, by decide +kernel,
    noRetry_of _ _ (by decide +kernel)⟩

theorem wit_AccessEvents_reply : ∃ (s : State) (l : LoadOp) (p : Strand) (bytes : List Byte) (n size : Nat) (sgn : Bool),
    s.Unwatched ∧ s.loads.find? (fun m => m.id == l.id) = some l ∧ l.bytes = some bytes ∧
    s.strand? l.core l.slot = some p ∧ s.loadPlace l = some (.slot l.slot, p) ∧ Returns s l ∧ l.dest = .g n size sgn ∧ n < 16 :=
  ⟨loading idle (aLoad (.g 15 4 true) 4 (some 0x80)), aLoad (.g 15 4 true) 4 (some 0x80), idle, _, 15, 4, true,
    unwatched_of _ (by decide +kernel), by decide +kernel, rfl, by decide +kernel, by decide +kernel, by unfold Returns; decide +kernel, rfl, by decide⟩

theorem wit_AccessEvents_pair : ∃ (s : State) (l : LoadOp) (p : Strand) (bytes : List Byte) (n : Nat),
    s.Unwatched ∧ s.loads.find? (fun m => m.id == l.id) = some l ∧ l.bytes = some bytes ∧
    s.strand? l.core l.slot = some p ∧ s.loadPlace l = some (.slot l.slot, p) ∧ Returns s l ∧ l.dest = .pair n ∧ n + 1 < 16 :=
  ⟨loading idle (aLoad (.pair 14) 16 (some 1)), aLoad (.pair 14) 16 (some 1), idle, _, 14,
    unwatched_of _ (by decide +kernel), by decide +kernel, rfl, by decide +kernel, by decide +kernel, by unfold Returns; decide +kernel, rfl, by decide⟩

theorem wit_AccessEvents_lanes : ∃ (s : State) (l : LoadOp) (p : Strand) (bytes : List Byte) (reg : Nat) (lanes : List Nat),
    s.Unwatched ∧ s.loads.find? (fun m => m.id == l.id) = some l ∧ l.bytes = some bytes ∧
    s.strand? l.core l.slot = some p ∧ s.loadPlace l = some (.slot l.slot, p) ∧ Returns s l ∧ l.dest = .lanes reg lanes ∧ lanes.Nodup ∧
    bytes.length = 4 * lanes.length :=
  ⟨loading idle (aLoad (.lanes 2 [0, 15]) 8 (some 1)), aLoad (.lanes 2 [0, 15]) 8 (some 1), idle, _, 2, [0, 15],
    unwatched_of _ (by decide +kernel), by decide +kernel, rfl, by decide +kernel, by decide +kernel, by unfold Returns; decide +kernel, rfl, by decide,
    by decide +kernel⟩

theorem wit_AccessEvents_table : ∃ (s : State) (l : LoadOp) (p : Strand) (bytes : List Byte) (base : Word),
    s.Unwatched ∧ s.loads.find? (fun m => m.id == l.id) = some l ∧ l.bytes = some bytes ∧
    s.strand? l.core l.slot = some p ∧ s.loadPlace l = some (.slot l.slot, p) ∧ Returns s l ∧ l.dest = .table base ∧ p.st = .waiting (.table l.id) ∧
    p.stepping = false ∧ (s.core l.core).phase = .run :=
  ⟨loading (replyWaiter (.table 8)) (aLoad (.table pad) 4 (some 1)), aLoad (.table pad) 4 (some 1), replyWaiter (.table 8), _,
    pad, unwatched_of _ (by decide +kernel), by decide +kernel, rfl, by decide +kernel, by decide +kernel, by unfold Returns; decide +kernel, rfl,
    by decide +kernel, by decide +kernel, by decide +kernel⟩

/-- A strand that waits for eight bytes of its scratchpad to differ from a value. -/
def watcher (b : Word) : Strand := replyWaiter (.change (locCore 16 0) 8 b (.g 3) false .rlx 0)

theorem wit_AccessEvents_changed : ∃ (s : State) (c n loc k : Nat) (p : Strand) (b r : Word) (d : Dst) (w : Bool) (od : MemOrder),
    s.Unwatched ∧ n < 64 ∧ (s.core c).phase = .run ∧ s.strand? c n = some p ∧ p.st = .waiting (.change loc k b d w od r) ∧
    p.stepping = false ∧ s.staleReq c loc r = false ∧ Comes s s.fresh c loc r ∧
    s.behindRspAt loc c (s.fresh, s.route (locSite loc) (coreSite c)) = false ∧ BitVec.ofNat 64 (bytesAt s loc k) ≠ b :=
  ⟨placed (watcher 1), 16, 0, _, _, watcher 1, _, _, _, _, _, unwatched_of _ (by decide +kernel), by decide, by decide +kernel,
    by decide +kernel, rfl, by decide +kernel, by decide +kernel, ⟨by decide +kernel, by decide +kernel⟩, by decide +kernel,
    by decide +kernel⟩

theorem wit_AccessEvents_unchanged : ∃ (s : State) (c n loc k : Nat) (p : Strand) (b r : Word) (d : Dst) (w : Bool) (od : MemOrder),
    s.Unwatched ∧ n < 64 ∧ (s.core c).phase = .run ∧ s.strand? c n = some p ∧ p.st = .waiting (.change loc k b d w od r) ∧
    p.stepping = false ∧ s.staleReq c loc r = false ∧ Comes s s.fresh c loc r ∧
    s.behindRspAt loc c (s.fresh, s.route (locSite loc) (coreSite c)) = false ∧ BitVec.ofNat 64 (bytesAt s loc k) = b :=
  ⟨placed (watcher 0), 16, 0, _, _, watcher 0, _, _, _, _, _, unwatched_of _ (by decide +kernel), by decide, by decide +kernel,
    by decide +kernel, rfl, by decide +kernel, by decide +kernel, ⟨by decide +kernel, by decide +kernel⟩, by decide +kernel,
    by decide +kernel⟩

/-- An arrival of two parties. -/
def arriving (k : AtomKind) (st : AtomStage) : AtomOp := { anAtom k st with c := 2, b := 3 }

/-- A state with an arrival, or a take. -/
def meeting (a : AtomOp) (mem : Memory) : State := { placed (replyWaiter (.reply 9)) with atoms := [a], mem := mem }

/-- Whether an operation is its strand's. -/
theorem opAt_of (s : State) (a : AtomOp) (p : Strand) (h : s.atom? a.id = some a ∧ (s.atoms.map (·.id)).Nodup ∧
    s.atomStrand a = some (.slot a.slot, p) ∧ s.strand? a.core a.slot = some p ∧ p.stepping = false) : OpAt s a p :=
  ⟨h.1, h.2.1, h.2.2.1, h.2.2.2.1, h.2.2.2.2⟩

theorem wit_RendezvousEvents_first : ∃ (s : State) (a : AtomOp) (p : Strand) (x y : RvCell), s.mem.wf = true ∧ s.Unwatched ∧
    s.ColophonOff a.asid ∧ OpAt s a p ∧ AtHome s a ∧ (a.kind = .rvJoin ∨ a.kind = .rvArrive) ∧ x = s.cell a.loc ∧
    x.rel = false ∧ y = arrivedCell x a ∧ QuietCell s a.loc ∧ y.cnt ≠ y.parties ∧ s.hasRoom a.home = true :=
  ⟨meeting (arriving .rvJoin .toHome) [], arriving .rvJoin .toHome, replyWaiter (.reply 9), _, _, by decide +kernel,
    unwatched_of _ (by decide +kernel), by unfold State.ColophonOff; decide +kernel, opAt_of _ _ _ (by decide +kernel),
    ⟨rfl, by decide +kernel, by decide +kernel, by decide +kernel, by decide +kernel⟩, .inl rfl, rfl, by decide +kernel, rfl,
    ⟨by decide +kernel, by decide +kernel⟩, by decide +kernel, by decide +kernel⟩

theorem wit_RendezvousEvents_last : ∃ (s : State) (a : AtomOp) (p : Strand) (x y : RvCell), s.mem.wf = true ∧ s.Unwatched ∧
    s.ColophonOff a.asid ∧ OpAt s a p ∧ AtHome s a ∧ (a.kind = .rvJoin ∨ a.kind = .rvArrive) ∧ x = s.cell a.loc ∧
    x.rel = false ∧ y = arrivedCell x a ∧ QuietCell s a.loc ∧ y.cnt = y.parties :=
  ⟨meeting { arriving .rvArrive .toHome with c := 1 } [], { arriving .rvArrive .toHome with c := 1 }, replyWaiter (.reply 9),
    _, _, by decide +kernel,
    unwatched_of _ (by decide +kernel), by unfold State.ColophonOff; decide +kernel, opAt_of _ _ _ (by decide +kernel),
    ⟨rfl, by decide +kernel, by decide +kernel, by decide +kernel, by decide +kernel⟩, .inr rfl, rfl, by decide +kernel, rfl,
    ⟨by decide +kernel, by decide +kernel⟩, by decide +kernel⟩

/-- A home with its 256 places taken. -/
def fullHome : State :=
  { meeting (arriving .rvJoin .toHome) [] with
    atoms := arriving .rvJoin .toHome ::
      (List.range 256).map fun n => { arriving .rvJoin .waiting with id := 10 + n, loc := locCore 16 64 } }

theorem wit_RendezvousEvents_noRoom : ∃ (s : State) (a : AtomOp) (p : Strand) (x y : RvCell), s.mem.wf = true ∧ s.Unwatched ∧
    s.ColophonOff a.asid ∧ OpAt s a p ∧ AtHome s a ∧ a.kind = .rvJoin ∧ x = s.cell a.loc ∧
    x.rel = false ∧ y = arrivedCell x a ∧ QuietCell s a.loc ∧ y.cnt ≠ y.parties ∧ s.hasRoom a.home = false :=
  ⟨fullHome, arriving .rvJoin .toHome, replyWaiter (.reply 9), _, _, by decide +kernel,
    unwatched_of _ (by decide +kernel), by unfold State.ColophonOff; decide +kernel, opAt_of _ _ _ (by decide +kernel),
    ⟨rfl, by decide +kernel, by decide +kernel, by decide +kernel, by decide +kernel⟩, rfl, rfl, by decide +kernel, rfl,
    ⟨by decide +kernel, by decide +kernel⟩, by decide +kernel, by decide +kernel⟩

theorem wit_RendezvousEvents_returned : ∃ (s : State) (a : AtomOp) (p : Strand) (x : RvCell), s.mem.wf = true ∧ s.Unwatched ∧
    s.ColophonOff a.asid ∧ OpAt s a p ∧ AtHome s a ∧ a.kind = .rvWait ∧ x = s.cell a.loc ∧ QuietCell s a.loc ∧
    x.gen ≠ a.b.setWidth 8 :=
  ⟨meeting (arriving .rvWait .toHome) [], arriving .rvWait .toHome, replyWaiter (.reply 9), _, by decide +kernel,
    unwatched_of _ (by decide +kernel), by unfold State.ColophonOff; decide +kernel, opAt_of _ _ _ (by decide +kernel),
    ⟨rfl, by decide +kernel, by decide +kernel, by decide +kernel, by decide +kernel⟩, rfl, rfl, ⟨by decide +kernel, by decide +kernel⟩, by decide +kernel⟩

theorem wit_RendezvousEvents_waits : ∃ (s : State) (a : AtomOp) (p : Strand) (x : RvCell), s.mem.wf = true ∧ s.Unwatched ∧
    s.ColophonOff a.asid ∧ OpAt s a p ∧ AtHome s a ∧ a.kind = .rvWait ∧ x = s.cell a.loc ∧ QuietCell s a.loc ∧
    x.gen = a.b.setWidth 8 ∧ x.rel = false ∧ s.hasRoom a.home = true :=
  ⟨meeting { arriving .rvWait .toHome with b := 0 } [], { arriving .rvWait .toHome with b := 0 }, replyWaiter (.reply 9), _,
    by decide +kernel,
    unwatched_of _ (by decide +kernel), by unfold State.ColophonOff; decide +kernel, opAt_of _ _ _ (by decide +kernel),
    ⟨rfl, by decide +kernel, by decide +kernel, by decide +kernel, by decide +kernel⟩, rfl, rfl, ⟨by decide +kernel, by decide +kernel⟩, by decide +kernel,
    by decide +kernel, by decide +kernel⟩

/-- Memory with a cell of the own scratchpad whose generation is complete and owes two takes. -/
def owing : Memory :=
  ((placed idle).putCell (locCore 16 0) { (placed idle).cell (locCore 16 0) with rel := true, owe := 2, parties := 2, cnt := 2 }).mem

theorem wit_RendezvousEvents_owed : ∃ (s : State) (a : AtomOp) (p : Strand) (x : RvCell), s.mem.wf = true ∧ s.Unwatched ∧
    s.ColophonOff a.asid ∧ OpAt s a p ∧ AtHome s a ∧ a.kind = .rvWait ∧ x = s.cell a.loc ∧ QuietCell s a.loc ∧
    x.gen = a.b.setWidth 8 ∧ x.rel = true :=
  ⟨meeting { arriving .rvWait .toHome with b := 0 } owing, { arriving .rvWait .toHome with b := 0 }, replyWaiter (.reply 9), _,
    by decide +kernel,
    unwatched_of _ (by decide +kernel), by unfold State.ColophonOff; decide +kernel, opAt_of _ _ _ (by decide +kernel),
    ⟨rfl, by decide +kernel, by decide +kernel, by decide +kernel, by decide +kernel⟩, rfl, rfl, ⟨by decide +kernel, by decide +kernel⟩, by decide +kernel,
    by decide +kernel⟩

/-- A take at a home with its 256 places taken. -/
def fullTake : State :=
  { fullHome with
    atoms := { arriving .rvWait .toHome with b := 0 } ::
      (List.range 256).map fun n => { arriving .rvJoin .waiting with id := 10 + n, loc := locCore 16 64 } }

theorem wit_RendezvousEvents_takeNoRoom : ∃ (s : State) (a : AtomOp) (p : Strand) (x : RvCell), s.mem.wf = true ∧
    s.Unwatched ∧ s.ColophonOff a.asid ∧ OpAt s a p ∧ AtHome s a ∧ a.kind = .rvWait ∧ x = s.cell a.loc ∧ QuietCell s a.loc ∧
    x.gen = a.b.setWidth 8 ∧ x.rel = false ∧ s.hasRoom a.home = false :=
  ⟨fullTake, { arriving .rvWait .toHome with b := 0 }, replyWaiter (.reply 9), _, by decide +kernel,
    unwatched_of _ (by decide +kernel), by unfold State.ColophonOff; decide +kernel, opAt_of _ _ _ (by decide +kernel),
    ⟨rfl, by decide +kernel, by decide +kernel, by decide +kernel, by decide +kernel⟩, rfl, rfl, ⟨by decide +kernel, by decide +kernel⟩, by decide +kernel,
    by decide +kernel, by decide +kernel⟩

theorem wit_RendezvousEvents_reply : ∃ (s : State) (a : AtomOp) (p : Strand) (res : BitVec 128) (gen : BitVec 8), s.Unwatched ∧
    s.mem.wf = true ∧ OpAt s a p ∧ (a.kind = .rvJoin ∨ a.kind = .rvArrive ∨ a.kind = .rvWait) ∧ a.stage = .reply res ∧
    p.st = .waiting (.join a.id gen) ∧ ReplyComes s a ∧ (s.core a.core).phase = .run :=
  ⟨{ meeting (arriving .rvWait (.reply 3)) [] with cores := [(16, core (replyWaiter (.join 9 0)))] }, arriving .rvWait (.reply 3),
    replyWaiter (.join 9 0), 3, 0, unwatched_of _ (by decide +kernel), by decide +kernel, opAt_of _ _ _ (by decide +kernel),
    .inr (.inr rfl), rfl, rfl, ⟨by decide +kernel, by decide +kernel⟩, by decide +kernel⟩

/-- A core that is saving, with a join in its slot. -/
def savingJoin : State :=
  { meeting (arriving .rvJoin (.reply 3)) [] with
    cores := [(16, { core (replyWaiter (.join 9 0)) with phase := .saving })] }

theorem wit_RendezvousEvents_replyArea : ∃ (s : State) (a : AtomOp) (p : Strand) (res : BitVec 128) (gen : BitVec 8),
    s.Unwatched ∧ s.mem.wf = true ∧ OpAt s a p ∧ (a.kind = .rvJoin ∨ a.kind = .rvArrive ∨ a.kind = .rvWait) ∧
    a.stage = .reply res ∧ p.st = .waiting (.join a.id gen) ∧ ReplyComes s a ∧ (s.core a.core).phase ≠ .run ∧
    .release a.slot a.id res ∉ (s.core a.core).replies :=
  ⟨savingJoin, arriving .rvJoin (.reply 3), replyWaiter (.join 9 0), 3, 0, unwatched_of _ (by decide +kernel), by decide +kernel,
    opAt_of _ _ _ (by decide +kernel), .inl rfl, rfl, rfl, ⟨by decide +kernel, by decide +kernel⟩, by decide +kernel,
    by decide +kernel⟩

theorem wit_RendezvousEvents_resend : ∃ (s : State) (a : AtomOp) (p : Strand), OpAt s a p ∧ a.stage = .returned ∧
    (s.core a.core).phase = .run ∧ (a.kind = .rvJoin ∨ a.kind = .rvArrive ∨ a.kind = .rvWait) ∧
    (a.scope = .pkg ∨ a.scope = .sys) :=
  ⟨meeting { arriving .rvJoin .returned with scope := .sys } [], { arriving .rvJoin .returned with scope := .sys },
    replyWaiter (.reply 9), opAt_of _ _ _ (by decide +kernel), rfl, by decide +kernel, .inl rfl, .inr rfl⟩

/-- An AADD of package scope. -/
def pasAtom (st : AtomStage) : AtomOp := { anAtom (.aop .add) st with scope := .pkg }

/-- A site in service that no partition holds. -/
def onTheWay : Site := { st := .live, kind := .mClass, failedEdges := 0, cores := 0, lchip := 0xFFFF, inc := 0, part := 0x3F }

/-- The operation on its way to the Spine, over sites in service, with others behind it. -/
def toSequencer (more : List AtomOp) : State :=
  { withAtom (.aop .add) .toPas with
    sites := (withAtom (.aop .add) .toPas).sites ++ (List.range 8).map fun i => (i + 2, onTheWay)
    atoms := pasAtom .toPas :: more }

theorem wit_SequencerEvents_accept : ∃ (s : State) (a : AtomOp) (p : Strand), OpAt s a p ∧ s.ColophonOff a.asid ∧
    a.stage = .toPas ∧ s.atomReady a = true ∧ s.staleAt (coreSite a.core) spineSite a.route = false ∧
    s.pathClear (coreSite a.core) spineSite a.route = true ∧ s.pasHeld < 1024 :=
  ⟨toSequencer [], pasAtom .toPas, replyWaiter (.reply 9), opAt_of _ _ _ (by decide +kernel),
    by unfold State.ColophonOff; decide +kernel, rfl, by decide +kernel, by decide +kernel, by decide +kernel,
    by decide +kernel⟩

/-- A PAS that holds 1,024 operations. -/
def fullPas : State :=
  toSequencer ((List.range 1024).map fun n => { anAtom (.aop .add) (.locking (toWord n) 0) with id := 10 + n, own := 99 })

theorem range_map_nodup (k n : Nat) : ((List.range n).map fun i => k + i).Nodup :=
  List.Pairwise.map _ (fun a b (h : a ≠ b) => by omega) List.nodup_range

theorem fullPas_nodup : (fullPas.atoms.map (·.id)).Nodup := by
  have e : fullPas.atoms.map (·.id) = 9 :: (List.range 1024).map fun i => 10 + i := by
    simp [fullPas, toSequencer, pasAtom, anAtom, Function.comp_def]
  rw [e]
  exact List.nodup_cons.mpr
    ⟨by simp only [List.mem_map, List.mem_range]; rintro ⟨a, _, h⟩; omega, range_map_nodup 10 1024⟩

theorem fullPas_held : fullPas.pasHeld = 1024 := by
  simp only [State.pasHeld, fullPas, toSequencer, pasAtom, anAtom, AtomStage.number, List.filter_cons, List.filter_map, Function.comp_def]
  simp [List.filter_eq_self.mpr]

theorem wit_SequencerEvents_full : ∃ (s : State) (a : AtomOp) (p : Strand), OpAt s a p ∧ s.ColophonOff a.asid ∧
    a.stage = .toPas ∧ s.atomReady a = true ∧ s.staleAt (coreSite a.core) spineSite a.route = false ∧
    s.pathClear (coreSite a.core) spineSite a.route = true ∧ 1024 ≤ s.pasHeld :=
  ⟨fullPas, pasAtom .toPas, replyWaiter (.reply 9),
    ⟨by decide +kernel, fullPas_nodup, by decide +kernel, by decide +kernel, by decide +kernel⟩,
    by unfold State.ColophonOff; decide +kernel, rfl, by decide +kernel, by decide +kernel, by decide +kernel,
    Nat.le_of_eq fullPas_held.symm⟩

theorem wit_SequencerEvents_lock : ∃ (s : State) (a : AtomOp) (p : Strand) (n : Word) (r : BitVec 32), s.mem.wf = true ∧
    s.Unwatched ∧ OpAt s a p ∧ s.ColophonOff a.asid ∧ a.stage = .locking n r ∧
    (locTag a.loc = 4 ∨ s.staleAt spineSite (locSite a.loc) a.route = false) ∧ a.kind = .cas ∧
    ∀ b ∈ s.atoms, b.id ≠ a.id → b.loc / 16 = a.loc / 16 → ∀ m, b.stage.number = some m → n.toNat < m.toNat :=
  ⟨withAtom .cas (.locking 4 0), anAtom .cas (.locking 4 0), replyWaiter (.reply 9), 4, 0, by decide +kernel,
    unwatched_of _ (by decide +kernel), opAt_of _ _ _ (by decide +kernel), by unfold State.ColophonOff; decide +kernel, rfl,
    .inr (by decide +kernel), rfl, fun b hb h => by simp [withAtom] at hb; subst hb; exact absurd rfl h⟩

/-- The operation on its way back, over sites in service. -/
def fromHome (k : AtomKind) (st : AtomStage) : State := { toSequencer [] with atoms := [anAtom k st] }

theorem wit_SequencerEvents_result : ∃ (s : State) (a : AtomOp) (p : Strand) (n : Word) (res : BitVec 128), OpAt s a p ∧
    s.resultLost a = false ∧ s.pathClear (locSite a.loc) spineSite (s.route (locSite a.loc) spineSite) = true ∧
    a.stage = .pasResult n res :=
  ⟨fromHome .cas (.pasResult 4 1), anAtom .cas (.pasResult 4 1), replyWaiter (.reply 9), 4, 1,
    opAt_of _ _ _ (by decide +kernel), by decide +kernel, by decide +kernel, rfl⟩

theorem wit_SequencerEvents_fail : ∃ (s : State) (a : AtomOp) (p : Strand) (n : Word), OpAt s a p ∧ s.resultLost a = false ∧
    s.pathClear (locSite a.loc) spineSite (s.route (locSite a.loc) spineSite) = true ∧ a.stage = .pasFail n :=
  ⟨fromHome .rvJoin (.pasFail 4), anAtom .rvJoin (.pasFail 4), replyWaiter (.reply 9), 4, opAt_of _ _ _ (by decide +kernel),
    by decide +kernel, by decide +kernel, rfl⟩

/-- A context that records, with its strand held at lane 2. -/
def recording : State :=
  { placed { replyWaiter (.held 2) with waitNo := 4 } with
    ctxs := [(1, { Ctx.blank with part := 0, mode := .record, segLog := 12 })] }

theorem wit_PresentationEvents : ∃ (s : State) (c n lane : Nat) (p : Strand), (s.core c).phase = .run ∧
    s.strand? c n = some p ∧ p.st = .waiting (.held lane) ∧
    (∀ e ∈ s.cores, ∀ x ∈ e.2.strandsWhere (fun t => t.waitNo == p.waitNo), e.1 = c ∧ x = (.slot n, p)) ∧
    s.mayPresent p.asid.toNat lane p = true ∧
    ∀ e ∈ s.heldStrands p.asid.toNat lane, e.2.2.waitNo < p.waitNo → s.mayPresent p.asid.toNat lane e.2.2 = false :=
  ⟨recording, 16, 0, 2, { replyWaiter (.held 2) with waitNo := 4 }, by decide +kernel, by decide +kernel, rfl,
    by decide +kernel, by decide +kernel, by decide +kernel⟩

theorem wit_PresentationEvents_resend : ∃ (s : State) (a : AtomOp) (p : Strand), OpAt s a p ∧ a.stage = .returned ∧
    (s.core a.core).phase = .run ∧ ∀ m ∈ s.sends, m.id ≠ a.id :=
  ⟨withAtom .cas .returned, anAtom .cas .returned, replyWaiter (.reply 9), opAt_of _ _ _ (by decide +kernel), rfl,
    by decide +kernel, by decide +kernel⟩

/-- A send of the strand. -/
def aSend (pk : Option Nat) (dest : Nat) (st : SendStage) : SendOp where
  id := 9
  core := 16
  slot := 0
  packet := pk
  dest := dest
  msg := aMsg
  d := .g 3
  opd := 0
  stage := st
  pc := 0
  word := WordId.none
  route := 0
  sent := 0
  rsp := (0, 0)

theorem wit_PresentationEvents_send : ∃ (s : State) (m : SendOp), s.atom? m.id = none ∧ m ∈ s.sends ∧
    (s.sends.map (·.id)).Nodup ∧ m.stage = .returned ∧ (m.packet.isSome = true ∨ (s.core m.core).phase = .run) :=
  ⟨{ placed (replyWaiter (.reply 9)) with sends := [aSend none 17 .returned] }, aSend none 17 .returned, by decide +kernel,
    by decide +kernel, by decide +kernel, rfl, .inr (by decide +kernel)⟩

/-! #### Messages, migrations, replies, steals -/

/-- A state with a send on its way to core 17, whose input buffer and spill queue hold some messages. -/
def sending (m : SendOp) (ph : Phase) (box : List ActMsg) (spill : List SpillItem) : State :=
  { placed (replyWaiter (.reply 9)) with
    cores := [(16, core (replyWaiter (.reply 9))),
      (17, { Core.blank with cfg := coreCfg 1 false 0, lcore := 1, phase := ph, inbuf := box, spillQ := spill })]
    sends := [m] }

theorem sendAt_of (s : State) (m : SendOp) (h : s.sends.find? (fun x => x.id == m.id && x.stage == .toDest) = some m)
    (o : (s.sends.map (·.id)).Nodup) (t : m.stage = .toDest) (f : s.ColophonOff m.msg.asid.toNat)
    (c : s.pathClear (coreSite m.core) (coreSite m.dest) m.route = true ∧
      s.behind m.sent m.core m.dest m.route m.msg.urg = false) : SendAt s m := ⟨h, o, t, f, fun _ => ⟨c.1, c.2⟩⟩

theorem wit_MessageEvents_accepted : ∃ (s : State) (m : SendOp), SendAt s m ∧
    s.staleAt (coreSite m.core) (coreSite m.dest) m.route = false ∧ s.takesMsgs m.dest m.msg.asid = true ∧
    (s.core m.dest).phase = .run ∧ (s.core m.dest).inbuf.length < (s.core m.dest).quota :=
  ⟨sending (aSend none 17 .toDest) .run [] [], aSend none 17 .toDest,
    sendAt_of _ _ (by decide +kernel) (by decide +kernel) rfl (by unfold State.ColophonOff; decide +kernel)
      (by decide +kernel), by decide +kernel,
    by decide +kernel, by decide +kernel, by decide +kernel⟩

theorem wit_MessageEvents_refused : ∃ (s : State) (m : SendOp), SendAt s m ∧
    s.staleAt (coreSite m.core) (coreSite m.dest) m.route = false ∧ s.takesMsgs m.dest m.msg.asid = true ∧
    (s.core m.dest).phase = .run ∧ (s.core m.dest).quota ≤ (s.core m.dest).inbuf.length :=
  ⟨sending (aSend none 17 .toDest) .run (List.replicate 32 aMsg) [], aSend none 17 .toDest,
    sendAt_of _ _ (by decide +kernel) (by decide +kernel) rfl (by unfold State.ColophonOff; decide +kernel)
      (by decide +kernel), by decide +kernel,
    by decide +kernel, by decide +kernel, by decide +kernel⟩

theorem wit_MessageEvents_spilled : ∃ (s : State) (m : SendOp), SendAt s m ∧
    s.staleAt (coreSite m.core) (coreSite m.dest) m.route = false ∧ s.takesMsgs m.dest m.msg.asid = true ∧
    (s.core m.dest).phase ≠ .run ∧ spilled s m.dest < 1024 ∧ s.mem.wf = true :=
  ⟨sending (aSend none 17 .toDest) .saved [] (List.replicate 1023 (.msg aMsg)), aSend none 17 .toDest,
    sendAt_of _ _ (by decide +kernel) (by decide +kernel) rfl (by unfold State.ColophonOff; decide +kernel)
      (by decide +kernel), by decide +kernel,
    by decide +kernel, by decide +kernel, by decide +kernel, by decide +kernel⟩

theorem wit_MessageEvents_spillFull : ∃ (s : State) (m : SendOp), SendAt s m ∧
    s.staleAt (coreSite m.core) (coreSite m.dest) m.route = false ∧ s.takesMsgs m.dest m.msg.asid = true ∧
    (s.core m.dest).phase ≠ .run ∧ 1024 ≤ spilled s m.dest :=
  ⟨sending (aSend none 17 .toDest) .saved [] (List.replicate 1024 (.msg aMsg)), aSend none 17 .toDest,
    sendAt_of _ _ (by decide +kernel) (by decide +kernel) rfl (by unfold State.ColophonOff; decide +kernel)
      (by decide +kernel), by decide +kernel,
    by decide +kernel, by decide +kernel, by decide +kernel⟩

theorem wit_MessageEvents_notTaken : ∃ (s : State) (m : SendOp), SendAt s m ∧
    s.staleAt (coreSite m.core) (coreSite m.dest) m.route = false ∧ s.takesMsgs m.dest m.msg.asid = false :=
  ⟨sending (aSend none 18 .toDest) .run [] [], aSend none 18 .toDest,
    sendAt_of _ _ (by decide +kernel) (by decide +kernel) rfl (by unfold State.ColophonOff; decide +kernel)
      (by decide +kernel), by decide +kernel,
    by decide +kernel⟩

/-- A send to a chiplet of another incarnation than the route to it. -/
def staleSend : State :=
  { placed (replyWaiter (.reply 9)) with
    sites := [(1, { st := .live, kind := .bClass, failedEdges := 0, cores := 0xFFFF, lchip := 0, inc := 0, part := 0 }),
      (2, { st := .live, kind := .bClass, failedEdges := 0, cores := 0xFFFF, lchip := 1, inc := 1, part := 0 })]
    sends := [aSend none 32 .toDest] }

theorem wit_MessageEvents_stale : ∃ (s : State) (m : SendOp), SendAt s m ∧ m.packet = none ∧
    s.staleAt (coreSite m.core) (coreSite m.dest) m.route = true :=
  ⟨staleSend, aSend none 32 .toDest,
    sendAt_of _ _ (by decide +kernel) (by decide +kernel) rfl (by unfold State.ColophonOff; decide +kernel)
      (by decide +kernel), rfl,
    by decide +kernel⟩

theorem wit_MessageEvents_status : ∃ (s : State) (m : SendOp) (p : Strand) (st : BitVec 8), s.Unwatched ∧
    s.sends.find? (fun x => x.id == m.id) = some m ∧ m.stage = .status st ∧ m.packet = none ∧
    s.waiter m.core (fun w => w == .reply m.id) = some (.slot m.slot, p) ∧ s.strand? m.core m.slot = some p ∧
    p.stepping = false ∧ p.asid = m.msg.asid ∧ p.lh = m.msg.lh ∧ s.statusLost m = false ∧ s.statusStuck m = false ∧
    s.behindRsp m.dest m.core m.msg.urg m.rsp = false :=
  ⟨sending (aSend none 17 (.status 2)) .run [] [], aSend none 17 (.status 2), replyWaiter (.reply 9), 2,
    unwatched_of _ (by decide +kernel), by decide +kernel, rfl, rfl, by decide +kernel, by decide +kernel, by decide +kernel,
    by decide +kernel, by decide +kernel, by decide +kernel, by decide +kernel, by decide +kernel⟩

theorem wit_MessageEvents_packet : ∃ (s : State) (m : SendOp) (st : BitVec 8), s.Unwatched ∧
    s.sends.find? (fun x => x.id == m.id) = some m ∧ m.stage = .status st ∧ m.packet.isSome = true ∧ st = 1 ∧
    (s.sends.map (·.id)).Nodup :=
  ⟨sending (aSend (some 0) 17 (.status 1)) .run [] [], aSend (some 0) 17 (.status 1), 1, unwatched_of _ (by decide +kernel),
    by decide +kernel, rfl, rfl, rfl, by decide +kernel⟩

/-- A migration to core 17. -/
def aMigration (st : MigStage) : MigOp where
  id := 9
  src := 16
  dest := 17
  strand := mover.migrated
  ord := 0
  opd := 0
  pc := 0
  word := WordId.none
  stage := st
  route := 0
  heldUp := false
  since := 0
  sent := 0

/-- A state with it, and core 17 as given. -/
def migrating (k : Core) : State :=
  { placed idle with cores := [(16, core idle), (17, { k with cfg := coreCfg 1 false 0, lcore := 1 })], migs := [aMigration .toDest] }

theorem migAt_of (s : State) (m : MigOp) (h : s.migs.find? (fun x => x.id == m.id && x.stage == .toDest) = some m)
    (o : (s.migs.map (·.id)).Nodup)
    (c : (s.core m.dest).serves m.strand.asid = true ∧ s.pathClear (coreSite m.src) (coreSite m.dest) m.route = true ∧
      s.behind m.sent m.src m.dest m.route false = false)
    (f : s.ColophonOff m.strand.asid.toNat) : MigAt s m := ⟨h, o, c.1, ⟨c.2.1, c.2.2⟩, f⟩

theorem noFirst_of (s : State) (c : Nat) (h : (∀ e ∈ (s.core c).park, e.2.restorable.isSome = true → e.2.slot.isSome = true) ∧
    ∀ m ∈ s.migs, m.src = c → m.stage ≠ .stale) : NoFirst s c := ⟨h.1, h.2⟩

theorem wit_MigrationEvents_slot : ∃ (s : State) (m : MigOp) (n : Nat), MigAt s m ∧ (s.core m.dest).phase = .run ∧
    (s.core m.dest).freeSlot = some n ∧ NoClaims s m.dest ∧ wfld (s.core m.dest).dbg 4 2 = 0 ∧
    s.staleAt (coreSite m.src) (coreSite m.dest) m.route = false :=
  ⟨migrating Core.blank, aMigration .toDest, 0,
    migAt_of _ _ (by decide +kernel) (by decide +kernel) (by decide +kernel) (by unfold State.ColophonOff; decide +kernel),
    by decide +kernel, by decide +kernel, ⟨noFirst_of _ _ (by decide +kernel), by decide +kernel, by decide +kernel⟩,
    by decide +kernel, by decide +kernel⟩

/-- A core with no slot free and some strands in its migration queue. -/
def fullCore (n : Nat) : Core :=
  { Core.blank with slots := (List.range 64).map fun i => (i, idle), migQ := List.replicate n idle }

theorem wit_MigrationEvents_queued : ∃ (s : State) (m : MigOp), MigAt s m ∧ (s.core m.dest).phase = .run ∧
    SlotsClaimed s m.dest ∧ (s.core m.dest).migQ.length < 4 ∧ s.staleAt (coreSite m.src) (coreSite m.dest) m.route = false :=
  ⟨migrating (fullCore 3), aMigration .toDest,
    migAt_of _ _ (by decide +kernel) (by decide +kernel) (by decide +kernel) (by unfold State.ColophonOff; decide +kernel),
    by decide +kernel, .inl (by decide +kernel), by decide +kernel, by decide +kernel⟩

theorem wit_MigrationEvents_back : ∃ (s : State) (m : MigOp), MigAt s m ∧ (s.core m.dest).phase = .run ∧
    SlotsClaimed s m.dest ∧ 4 ≤ (s.core m.dest).migQ.length ∧ s.staleAt (coreSite m.src) (coreSite m.dest) m.route = false :=
  ⟨migrating (fullCore 4), aMigration .toDest,
    migAt_of _ _ (by decide +kernel) (by decide +kernel) (by decide +kernel) (by unfold State.ColophonOff; decide +kernel),
    by decide +kernel, .inl (by decide +kernel), by decide +kernel, by decide +kernel⟩

theorem wit_MigrationEvents_spilled : ∃ (s : State) (m : MigOp), MigAt s m ∧ (s.core m.dest).phase ≠ .run ∧
    spilled s m.dest < 1024 ∧ s.mem.wf = true ∧ s.staleAt (coreSite m.src) (coreSite m.dest) m.route = false :=
  ⟨migrating { Core.blank with phase := .saved }, aMigration .toDest,
    migAt_of _ _ (by decide +kernel) (by decide +kernel) (by decide +kernel) (by unfold State.ColophonOff; decide +kernel),
    by decide +kernel, by decide +kernel, by decide +kernel, by decide +kernel⟩

/-- The same with a full spill queue at a saved core. -/
def savedFull : State := migrating { Core.blank with phase := .saved, spillQ := List.replicate 1024 (.msg aMsg) }

theorem wit_MigrationEvents_spillFull : ∃ (s : State) (m : MigOp), MigAt s m ∧ (s.core m.dest).phase ≠ .run ∧
    1024 ≤ spilled s m.dest ∧ s.staleAt (coreSite m.src) (coreSite m.dest) m.route = false :=
  ⟨savedFull, aMigration .toDest,
    migAt_of _ _ (by decide +kernel) (by decide +kernel) (by decide +kernel) (by unfold State.ColophonOff; decide +kernel),
    by decide +kernel, by decide +kernel, by decide +kernel⟩

/-- A migration to site 2, whose chiplet has been reset. -/
def toReset : State :=
  { staleSend with
    sends := [], migs := [{ aMigration .toDest with dest := 32 }]
    cores := staleSend.cores ++ [(32, { Core.blank with cfg := coreCfg 1 false 0, lcore := 2 })] }

theorem wit_MigrationEvents_arrivesStale : ∃ (s : State) (m : MigOp), MigAt s m ∧
    s.staleAt (coreSite m.src) (coreSite m.dest) m.route = true :=
  ⟨toReset, { aMigration .toDest with dest := 32 },
    migAt_of _ _ (by decide +kernel) (by decide +kernel) (by decide +kernel) (by unfold State.ColophonOff; decide +kernel),
    by decide +kernel⟩

/-- Core 18 serves no context. -/
theorem wit_MigrationEvents_notServed : ∃ (s : State) (m : MigOp),
    s.migs.find? (fun x => x.id == m.id && x.stage == .toDest) = some m ∧ (s.migs.map (·.id)).Nodup ∧
    (s.core m.dest).serves m.strand.asid = false :=
  ⟨{ placed idle with migs := [{ aMigration .toDest with dest := 18 }] }, { aMigration .toDest with dest := 18 }, by decide +kernel,
    by decide +kernel, by decide +kernel⟩

theorem wit_MigrationEvents_resend : ∃ (s : State) (m : MigOp), m ∈ s.migs ∧ (s.migs.map (·.id)).Nodup ∧ m.stage = .returned ∧
    (m.heldUp = false ∨ (s.core m.src).running = true) :=
  ⟨{ placed idle with migs := [aMigration .returned] }, aMigration .returned, by decide +kernel, by decide +kernel, rfl, .inl rfl⟩

theorem wit_MigrationEvents_stale : ∃ (s : State) (m : MigOp) (n : Nat),
    s.migs.find? (fun x => x.id == m.id && x.stage == .stale) = some m ∧ (s.core m.src).phase = .run ∧
    (s.core m.src).freeSlot = some n ∧ wfld (s.core m.src).dbg 4 2 = 0 ∧
    (s.core m.src).serves m.strand.asid = true ∧ s.firstOf m.src m.since = true :=
  ⟨{ placed idle with migs := [aMigration .stale] }, aMigration .stale, 1, by decide +kernel, by decide +kernel,
    by decide +kernel, by decide +kernel, by decide +kernel, by decide +kernel⟩

/-- A strand that sleeps for the page of request 3. -/
def sleeper : Strand := { near with st := .sleeping { tag := 3, va := 64, word := WordId.none } }

/-- The reply to it. -/
def reply (code : BitVec 8) : PageReply :=
  { site := 1, req := { pageReq with core := 16, slot := 0, sid := 5, lcore := 0 }, code := code }

/-- A state with both. -/
def answered (ph : Phase) (code : BitVec 8) : State :=
  { placed sleeper with cores := [(16, { core sleeper with phase := ph })], pageReplies := [reply code] }

theorem wit_ReplyEvents_page : ∃ (s : State) (r : PageReply) (c n : Nat) (p : Strand) (w : PageWait),
    s.pageReplies.find? (fun x => x.site == r.site && x.req.tag == r.req.tag) = some r ∧ r.req.op = none ∧
    s.cores.findSome? (fun e => (e.2.sleeper r.req).map fun pl => (e.1, pl)) = some (c, .slot n) ∧ n < 64 ∧
    s.strand? c n = some p ∧ p.st = .sleeping w ∧ p.stepping = false ∧ (s.core c).phase = .run ∧ r.code = 0 :=
  ⟨answered .run 0, reply 0, 16, 0, sleeper, _, by decide +kernel, rfl, by decide +kernel, by decide, by decide +kernel, rfl,
    by decide +kernel, by decide +kernel, rfl⟩

theorem wit_ReplyEvents_fault : ∃ (s : State) (r : PageReply) (c n : Nat) (p : Strand) (w : PageWait) (code : Code),
    s.pageReplies.find? (fun x => x.site == r.site && x.req.tag == r.req.tag) = some r ∧ r.req.op = none ∧
    s.cores.findSome? (fun e => (e.2.sleeper r.req).map fun pl => (e.1, pl)) = some (c, .slot n) ∧ n < 64 ∧
    s.strand? c n = some p ∧ p.st = .sleeping w ∧ p.stepping = false ∧ (s.core c).phase = .run ∧
    (r.code, code) ∈ replyFault :=
  ⟨answered .run 0x10, reply 0x10, 16, 0, sleeper, _, .memUncorr, by decide +kernel, rfl, by decide +kernel, by decide,
    by decide +kernel, rfl, by decide +kernel, by decide +kernel, by decide +kernel⟩

theorem wit_ReplyEvents_area : ∃ (s : State) (r : PageReply) (c n : Nat) (p : Strand) (w : PageWait),
    s.pageReplies.find? (fun x => x.site == r.site && x.req.tag == r.req.tag) = some r ∧ r.req.op = none ∧
    s.cores.findSome? (fun e => (e.2.sleeper r.req).map fun pl => (e.1, pl)) = some (c, .slot n) ∧ n < 64 ∧
    s.strand? c n = some p ∧ p.st = .sleeping w ∧ p.stepping = false ∧ (s.core c).phase ≠ .run ∧
    s.mem.wf = true :=
  ⟨answered .saved 0, reply 0, 16, 0, sleeper, _, by decide +kernel, rfl, by decide +kernel, by decide, by decide +kernel, rfl,
    by decide +kernel, by decide +kernel, by decide +kernel⟩

/-- A chiplet at site 2 that has been reset. -/
def resetFar (s : State) : State :=
  { s with sites := [(1, { st := .live, kind := .bClass, failedEdges := 0, cores := 0xFFFF, lchip := 0, inc := 0, part := 0 }),
      (2, { st := .live, kind := .bClass, failedEdges := 0, cores := 0xFFFF, lchip := 1, inc := 1, part := 0 })] }

/-- A load of four bytes of a scratchpad of it. -/
def farLoad : LoadOp :=
  { aLoad (.table pad) 4 none with parts := [{ cells := [(locChip 2 0, none)], ord := .rc, repl := false, mapped := [locChip 2 0], route := 0, sent := 0, rsp := (0, 0) }] }

theorem wit_ReplyEvents_staleLoad : ∃ (s : State) (l : LoadOp) (p : Strand), s.loads.find? (fun m => m.id == l.id) = some l ∧
    s.Unwatched ∧ s.staleLoad l ≠ .no ∧ s.loadPlace l = some (.slot l.slot, p) ∧ (p.st = .ready ∨ p.st = .waiting (.table l.id)) ∧
    s.strand? l.core l.slot = some p ∧ p.stepping = false :=
  ⟨resetFar (loading (replyWaiter (.table 8)) farLoad), farLoad, replyWaiter (.table 8), by decide +kernel,
    unwatched_of _ (by decide +kernel), by decide +kernel, by decide +kernel, .inr (by decide +kernel), by decide +kernel,
    by decide +kernel⟩

theorem wit_ReplyEvents_staleAtom : ∃ (s : State) (a : AtomOp) (p : Strand), (∀ l ∈ s.loads, l.id ≠ a.id) ∧
    s.Unwatched ∧ s.atom? a.id = some a ∧ s.staleAtom a ≠ .no ∧ s.staleWaiter a.core a.id = some (.slot a.slot, p) ∧
    s.strand? a.core a.slot = some p ∧ p.stepping = false :=
  ⟨resetFar (meeting { anAtom .cas .toHome with loc := locChip 2 0 } []), { anAtom .cas .toHome with loc := locChip 2 0 },
    replyWaiter (.reply 9), by decide +kernel, unwatched_of _ (by decide +kernel), by decide +kernel, by decide +kernel,
    by decide +kernel, by decide +kernel, by decide +kernel⟩

theorem wit_ReplyEvents_staleSend : ∃ (s : State) (m : SendOp) (p : Strand), s.Unwatched ∧ (∀ l ∈ s.loads, l.id ≠ m.id) ∧
    s.atom? m.id = none ∧ s.sends.find? (fun x => x.id == m.id && x.packet.isNone) = some m ∧ s.staleSend m ≠ .no ∧
    s.staleWaiter m.core m.id = some (.slot m.slot, p) ∧ s.strand? m.core m.slot = some p ∧ p.stepping = false :=
  ⟨staleSend, aSend none 32 .toDest, replyWaiter (.reply 9), unwatched_of _ (by decide +kernel), by decide +kernel,
    by decide +kernel, by decide +kernel, by decide +kernel, by decide +kernel, by decide +kernel, by decide +kernel⟩

/-- The strand in a WAITCHG at a byte of site 2. -/
def farWatcher : Strand := { replyWaiter (.change (locChip 2 0) 4 0 (.g 3) true .rlx 0) with waitNo := 7 }

theorem wit_ReplyEvents_staleWatch : ∃ (s : State) (id c n : Nat) (p : Strand), s.Unwatched ∧ (∀ l ∈ s.loads, l.id ≠ id) ∧
    s.atom? id = none ∧ (∀ m ∈ s.sends, m.id ≠ id) ∧ s.staleWatch id = some (c, .slot n, p) ∧ s.strand? c n = some p ∧
    p.stepping = false :=
  ⟨resetFar (placed farWatcher), 7, 16, 0, farWatcher, unwatched_of _ (by decide +kernel), by decide +kernel,
    by decide +kernel, by decide +kernel, by decide +kernel, by decide +kernel, by decide +kernel⟩

/-- An atomic to site 2, whose route entry is invalid. -/
def strayed : AtomOp := { anAtom .cas .toHome with loc := locChip 2 0, route := 3 <<< 62 }

/-- A state with it, and a route to that site. -/
def rerouting : State :=
  { resetFar (meeting strayed []) with
    parts := [(0, { Partition.blank with chips := [1, 2], cores := [16, 17] })]
    chiplets := [(1, { Chiplet.blank with pagerCore := 0xFFFE, route := [(1, 0)] })] }

theorem wit_ReplyEvents_routed : ∃ (s : State) (id : Nat) (f : Flight),
    (s.flights id).find? (fun f => !s.pathClear f.src f.dst f.route) = some f ∧ s.routable f.src f.dst = true :=
  ⟨rerouting, 9, { asid := 1, src := 1, dst := 2, route := 3 <<< 62, sid := 5 }, by decide +kernel, by decide +kernel⟩

/-- The same with no route to that site. -/
def noRoute : State :=
  { rerouting with
    chiplets := [(1, { Chiplet.blank with pagerCore := 0xFFFE, route := [] })] }

theorem wit_ReplyEvents_unroutable : ∃ (s : State) (id : Nat) (f : Flight),
    (s.flights id).find? (fun f => !s.pathClear f.src f.dst f.route) = some f ∧ s.routable f.src f.dst = false :=
  ⟨noRoute, 9, { asid := 1, src := 1, dst := 2, route := 3 <<< 62, sid := 5 }, by decide +kernel, by decide +kernel⟩

/-- Ranges of the launch at the chiplet of site 1. -/
def aRange (s n : Nat) (asking : Bool) : DispRange := { asid := 1, lh := 0, s := s, n := n, asked := 0, asking := asking, out := [] }

/-- A state with a range at site 1 and another at site 2. -/
def dispatching (a b : DispRange) (steals : List Steal) : State :=
  { placed idle with
    sites := [(1, { st := .live, kind := .bClass, failedEdges := 0, cores := 0xFFFF, lchip := 0, inc := 0, part := 0 }),
      (2, { st := .live, kind := .bClass, failedEdges := 0, cores := 0xFFFF, lchip := 1, inc := 0, part := 0 })]
    parts := [(0, { Partition.blank with chips := [1, 2], cores := [16, 17, 32, 33] })]
    chiplets := [(1, { Chiplet.blank with ranges := [a] }), (2, { Chiplet.blank with ranges := [b] })]
    ctxs := [(1, { Ctx.blank with part := 0, launches := [(0, { Launch.blank with chips := [0, 1], count := 8, cap := 64, entry := 64 })] })]
    steals := steals }

theorem wit_DispatcherEvents_launched : ∃ (s : State) (site c sl : Nat) (r : DispRange),
    s.nextPlacement site = some (c, .inr r) ∧ r.asid < 4096 ∧ s.ColophonOff r.asid ∧ (s.core c).freeSlot = some sl ∧
    wfld (s.core c).dbg 4 2 = 0 ∧ (∀ x ∈ (s.chip site).ranges, x.asid = r.asid → x.lh = r.lh → x = r) ∧ r.out = [] :=
  ⟨dispatching (aRange 0 4 false) (aRange 4 4 false) [], 1, 17, 0, aRange 0 4 false, by decide +kernel, by decide +kernel,
    by unfold State.ColophonOff; decide +kernel, by decide +kernel, by decide +kernel, by decide +kernel, rfl⟩

/-- The same with a child in the queue of site 1. -/
def withChild : State :=
  { dispatching (aRange 0 4 false) (aRange 4 4 false) [] with
    chiplets := [(1, { Chiplet.blank with children := [mover.migrated] })] }

theorem wit_DispatcherEvents_child : ∃ (s : State) (site c sl : Nat) (p : Strand), s.nextPlacement site = some (c, .inl p) ∧
    s.ColophonOff p.asid.toNat ∧ (s.core c).freeSlot = some sl ∧ wfld (s.core c).dbg 4 2 = 0 ∧ p.wait? = none ∧
    ∀ k ∈ s.siteCores site, (∀ e ∈ (s.core k).slots, e.2.wait? ≠ some .spawn) ∧
      ∀ e ∈ (s.core k).park, e.2.strand.wait? ≠ some .spawn :=
  ⟨withChild, 1, 17, 0, mover.migrated, by decide +kernel, by unfold State.ColophonOff; decide +kernel, by decide +kernel,
    by decide +kernel, by decide +kernel, by decide +kernel⟩

theorem wit_DispatcherEvents_request : ∃ (s : State) (site asid lh v : Nat) (r : DispRange),
    (s.chip site).range asid (BitVec.ofNat 32 lh) = some r ∧ r.n = 0 ∧ r.asking = false ∧ (s.ctx asid).mode ≠ .replay ∧
    (s.bestCore site asid (BitVec.ofNat 32 lh) (some (s.launch asid (BitVec.ofNat 32 lh).toNat).cap)).isSome = true ∧
    s.victim site r = some v :=
  ⟨dispatching (aRange 0 0 false) (aRange 4 4 false) [], 1, 1, 0, 2, aRange 0 0 false, by decide +kernel, rfl, rfl,
    by decide +kernel, by decide +kernel, by decide +kernel⟩

/-- A steal by site 1 from site 2. -/
def aSteal (ans : Option (Nat × Nat)) : Steal :=
  { id := 9, asid := 1, lh := 0, ln := 0, thief := 1, victim := 2, ans := ans }

theorem wit_DispatcherEvents_answer : ∃ (s : State) (x : Steal) (r : DispRange),
    s.steals.find? (fun y => y.id == x.id && y.ans.isNone) = some x ∧ (s.steals.map (·.id)).Nodup ∧ s.ColophonOff x.asid ∧
    (s.chip x.victim).range x.asid x.lh = some r :=
  ⟨dispatching (aRange 0 0 true) (aRange 4 4 false) [aSteal none], aSteal none, aRange 4 4 false, by decide +kernel,
    by decide +kernel, by unfold State.ColophonOff; decide +kernel, by decide +kernel⟩

theorem wit_DispatcherEvents_reply : ∃ (s : State) (x : Steal) (r : DispRange) (first count : Nat),
    s.steals.find? (fun y => y.id == x.id) = some x ∧ x.ans = some (first, count) ∧
    (s.chip x.thief).range x.asid x.lh = some r ∧ r.n = 0 :=
  ⟨dispatching (aRange 0 0 true) (aRange 4 4 false) [aSteal (some (6, 2))], aSteal (some (6, 2)), aRange 0 0 true, 6, 2,
    by decide +kernel, rfl, by decide +kernel, rfl⟩

/-! #### Pre-emption, clusters, the matrix unit, engines -/

theorem wit_PreemptionEvents : ∃ (s : State) (c : Nat), s.Unwatched ∧ s.mem.wf = true ∧ (s.core c).phase = .run ∧ (s.core c).ctxv = true ∧
    Ungang s c ∧ ∃ n p, s.strand? c n = some p ∧ p.st = .ready :=
  ⟨placed idle, 16, unwatched_of _ (by decide +kernel), by decide +kernel, by decide +kernel, by decide +kernel,
    ⟨by decide +kernel, by decide +kernel, by decide +kernel⟩, 0, idle, by decide +kernel, rfl⟩

theorem wit_PreemptionEvents_waiting : ∃ (s : State) (c n : Nat) (p : Strand) (w : Wait), s.Unwatched ∧ s.mem.wf = true ∧
    (s.core c).phase = .run ∧ (s.core c).ctxv = true ∧ Ungang s c ∧ s.strand? c n = some p ∧ p.st = .waiting w ∧
    w.reexecutes = true :=
  ⟨placed mwaiter, 16, 0, mwaiter, .seq 2 9 (.g 3), unwatched_of _ (by decide +kernel), by decide +kernel, by decide +kernel,
    by decide +kernel, ⟨by decide +kernel, by decide +kernel, by decide +kernel⟩, by decide +kernel, rfl, by decide +kernel⟩

/-- The core of the strand in a phase. -/
def inPhase (ph : Phase) : State := { placed idle with cores := [(16, { core idle with phase := ph })] }

theorem wit_PreemptionEvents_phases : (∃ (s : State) (c : Nat), (s.core c).phase = .restoring) ∧
    (∃ (s : State) (c : Nat), s.mem.wf = true ∧ (s.core c).phase = .saving ∧
      inHbm (s.core c).savea.toNat 0x400000 = true ∧ (s.saveByte c 0x1000).isSome ∧ 0 < s.coreWin c ∧
      s.saveLoc c 0x200000 ≠ none ∧ ∃ p, s.strand? c 0 = some p) ∧
    ∃ (s : State) (c : Nat), (s.core c).phase = .quiesce ∧ s.settled c = true :=
  ⟨⟨inPhase .restoring, 16, by decide +kernel⟩, ⟨inPhase .saving, 16, by decide +kernel, by decide +kernel, by decide +kernel, by decide +kernel, by decide +kernel,
      by decide +kernel, idle, rfl⟩,
    ⟨inPhase .quiesce, 16, by decide +kernel, by decide +kernel⟩⟩

theorem wit_PreemptionEvents_unsettled : ∃ (s : State) (c : Nat), (s.core c).phase = .quiesce ∧ s.settled c = false :=
  ⟨{ inPhase .quiesce with writes := [aWrite 0 false] }, 16, by decide +kernel, by decide +kernel⟩

/-- A saved image of core 16. -/
def anImage (k : Core) : Saved := { asid := 1, core := 16, image := k, bytes := [], ops := [], stashed := false }

/-- The core of the strand, saved, with its image. -/
def savedCore (ph : Phase) (pw : Power) : State :=
  { inPhase ph with
    saved := [anImage { core idle with phase := ph }], clusters := [(4, { Cluster.blank with power := pw })] }

theorem wit_PreemptionEvents_resume : ∃ (s : State) (c : Nat), (s.core c).phase = .saved ∧ (s.clu (coreClu c)).power = .up ∧
    ∃ v ∈ s.saved, v.image.savea = (s.core c).savea :=
  ⟨savedCore .saved .up, 16, by decide +kernel, by decide +kernel, by decide +kernel⟩

theorem wit_PreemptionEvents_gated : ∃ (s : State) (c : Nat), (s.core c).phase = .saved ∧ (s.clu (coreClu c)).power = .gated :=
  ⟨savedCore .saved .gated, 16, by decide +kernel, by decide +kernel⟩

theorem wit_PreemptionEvents_restored : ∃ (s : State) (c : Nat) (v : Saved), s.mem.wf = true ∧ (s.core c).phase = .restoring ∧
    s.saved.find? (fun w => w.image.savea == (s.core c).savea) = some v ∧ v.stashed = false ∧ v.core = c ∧
    v.bytes = s.padBytes c ∧ inHbm (s.core c).savea.toNat 0x400000 = true ∧ (s.core c).replies = [] ∧ (s.core c).stopAsks = [] ∧ (s.core c).preemptAsked = false :=
  ⟨savedCore .restoring .up, 16, anImage { core idle with phase := .restoring }, by decide +kernel, by decide +kernel,
    by decide +kernel, rfl, rfl, by decide +kernel, by decide +kernel, by decide +kernel, by decide +kernel, by decide +kernel⟩

theorem wit_PreemptionEvents_rebind : ∃ (s : State) (c d : Nat) (p : Partition), (s.core c).phase = .saved ∧
    (∃ v ∈ s.saved, v.core = c ∧ v.image.savea = (s.core c).savea) ∧ wfld (s.core c).cfg 0 2 = 0 ∧ s.liveCore d = true ∧
    (s.core d).lcore = 0xFFFF ∧ (s.core d).ctxv = false ∧ (s.core c).lcore ≠ 0xFFFF ∧
    (s.site (coreSite c)).kind = (s.site (coreSite d)).kind ∧ p = s.partn (s.site (coreSite c)).part.toNat :=
  ⟨savedCore .saved .up, 16, 19, _, by decide +kernel, by decide +kernel, by decide +kernel, by decide +kernel,
    by decide +kernel, by decide +kernel, by decide +kernel, by decide +kernel, rfl⟩

/-- The state with a translation and no cached line, its strand's PC in the second line. -/
def uncached : State :=
  { placed { idle with pc := 64 } with clusters := [(4, { Cluster.blank with tlb := [lowPage] })] }

theorem wit_ClusterEvents_fill : ∃ (s : State) (k line c : Nat) (e : TlbEntry) (more : List (Nat × TlbEntry)),
    s.fetchMisses k line = (c, e) :: more ∧ ((s.clu k).icSet line).length < 8 :=
  ⟨uncached, 4, 1, 16, lowPage, [], by decide +kernel, by decide +kernel⟩

/-- The 64-bit entries of tables of context 1: level 0 at page 1 of stack 0, level 1 at page 2 (14 R340). -/
def tables : Memory :=
  (cellsOf (locsFrom 0x10000 8) (3 + 2 ^ 52 + 0x20000) ++ cellsOf (locsFrom 0x20000 8) leaf.toNat).filter fun c => c.2 != 0

/-- The state with the tables of context 1. -/
def translating (s : State) : State :=
  { s with mem := tables, spine := { s.spine with asidRoot := [(1, toWord (1 + 2 ^ 52 + 0x10000))] } }

/-- A walk for the strand of core 16. -/
def aWalk : Walk := { id := 9, asid := 1, sec := false, va := 64, waiters := [(16, 0, .fetch, 64)] }

/-- A state with it. -/
def walking : State :=
  translating { placed { idle with pc := 64, walk := some 9 } with clusters := [(4, { Cluster.blank with walks := [aWalk] })] }

theorem wit_ClusterEvents_walk : ∃ (s : State) (k : Nat) (w : Walk) (big : Bool) (pte : Word) (c n : Nat) (kind : ReqKind)
    (va : Word) (p : Strand), ((s.clu k).walks.take 8).find? (fun x => x.id == w.id) = some w ∧
    (s.walkTables k w.asid w.va).leaf = some (big, pte) ∧ s.walkWay k (s.walkTables k w.asid w.va).sites = .clear ∧
    w.waiters = [(c, n, kind, va)] ∧ kind ≠ .engine ∧ s.strand? c n = some p ∧ p.walk = some w.id :=
  ⟨walking, 4, aWalk, true, leaf, 16, 0, .fetch, 64, { idle with pc := 64, walk := some 9 }, by decide +kernel,
    by decide +kernel, by decide +kernel, rfl, by decide, by decide +kernel, rfl⟩

/-- The walk with its tables in stack 1, whose site has failed. -/
def walkingFar : State :=
  { walking with
    sites := [(1, { st := .live, kind := .bClass, failedEdges := 0, cores := 0xFFFF, lchip := 0, inc := 0, part := 0 }),
      (2, { st := .failed, kind := .bClass, failedEdges := 0, cores := 0xFFFF, lchip := 1, inc := 0, part := 0 })]
    parts := [(0, { Partition.blank with chips := [1, 2], cores := [16, 17] })]
    chiplets := [(1, { Chiplet.blank with pagerCore := 0xFFFE, route := [(1, 0)] })]
    spine := { State.reset.spine with asidRoot := [(1, toWord (1 + 2 ^ 52 + 2 ^ 36 + 0x10000))] } }

theorem wit_ClusterEvents_walkHole : ∃ (s : State) (k : Nat) (w : Walk),
    ((s.clu k).walks.take 8).find? (fun x => x.id == w.id) = some w ∧ s.walkWay k (s.walkTables k w.asid w.va).sites = .hole :=
  ⟨walkingFar, 4, aWalk, by decide +kernel, by decide +kernel⟩

/-- The walk of an engine's operation, and the operation. -/
def engineWalk : Walk := { aWalk with waiters := [(16, 9, .engine, 64)] }

/-- A copy that waits for it. -/
def walkingCopy : EngOp := { operation 9 0 1 aCopy .running with walk := some 9 }

theorem wit_ClusterEvents_engine : ∃ (s : State) (k : Nat) (w : Walk) (big : Bool) (pte : Word) (c n : Nat) (va : Word) (o : EngOp),
    ((s.clu k).walks.take 8).find? (fun x => x.id == w.id) = some w ∧
    (s.walkTables k w.asid w.va).leaf = some (big, pte) ∧ s.walkWay k (s.walkTables k w.asid w.va).sites = .clear ∧
    w.waiters = [(c, n, .engine, va)] ∧ EngAt s o ∧ o.id = n ∧ o.walk = some w.id :=
  ⟨{ walking with clusters := [(4, { Cluster.blank with walks := [engineWalk] })], ops := [walkingCopy] }, 4, engineWalk, true,
    leaf, 16, 9, 64, walkingCopy, by decide +kernel, by decide +kernel, by decide +kernel, rfl, ⟨by decide +kernel, by decide +kernel⟩, rfl, rfl⟩

/-- A shoot-down by the strand of core 16. -/
def aShoot (wide refused : Bool) (got : List (Nat × Nat)) : Shoot :=
  { id := 9, core := 16, slot := 0, clu := 4, kind := 3, asid := 0, va := 0, sec := false, wide := wide, refused := refused,
    got := got, acked := [] }

/-- The strand that waits for it. -/
def shooter : Strand := replyWaiter (.tlbinv 9 (.g 3) 2)

/-- A state with both. -/
def shooting (x : Shoot) (box : List Nat) : State :=
  { placed shooter with shoots := [x], clusters := [(4, { Cluster.blank with tlb := [lowPage], mailbox := box })] }

theorem wit_ClusterEvents_shoot : ∃ (s : State) (x : Shoot), s.shoots.find? (fun y => y.id == x.id) = some x ∧
    x.wide = false ∧ x.refused = false ∧ x.got = [] ∧ (s.clu x.clu).power = .up :=
  ⟨shooting (aShoot false false []) [], aShoot false false [], by decide +kernel, rfl, rfl, rfl, by decide +kernel⟩

theorem wit_ClusterEvents_refused : ∃ (s : State) (x : Shoot), s.shoots.find? (fun y => y.id == x.id) = some x ∧
    x.wide = true ∧ x.refused = false ∧ x.got = [] ∧ s.shootRoot x = x.clu ∧ 8 ≤ (s.clu x.clu).mailbox.length :=
  ⟨shooting (aShoot true false []) (List.range 8), aShoot true false [], by decide +kernel, rfl, rfl, rfl, by decide +kernel,
    by decide +kernel⟩

theorem wit_ClusterEvents_acked : ∃ (s : State) (x : Shoot) (mark n : Nat) (p : Strand) (d : Dst),
    s.shoots.find? (fun y => y.id == x.id) = some x ∧ s.Unwatched ∧ x.wide = false ∧ x.got = [(x.clu, mark)] ∧ x.acked = [] ∧
    s.drainedClu x.clu mark = true ∧
    s.waiter x.core (fun w => match w with | .tlbinv m _ _ => m == x.id | _ => false) = some (.slot x.slot, p) ∧
    s.strand? x.core x.slot = some p ∧ p.st = .waiting (.tlbinv x.id d n) ∧ p.stepping = false :=
  ⟨shooting (aShoot false false [(4, 0)]) [], aShoot false false [(4, 0)], 0, 2, shooter, .g 3, by decide +kernel,
    unwatched_of _ (by decide +kernel), rfl, rfl, rfl, by decide +kernel, by decide +kernel, by decide +kernel,
    by decide +kernel, by decide +kernel⟩

theorem wit_ClusterEvents_wide : ∃ (s : State) (x : Shoot) (mark : Nat), s.shoots.find? (fun y => y.id == x.id) = some x ∧
    x.wide = true ∧ x.got = [(x.clu, mark)] ∧ x.acked = [] ∧ s.shootRoot x = x.clu ∧ s.treeChildren x.clu = [] ∧
    (s.clu x.clu).mailbox.head? = some x.id ∧ (s.links.any fun e => !e.2.sent.isEmpty) = false ∧ s.drainedClu x.clu mark = true :=
  ⟨{ shooting (aShoot true false [(4, 0)]) [9] with links := [(0, { Link.blank with tcache := [lowPage] })] },
    aShoot true false [(4, 0)], 0, by decide +kernel, rfl, rfl, rfl, by decide +kernel, by decide +kernel, by decide +kernel,
    by decide +kernel, by decide +kernel⟩

/-- A core with a matrix queue. -/
def computing (q : List MEntry) (mem : Memory) : State :=
  { placed idle with cores := [(16, { core idle with mtx := { Matrix.blank with queue := q } })], mem := mem }

theorem wit_MatrixEvents_start : ∃ (s : State) (c : Nat) (e : MEntry), EntryAt s c e ∧ (s.core c).entryReady e = true ∧
    e.pair = none ∧ (s.core c).park = [] ∧ e.body.empty = false ∧ (s.core c).earlyChecks e.body = none ∧
    (s.claimFor c e.body).placeChecks c e.body ((s.core c).entryBase e.body) = none ∧
    ∀ x b st m, e.body = .drain x b st m → x.src = false :=
  ⟨computing [matrixEntry 1 (.load .int8 pad 128 none) .queued] [], 16, matrixEntry 1 (.load .int8 pad 128 none) .queued,
    ⟨by decide +kernel, by decide +kernel⟩, by decide +kernel, rfl, by decide +kernel, by decide +kernel, by decide +kernel,
    by decide +kernel, fun _ _ _ _ h => by cases h⟩

/-- A drain of one row of two cells, into a circular buffer or not. -/
def aDrain (src : Bool) : MDrainX :=
  { clr := true, src := src, sat := false, dfmt := .bf16, cb := 0, set := 3, nlen := 2, col0 := 62, row0 := 0 }

/-- A core with an entry that drains into a slot of descriptor 0. -/
def draining : State :=
  { placed idle with
    cores := [(16, { core idle with
      mtx := { Matrix.blank with queue := [matrixEntry 1 (.drain (aDrain true) 0 64 1) .queued] }
      cbd := vset Core.blank.cbd 0
        { CbDesc.blank with valid := true, slotb := 1, nslot := 3, fills := 4, pops := 3, claims := 4, prod := 2 } })] }

theorem wit_MatrixEvents_startClaim : ∃ (s : State) (c : Nat) (e : MEntry) (x : MDrainX) (b st : Word) (m : Nat), EntryAt s c e ∧
    (s.core c).entryReady e = true ∧ e.pair = none ∧ (s.core c).park = [] ∧ e.body.empty = false ∧
    (s.core c).earlyChecks e.body = none ∧ (s.claimFor c e.body).placeChecks c e.body ((s.core c).entryBase e.body) = none ∧
    e.body = .drain x b st m ∧ x.src = true :=
  ⟨draining, 16, matrixEntry 1 (.drain (aDrain true) 0 64 1) .queued, aDrain true, 0, 64, 1,
    ⟨by decide +kernel, by decide +kernel⟩, by decide +kernel, rfl, by decide +kernel, by decide +kernel, by decide +kernel,
    by decide +kernel, rfl, rfl⟩

/-- A stream of one row of two elements into one column. -/
def oneRow : MStreamX :=
  { src := false, asc := false, clr := true, afmt := .int8, set := 0, klen := 2, nlen := 1, row0 := 0, col0 := 63, cb := 0 }

theorem wit_MatrixEvents_row : ∃ (s : State) (c : Nat) (e : MEntry) (x : MStreamX) (base st : Word) (m set r : Nat)
    (row sc : Word × Nat) (a : List FV) (ea : List Byte), s.Unwatched ∧ EntryAt s c e ∧ e.st = .running ∧
    (s.core c).phase = .run ∧ e.body = .stream x base st m ∧
    (∀ f ∈ (s.core c).mtx.queue.takeWhile (fun f => f.ticket != e.ticket), f.st = .running →
      ∀ y b st m, f.body ≠ .stream y b st m) ∧
    row = (e.base + BitVec.ofNat 64 e.row * st, x.klen.toNat * x.afmt.bytes) ∧
    sc = (e.base + BitVec.ofNat 64 m * st + BitVec.ofNat 64 (4 * e.row), if x.asc then 4 else 0) ∧
    s.spansUncorr c [row, sc] = none ∧
    a = (List.range x.klen.toNat).map (fun k => elemValue x.afmt.elem
      (leNat ((((spanLocs c row).map (memGet s.mem)).drop (x.afmt.bytes * k)).take x.afmt.bytes))) ∧
    ea = (spanLocs c sc).map (memGet s.mem) ∧ (set, r) = (s.core c).mtx.place x.set.toNat x.row0.toNat e.row ∧ set < 4 ∧
    x.col0.toNat + x.nlen.toNat ≤ shapeCols ((s.core c).mtx.set set).shape ∧
    (x.clr = true ∨ ((s.core c).mtx.set set).rowBad r x.col0.toNat x.nlen.toNat = false) :=
  ⟨computing [{ matrixEntry 1 (.stream oneRow pad 2 1) .running with base := pad }] [], 16,
    { matrixEntry 1 (.stream oneRow pad 2 1) .running with base := pad }, oneRow, pad, 2, 1, 0, 0, _, _, _, _,
    unwatched_of _ (by decide +kernel), ⟨by decide +kernel, by decide +kernel⟩, rfl, by decide +kernel, rfl,
    fun f h => by simp [computing, State.core, tget, tfind, matrixEntry] at h, rfl, rfl, by decide +kernel, rfl, rfl, by decide +kernel,
    by decide, by decide +kernel, .inl rfl⟩

/-- A core whose matrix unit runs a drain of the last two columns of a set into its scratchpad. -/
def drainsRow : State := computing [{ matrixEntry 1 (.drain (aDrain false) pad 64 1) .running with base := pad }] []

theorem wit_MatrixEvents_drainRow : ∃ (s : State) (c : Nat) (e : MEntry) (x : MDrainX) (base st : Word) (m set r : Nat)
    (cells : List Host.Cell), s.mem.wf = true ∧ s.Unwatched ∧ EntryAt s c e ∧ e.st = .running ∧ (s.core c).phase = .run ∧
    e.body = .drain x base st m ∧ (set, r) = (s.core c).mtx.place x.set.toNat x.row0.toNat e.row ∧ set < 4 ∧
    x.col0.toNat + x.nlen.toNat ≤ shapeCols ((s.core c).mtx.set set).shape ∧
    ((s.core c).mtx.set set).rowBad r x.col0.toNat x.nlen.toNat = false ∧
    cells = (List.range x.nlen.toNat).flatMap (fun n =>
      (spanLocs c (e.base + BitVec.ofNat 64 e.row * st + BitVec.ofNat 64 (x.dfmt.bytes * n), x.dfmt.bytes)).zip
        (leBytes x.dfmt.bytes (drainRule x.dfmt x.sat (((s.core c).mtx.set set).cell r (x.col0.toNat + n))))) ∧
    (cells.map (·.1)).Nodup :=
  ⟨drainsRow, 16, { matrixEntry 1 (.drain (aDrain false) pad 64 1) .running with base := pad }, aDrain false, pad, 64, 1, 3, 0, _,
    by decide +kernel, unwatched_of _ (by decide +kernel), ⟨by decide +kernel, by decide +kernel⟩, rfl, by decide +kernel, rfl,
    by decide +kernel, by decide, by decide +kernel, by decide +kernel, rfl, by decide +kernel⟩

theorem wit_MatrixEvents_load : ∃ (s : State) (c : Nat) (e : MEntry) (wf : MFmt) (src st : Word) (sc : Option Word), EntryAt s c e ∧
    (s.core c).phase = .run ∧ Waitless s c ∧ (s.core c).done = [] ∧ e.ticket = vget 0 (s.core c).eseq 2 + 1 ∧ e.st = .running ∧
    e.body = .load wf src st sc ∧ s.Unwatched ∧ s.spansUncorr c (e.body.spans src) = none :=
  ⟨computing [matrixEntry 1 (.load .int8 pad 128 none) .running] [], 16, matrixEntry 1 (.load .int8 pad 128 none) .running,
    .int8, pad, 128, none, ⟨by decide +kernel, by decide +kernel⟩, by decide +kernel, ⟨by decide +kernel, by decide +kernel⟩,
    by decide +kernel, by decide +kernel, rfl, rfl, unwatched_of _ (by decide +kernel), by decide +kernel⟩

theorem wit_MatrixEvents_book : ∃ (s : State) (c : Nat) (e : MEntry) (a : Word), EntryAt s c e ∧
    (s.core c).phase = .run ∧ Waitless s c ∧ (s.core c).done = [] ∧ e.ticket = vget 0 (s.core c).eseq 2 + 1 ∧ e.st = .running ∧
    e.body = .book a ∧ s.Unwatched ∧ s.spansUncorr c [(a, 32)] = none :=
  ⟨computing [matrixEntry 1 (.book pad) .running] [], 16, matrixEntry 1 (.book pad) .running, pad,
    ⟨by decide +kernel, by decide +kernel⟩, by decide +kernel, ⟨by decide +kernel, by decide +kernel⟩, by decide +kernel,
    by decide +kernel, rfl, rfl, unwatched_of _ (by decide +kernel), by decide +kernel⟩

theorem wit_MatrixEvents_clear : ∃ (s : State) (c : Nat) (e : MEntry) (shape : Bool) (n : Nat), EntryAt s c e ∧
    (s.core c).phase = .run ∧ Waitless s c ∧ (s.core c).done = [] ∧ e.ticket = vget 0 (s.core c).eseq 2 + 1 ∧ e.st = .running ∧
    e.body = .clear shape n ∧ n < 4 ∧ s.Unwatched ∧ (s.core c).mtx.queue = [e] :=
  ⟨computing [matrixEntry 1 (.clear true 3) .running] [], 16, matrixEntry 1 (.clear true 3) .running, true, 3,
    ⟨by decide +kernel, by decide +kernel⟩, by decide +kernel, ⟨by decide +kernel, by decide +kernel⟩, by decide +kernel,
    by decide +kernel, rfl, rfl, by decide, unwatched_of _ (by decide +kernel), by decide +kernel⟩

theorem wit_MatrixEvents_swap : ∃ (s : State) (c : Nat) (e : MEntry), EntryAt s c e ∧ (s.core c).phase = .run ∧ e.st = .running ∧
    e.body = .swap ∧ Waitless s c ∧ (s.core c).done = [] ∧ e.ticket = vget 0 (s.core c).eseq 2 + 1 :=
  ⟨computing [matrixEntry 1 .swap .running] [], 16, matrixEntry 1 .swap .running, ⟨by decide +kernel, by decide +kernel⟩,
    by decide +kernel, rfl, rfl, ⟨by decide +kernel, by decide +kernel⟩, by decide +kernel, by decide +kernel⟩

theorem wit_MatrixEvents_void : ∃ (s : State) (c : Nat) (e : MEntry), EntryAt s c e ∧ (s.core c).phase = .run ∧ e.st = .void ∧
    e.claim = none ∧ Waitless s c ∧ (s.core c).done = [] ∧ e.ticket = vget 0 (s.core c).eseq 2 + 1 :=
  ⟨computing [matrixEntry 1 .swap .void] [], 16, matrixEntry 1 .swap .void, ⟨by decide +kernel, by decide +kernel⟩,
    by decide +kernel, rfl, rfl, ⟨by decide +kernel, by decide +kernel⟩, by decide +kernel, by decide +kernel⟩

/-- A core with an operation of an engine and circular buffer 0 set up for its path. -/
def operating (o : EngOp) : State :=
  { placed idle with
    cores := [(16, { core idle with
      cbd := vset Core.blank.cbd 0 { CbDesc.blank with valid := true, slotb := 1, nslot := 3, fills := 4, pops := 3, claims := 4, prod := 1, cons := 1 } })]
    ops := [o] }

theorem engAt_of (s : State) (o : EngOp) (h : s.ops.find? (fun x => x.id == o.id) = some o ∧ (s.ops.map (·.id)).Nodup) :
    EngAt s o := ⟨h.1, h.2⟩

theorem wit_EngineEvents_copy : ∃ (s : State) (o : EngOp), EngAt s o ∧ s.copyMayStart o = true ∧ o.body.nothing = false ∧
    (s.core o.core).copyCheck o.body = none ∧
    ∃ src dst pl ro le a b d e lo sy ba, o.body = .copy src dst pl ro le a b d e lo sy ba :=
  ⟨operating (operation 9 0 1 aCopy .queued), operation 9 0 1 aCopy .queued, engAt_of _ _ (by decide +kernel),
    by decide +kernel, by decide +kernel, by decide +kernel, ⟨_, _, _, _, _, _, _, _, _, _, _, _, rfl⟩⟩

theorem wit_EngineEvents_drain : ∃ (s : State) (o : EngOp), EngAt s o ∧ s.copyMayStart o = true ∧ o.body.nothing = false ∧
    (s.core o.core).copyCheck o.body = none ∧ ∃ cb ad sd pl ro le lo sy, o.body = .drain cb ad sd pl ro le lo sy :=
  ⟨operating (operation 9 0 1 (.drain 0 pad 0 0 1 64 false false) .queued),
    operation 9 0 1 (.drain 0 pad 0 0 1 64 false false) .queued, engAt_of _ _ (by decide +kernel),
    by decide +kernel, by decide +kernel, by decide +kernel, ⟨_, _, _, _, _, _, _, _, rfl⟩⟩

theorem wit_EngineEvents_fill : ∃ (s : State) (o : EngOp), EngAt s o ∧ s.copyMayStart o = true ∧ o.body.nothing = false ∧
    (s.core o.core).copyCheck o.body = none ∧ ∃ cb ad sd pl ro le lo sy, o.body = .fill cb ad sd pl ro le lo sy :=
  ⟨operating (operation 9 0 1 (.fill 0 pad 0 0 1 64 false false) .queued),
    operation 9 0 1 (.fill 0 pad 0 0 1 64 false false) .queued, engAt_of _ _ (by decide +kernel),
    by decide +kernel, by decide +kernel, by decide +kernel, ⟨_, _, _, _, _, _, _, _, rfl⟩⟩

/-- The copy, running. -/
def runningCopy : EngOp := operation 9 0 1 aCopy .running

/-- Its eight bytes, source and destination. -/
def copiedPairs : List (Word × Word) := (locsFrom 0 8).map ((operating runningCopy).copyPair runningCopy)

/-- Whether a byte of an engine's span has one location, that passes the checks, of a page with no replicas. -/
def bytePasses (s : State) (o : EngOp) (pages : Tbl Got) (rd wr : Bool) (a : Word) : Bool :=
  match s.engByte o pages rd wr a with
  | .ok [l] _ false => !s.bad l && s.wayTo (coreSite o.core) (locSite l) == .clear && !s.replLocked l
  | _ => false

theorem bytePasses_spec (s : State) (o : EngOp) (pages : Tbl Got) (rd wr : Bool) (a : Word)
    (h : bytePasses s o pages rd wr a = true) : ∃ l sl, s.engByte o pages rd wr a = .ok [l] sl false ∧ s.bad l = false ∧
      s.wayTo (coreSite o.core) (locSite l) = .clear ∧ s.replLocked l = false := by
  unfold bytePasses at h
  split at h
  · rename_i l sl e
    simp only [Bool.and_eq_true, Bool.not_eq_true', beq_iff_eq] at h
    exact ⟨l, sl, e, h.1.1, h.1.2, h.2⟩
  · cases h

/-- A span whose bytes all pass. -/
theorem spanClear_of (s : State) (o : EngOp) (pages : Tbl Got) (src dst : List Word)
    (hs : (src.all fun a => bytePasses s o pages true false a) = true)
    (hd : (dst.all fun a => bytePasses s o pages false true a) = true) : SpanClear s o pages src dst := by
  refine ⟨fun a h => ?_, fun a h => ?_⟩
  · obtain ⟨l, sl, e, x⟩ := bytePasses_spec _ _ _ _ _ _ (List.all_eq_true.mp hs a h)
    exact ⟨l, sl, false, e, x⟩
  · obtain ⟨l, sl, e, b, x⟩ := bytePasses_spec _ _ _ _ _ _ (List.all_eq_true.mp hd a h)
    exact ⟨l, sl, e, fun _ => b, x⟩

/-- The state of the copy. -/
def copying : State := operating runningCopy

/-- The pages of its span. -/
def copiedPages : Tbl Got := copying.engPages runningCopy (copiedPairs.flatMap fun p => [p.1, p.2])

theorem copying_clear : SpanClear copying runningCopy copiedPages (copiedPairs.map Prod.fst) (copiedPairs.map Prod.snd) :=
  spanClear_of _ _ _ _ _ (by decide +kernel) (by decide +kernel)

theorem copiedPairs_eq : copiedPairs = (locsFrom runningCopy.pos 8).map (copying.copyPair runningCopy) := rfl

theorem copying_cells : ((spanCells copying runningCopy copiedPages copiedPairs).map Prod.fst).Nodup := by decide +kernel

theorem wit_EngineEvents_span : ∃ (s : State) (o : EngOp) (n : Nat) (pairs : List (Word × Word)) (pages : Tbl Got),
    s.mem.wf = true ∧ s.Unwatched ∧ EngAt s o ∧ o.st = .running ∧ s.opRuns o = true ∧ o.walk = none ∧ s.opWriting o = false ∧
    (∀ x w xv y st, o.body ≠ .hgemv x w xv y st) ∧ o.qp? = none ∧ n = min 4096 (o.body.total - o.pos) ∧ pairs = (locsFrom o.pos n).map (s.copyPair o) ∧
    s.engPages o (pairs.flatMap fun p => [p.1, p.2]) = pages ∧
    SpanClear s o pages (pairs.map Prod.fst) (pairs.map Prod.snd) ∧ ((spanCells s o pages pairs).map Prod.fst).Nodup :=
  ⟨copying, runningCopy, 8, copiedPairs, copiedPages, by decide +kernel, unwatched_of _ (by decide +kernel),
    engAt_of _ _ (by decide +kernel), by decide +kernel, by decide +kernel, rfl, by decide +kernel,
    (fun _ _ _ _ _ h => by cases h), rfl, by decide +kernel, copiedPairs_eq, rfl, copying_clear, copying_cells⟩

/-- A fill of eight bytes of a slot, running, from beyond the buffer. -/
def runningFill : EngOp := { operation 9 0 1 (.fill 0 (pad + 0x1000) 0 0 1 8 false false) .running with slotNo := some 4 }

/-- Its pairs. -/
def filledPairs : List (Word × Word) := (locsFrom 0 8).map ((operating runningFill).copyPair runningFill)

theorem wit_EngineEvents_fillSpan : ∃ (s : State) (o : EngOp) (pages : Tbl Got) (pairs : List (Word × Word)), EngAt s o ∧
    o.st = .running ∧ s.opRuns o = true ∧ o.walk = none ∧ s.opWriting o = false ∧
    (∃ cb ad sd pl ro le lo sy, o.body = .fill cb ad sd pl ro le lo sy) ∧
    (∃ n, o.slotNo = some n) ∧ pairs = (locsFrom o.pos (min 4096 (o.body.total - o.pos))).map (s.copyPair o) ∧
    s.engPages o (pairs.flatMap fun p => [p.1, p.2]) = pages ∧
    SpanClear s o pages (pairs.map Prod.fst) (pairs.map Prod.snd) ∧ ((spanCells s o pages pairs).map Prod.fst).Nodup :=
  ⟨operating runningFill, runningFill, _, filledPairs, engAt_of _ _ (by decide +kernel), rfl, by decide +kernel, rfl,
    by decide +kernel, ⟨_, _, _, _, _, _, _, _, rfl⟩, ⟨_, rfl⟩, rfl, rfl,
    spanClear_of _ _ _ _ _ (by decide +kernel) (by decide +kernel), by decide +kernel⟩

/-- A drain of eight bytes of a slot, running, to beyond the buffer. -/
def runningDrain : EngOp := { operation 9 0 1 (.drain 0 (pad + 0x1000) 0 0 1 8 false false) .running with slotNo := some 3 }

/-- Its pairs. -/
def drainedPairs : List (Word × Word) := (locsFrom 0 8).map ((operating runningDrain).copyPair runningDrain)

theorem wit_EngineEvents_drainSpan : ∃ (s : State) (o : EngOp) (pages : Tbl Got) (pairs : List (Word × Word)), EngAt s o ∧
    o.st = .running ∧ s.opRuns o = true ∧ o.walk = none ∧ s.opWriting o = false ∧
    (∃ cb ad sd pl ro le lo sy, o.body = .drain cb ad sd pl ro le lo sy) ∧
    (∃ n, o.slotNo = some n) ∧ pairs = (locsFrom o.pos (min 4096 (o.body.total - o.pos))).map (s.copyPair o) ∧
    s.engPages o (pairs.flatMap fun p => [p.1, p.2]) = pages ∧
    SpanClear s o pages (pairs.map Prod.fst) (pairs.map Prod.snd) ∧ ((spanCells s o pages pairs).map Prod.fst).Nodup :=
  ⟨operating runningDrain, runningDrain, _, drainedPairs, engAt_of _ _ (by decide +kernel), rfl, by decide +kernel, rfl,
    by decide +kernel, ⟨_, _, _, _, _, _, _, _, rfl⟩, ⟨_, rfl⟩, rfl, rfl,
    spanClear_of _ _ _ _ _ (by decide +kernel) (by decide +kernel), by decide +kernel⟩

theorem wit_EngineEvents_complete : ∃ (s : State) (o : EngOp), EngAt s o ∧ o.st = .ended ∧ s.opRuns o = true ∧ s.opWriting o = false ∧ o.cls < 3 ∧
    o.slotNo = none ∧ o.qp? = none ∧ o.engine < 4 ∧ Waitless s o.core ∧ (s.core o.core).done = [] ∧
    o.ticket = vget 0 (s.core o.core).eseq o.cls + 1 :=
  ⟨operating (operation 9 0 1 aCopy .ended), operation 9 0 1 aCopy .ended, engAt_of _ _ (by decide +kernel), rfl,
    by decide +kernel, by decide +kernel, by decide, rfl, by decide +kernel, by decide, ⟨by decide +kernel, by decide +kernel⟩,
    by decide +kernel, by decide +kernel⟩

/-- A product of one row by one column. -/
def aProduct : HgemvX :=
  { wfmt := .bf16, acc := false, wsc := false, npc := 0, n := 1, k := 1, stride := 2 }

/-- It stands at its base die. -/
def atStack : EngOp := { operation 9 1 1 (.hgemv aProduct 0 pad pad 0) .queued with arrived := some 2 }

theorem wit_EngineEvents_baseDie : ∃ (s : State) (o : EngOp) (x : HgemvX) (w xv y : Word) (stack : Nat), EngAt s o ∧
    o.body = .hgemv x w xv y stack ∧
    (∀ e ∈ s.atBaseDie stack, e.st ≠ .running) ∧
    (s.atBaseDie stack).find? (fun e => e.st == .queued && s.opRuns e) = some o :=
  ⟨operating atStack, atStack,
    aProduct, 0, pad, pad, 0, engAt_of _ _ (by decide +kernel), rfl, by decide +kernel, by decide +kernel⟩

/-- Whether a byte of weights lies in a page of its stack. -/
def weightPasses (s : State) (o : EngOp) (pages : Tbl Got) (stack : Nat) (a : Word) : Bool :=
  match s.engByte o pages true false a with
  | .ok [l] true _ => l / 2 ^ 36 == stack
  | _ => false

theorem weightPasses_spec (s : State) (o : EngOp) (pages : Tbl Got) (stack : Nat) (a : Word)
    (h : weightPasses s o pages stack a = true) : ∃ l r, s.engByte o pages true false a = .ok [l] true r ∧ l / 2 ^ 36 = stack := by
  unfold weightPasses at h
  split at h
  · rename_i l r e
    exact ⟨l, r, e, by simpa using h⟩
  · cases h

theorem all_of {α : Type} {P : α → Prop} [DecidablePred P] (l : List α) (h : (l.all fun a => decide (P a)) = true) :
    ∀ a ∈ l, P a :=
  fun a m => of_decide_eq_true (List.all_eq_true.mp h a m)

/-- The product, running, with x and y in the chiplet's scratchpad. -/
def productAt : EngOp :=
  { operation 9 1 1 (.hgemv { aProduct with acc := true } 0 (0xF2 <<< 56) ((0xF2 <<< 56) + 64) 0) .running with arrived := some 2 }

/-- Its state. -/
def multiplying : State := { operating productAt with clusters := [(4, { Cluster.blank with tlb := [lowPage] })] }

/-- The addresses that its one output reads, and those that it writes. -/
def productReads : List Word × List Word × List Word := hgemvReads { aProduct with acc := true } 0 (0xF2 <<< 56) 0

/-- The bytes of its output. -/
def productWrites : List Word := (List.range 4).map fun i => (0xF2 <<< 56) + 64 + BitVec.ofNat 64 i

/-- The pages of its span. -/
def productPages : Tbl Got :=
  multiplying.engPages productAt (productReads.1 ++ productReads.2.1 ++ productReads.2.2 ++ productWrites)

theorem wit_EngineEvents_product : ∃ (s : State) (o : EngOp) (x : HgemvX) (w xv y : Word) (stack : Nat) (ax aw as ay : List Word)
    (pages : Tbl Got) (ls : List Nat), s.mem.wf = true ∧ s.Unwatched ∧ EngAt s o ∧ o.st = .running ∧ s.opRuns o = true ∧
    o.walk = none ∧ s.opWriting o = false ∧ o.body = .hgemv x w xv y stack ∧ (ax, aw, as) = hgemvReads x w xv o.pos ∧
    ay = (List.range 4).map (fun i => y + BitVec.ofNat 64 (4 * o.pos + i)) ∧ s.engPages o (ax ++ aw ++ as ++ ay) = pages ∧
    SpanClear s o pages (ax ++ aw ++ as) [] ∧ (∀ a ∈ ax, wfld a 56 8 = 0 ∨ wfld a 56 8 = 0xF2 ∨ wfld a 56 8 = 0xF5) ∧
    (∀ a ∈ aw, ∃ l r, s.engByte o pages true false a = .ok [l] true r ∧ l / 2 ^ 36 = stack) ∧
    (∀ a ∈ ay, ∃ l b, s.engByte o pages x.acc true a = .ok [l] b false ∧ s.bad l = false ∧
      s.wayTo (coreSite o.core) (locSite l) = .clear ∧ s.replLocked l = false) ∧
    ls = ay.map (fun a => (s.engByte o pages x.acc true a).locs.headD 0) ∧ ls.Nodup :=
  ⟨multiplying, productAt, { aProduct with acc := true }, 0, 0xF2 <<< 56, (0xF2 <<< 56) + 64, 0, productReads.1, productReads.2.1,
    productReads.2.2, productWrites, productPages, _, by decide +kernel, unwatched_of _ (by decide +kernel),
    engAt_of _ _ (by decide +kernel), rfl, by decide +kernel, rfl, by decide +kernel, rfl, by decide +kernel, by decide +kernel, rfl,
    spanClear_of _ _ _ _ _ (by decide +kernel) (by decide +kernel), all_of _ (by decide +kernel),
    fun a h => weightPasses_spec _ _ _ _ _ (List.all_eq_true.mp
      (by decide +kernel : productReads.2.1.all (weightPasses multiplying productAt productPages 0) = true) a h),
    fun a h => bytePasses_spec _ _ _ _ _ _ (List.all_eq_true.mp
      (by decide +kernel : productWrites.all (bytePasses multiplying productAt productPages true true) = true) a h),
    rfl, by decide +kernel⟩

/-- A remote write of eight bytes by queue pair 3. -/
def aPost (len : Nat) : EngBody := .rma .write pad 0 0x100 3 len false false

theorem postTurn_of (s : State) (o : EngOp) (qp : Nat) (f : Bool)
    (h : (s.ops.find? (fun x => x.id == o.id) = some o ∧ (s.ops.map (·.id)).Nodup) ∧ o.st = .queued ∧ s.opRuns o = true ∧
      o.walk = none ∧ s.earlierPosts o = []) (r : ∀ q, tfind s.qps qp = some q → q.asid.toNat = o.asid → q.resident = true ∧ q.backoff = false) :
    PostTurn s o qp f :=
  ⟨engAt_of _ _ h.1, h.2.1, h.2.2.1, h.2.2.2.1, fun e m => by simp [h.2.2.2.2] at m, fun _ => h.2.2.2.2, r⟩

theorem wit_EngineEvents_rma : ∃ (s : State) (o : EngOp) (op : RmaOp) (a off : Word) (key : BitVec 32) (qp len : Nat)
    (sy fe : Bool), PostTurn s o qp fe ∧ o.body = .rma op a off key qp len sy fe ∧ 0 < len ∧
    (∀ q, tfind s.qps qp = some q → q.asid.toNat ≠ o.asid) ∧ o.cls = 3 ∧ Waitless s o.core ∧
    ∃ p ∈ (s.core o.core).allStrands, p.own = o.own :=
  ⟨operating (operation 9 3 1 (aPost 8) .queued), operation 9 3 1 (aPost 8) .queued, .write, pad, 0, 0x100, 3, 8, false, false,
    postTurn_of _ _ _ _ (by decide +kernel) (fun _ h => by cases h), rfl, by decide, (fun _ h => by cases h), rfl,
    ⟨by decide +kernel, by decide +kernel⟩, by decide +kernel⟩

theorem wit_EngineEvents_rmaEmpty : ∃ (s : State) (o : EngOp) (op : RmaOp) (a off : Word) (key : BitVec 32) (qp len : Nat)
    (sy fe : Bool), PostTurn s o qp fe ∧ o.body = .rma op a off key qp len sy fe ∧ len = 0 :=
  ⟨operating (operation 9 3 1 (aPost 0) .queued), operation 9 3 1 (aPost 0) .queued, .write, pad, 0, 0x100, 3, 0, false, false,
    postTurn_of _ _ _ _ (by decide +kernel) (fun _ h => by cases h), rfl, rfl⟩

/-! #### Sites, partitions, power, the Spine -/

/-- The Spine as it starts, with the image that the module carries, in recovery or not. -/
def carrying (fw : Option FwImage) (r : Bool) : State :=
  { State.reset with spine := { State.reset.spine with fw := fw, recovery := r } }

theorem wit_BringupEvents_images : (∃ (s : State) (given image : FwImage), image = s.spine.fw.getD given ∧
      s.spine.powered = false ∧ image.signed = true ∧ s.spine.minVersion ≤ image.version) ∧
    (∃ (s : State) (given image : FwImage), image = s.spine.fw.getD given ∧ s.spine.powered = false ∧ image.signed = false) ∧
    (∃ (s : State) (i : FwImage), s.spine.recovery = true ∧ i.signed = true ∧ s.spine.minVersion ≤ i.version) ∧
    (∃ (s : State) (i : FwImage), s.spine.recovery = false ∧ i.signed = true ∧ s.spine.minVersion ≤ i.version) ∧
    ∃ i : FwImage, i.signed = false :=
  ⟨⟨carrying none false, ⟨true, 3, 0⟩, ⟨true, 3, 0⟩, rfl, rfl, rfl, by decide +kernel⟩,
    ⟨carrying (some ⟨false, 3, 0⟩) false, ⟨true, 3, 0⟩, ⟨false, 3, 0⟩, rfl, rfl, rfl⟩,
    ⟨carrying none true, ⟨true, 3, 0⟩, rfl, rfl, by decide +kernel⟩,
    ⟨carrying none false, ⟨true, 3, 0⟩, rfl, rfl, by decide +kernel⟩, ⟨⟨false, 3, 0⟩, rfl⟩⟩

/-- A state with site 1 in a bring-up state beside the live Spine chiplet's site 9. -/
def rising (st : SiteState) : State :=
  { State.reset with
    sites := [(1, { Site.reset 1 with st := st }), (2, { Site.reset 2 with st := .live, part := 0, lchip := 0 })] }

theorem wit_BringupEvents_clock : ∃ (s : State) (n : Nat), (s.site n).st = .off ∧ (s.site n).kind ≠ .empty ∧
    ∃ d m, d < 4 ∧ neighbour n d = some m ∧
      (s.site m).st ∈ [SiteState.clocked, .probed, .trained, .routed, .live] :=
  ⟨rising .off, 1, by decide +kernel, by decide +kernel,
    (by decide +kernel : ∃ d, d < 4 ∧ ∃ m, m < 4 ∧ neighbour 1 d = some m ∧ ((rising .off).site m).st ∈
      [SiteState.clocked, .probed, .trained, .routed, .live]).elim fun d h => h.2.elim fun m k => ⟨d, m, h.1, k.2.1, k.2.2⟩⟩

theorem wit_BringupEvents_states : ∀ st : SiteState, ∃ (s : State) (n : Nat), (s.site n).st = st ∧ (s.site n).kind ≠ .empty :=
  fun st => ⟨rising st, 1, by cases st <;> decide +kernel, by cases st <;> decide +kernel⟩

/-- Whether a state with a trained site has a way, or none, to the Spine chiplet: its row and column of sites. -/
def pathToSpine : State :=
  { State.reset with
    sites := (List.range 9).map fun i => (i + 1, { Site.reset (i + 1) with st := if i = 0 then .trained else .live }) }

theorem wit_BringupEvents_regionUsed : ∃ (s : State) (n : Nat), (s.site n).st = .clocked ∧
    s.regionUsed (siteRegion n) = false :=
  ⟨{ State.reset with sites := [(1, { Site.reset 1 with st := .clocked })] }, 1, by decide +kernel, by decide +kernel⟩

theorem wit_BringupEvents_route : ∃ (s : State) (n : Nat), (s.site n).st = .trained ∧ s.island true n = false :=
  ⟨pathToSpine, 1, by decide +kernel, by decide +kernel⟩

theorem wit_BringupEvents_reroute : ∃ (s : State) (n : Nat), (s.site n).st = .live ∧ s.island false n = false :=
  ⟨pathToSpine, 2, by decide +kernel, by decide +kernel⟩

theorem wit_BringupEvents_island : ∃ (s : State) (n : Nat), (s.site n).st = .trained ∧ s.island true n = true :=
  ⟨rising .trained, 1, by decide +kernel, by decide +kernel⟩

/-- Two live sites in no partition. -/
def unassigned : State :=
  { State.reset with
    sites := [(1, { Site.reset 1 with st := .live, cores := 0xFFFF }), (2, { Site.reset 2 with st := .live, cores := 1 })] }

/-- The same, with the site beside them in use by a context and their regions at different grades. -/
def beside : State :=
  { placed idle with
    sites := [(1, { Site.reset 1 with st := .live, cores := 0xFFFF, part := 0, lchip := 0 }), (2, { Site.reset 2 with st := .live, cores := 1 }),
      (3, { Site.reset 3 with st := .live, cores := 1 })]
    regions := [(siteRegion 1, { grade := 0, running := 0, mhz := 1250 }), (siteRegion 3, { grade := 2, running := 2, mhz := 1050 })] }

theorem wit_PartitionEvents_create : ∃ (s : State) (part : Nat) (sites chips : List Nat), part < 64 ∧
    s.partn part = Partition.blank ∧ (∀ e ∈ s.ctxs, e.2.part ≠ part) ∧ chips = (List.range 324).filter sites.contains ∧
    (∀ n ∈ chips, (s.site n).st = .live ∧ s.compute n = true ∧ (s.site n).lchip = 0xFFFF) ∧
    (∃ n ∈ chips, (s.site n).kind = .bClass) ∧
    (∀ w ∈ s.writes, coreSite w.core ∉ chips ∧ ∀ x ∈ w.cells, locSite x.1 ∉ chips) ∧
    (s.withPartition part chips).speedsFit = true :=
  ⟨unassigned, 62, [2, 1], [1, 2], by decide, by decide +kernel, by decide +kernel, by decide +kernel, by decide +kernel,
    by decide +kernel, by decide +kernel, by decide +kernel⟩

theorem wit_PartitionEvents_unfit : ∃ (s : State) (part : Nat) (chips : List Nat), part < 64 ∧ chips = [2, 3] ∧
    s.partn part = Partition.blank ∧ (∀ e ∈ s.ctxs, e.2.part ≠ part) ∧
    (∀ n ∈ chips, (s.site n).st = .live ∧ s.compute n = true ∧ (s.site n).lchip = 0xFFFF) ∧
    (s.withPartition part chips).speedsFit = false :=
  ⟨beside, 62, [2, 3], by decide, rfl, by decide +kernel, by decide +kernel, by decide +kernel, by decide +kernel⟩

theorem wit_PartitionEvents_frequency : ∃ (s : State) (r : Nat) (mhz : BitVec 16), r < 36 ∧
    s.regionsBusy (s.joined? r) = false ∧ mhz.toNat = gradeRule (s.lowestGrade (s.joined? r)) :=
  ⟨unassigned, 35, 1250, by decide, by decide +kernel, by decide +kernel⟩

theorem wit_PartitionEvents_otherFrequency : ∃ (s : State) (r : Nat) (mhz : BitVec 16), r < 36 ∧
    s.regionsBusy (s.joined? r) = false ∧ mhz.toNat ≠ gradeRule (s.lowestGrade (s.joined? r)) :=
  ⟨unassigned, 35, 1251, by decide, by decide +kernel, by decide +kernel⟩

theorem wit_PartitionEvents_busy : ∃ (s : State) (r : Nat), s.regionsBusy (s.joined? r) = true :=
  ⟨placed idle, siteRegion 1, by decide +kernel⟩

theorem wit_PartitionEvents_failure : ∃ (s : State) (n : Nat), (s.site n).st = .live ∧
    ∃ e ∈ s.ctxs, s.contextAt e.1 n = true :=
  ⟨placed idle, 1, by decide +kernel, by decide +kernel⟩

theorem wit_PartitionEvents_reset : ∃ (s : State) (n : Nat), (s.site n).st = .live ∧ s.siteBusy n = false ∧
    s.compute n = true :=
  ⟨unassigned, 1, by decide +kernel, by decide +kernel, by decide +kernel⟩

/-- A state with a cluster that waits for a token. -/
def waking (tokens : Nat) (pw : Power) : State :=
  { State.reset with
    spine := { State.reset.spine with wakeQ := [4, 5], tokens := tokens }, clusters := [(4, { Cluster.blank with power := pw })] }

theorem wit_PowerEvents_wake : (∃ (s : State) (k : Nat) (rest : List Nat), s.spine.wakeQ = k :: rest ∧ 0 < s.spine.tokens) ∧
    (∃ (s : State) (k : Nat) (rest : List Nat), s.spine.wakeQ = k :: rest ∧ s.spine.tokens = 0) ∧
    ∃ (s : State) (k : Nat), (s.clu k).power = .waking :=
  ⟨⟨waking 1 .asking, 4, [5], by decide +kernel, by decide +kernel⟩, ⟨waking 0 .asking, 4, [5], by decide +kernel, by decide +kernel⟩,
    ⟨waking 1 .waking, 4, by decide +kernel⟩⟩

theorem wit_PowerEvents_gate : (∃ (s : State) (k : Nat), (s.clu k).power = .up ∧ (s.clu k).cfg.getLsbD 29 = false ∧
      ∀ c, c / 4 = k → (s.core c).ctxv = false) ∧
    (∃ (s : State) (k : Nat), (s.clu k).cfg.getLsbD 29 = true) ∧ ∃ (s : State) (k : Nat), ∃ c, c / 4 = k ∧ (s.core c).ctxv = true :=
  ⟨⟨State.reset, 4, by decide +kernel, by decide +kernel, fun c _ => tget_all (P := fun k : Core => k.ctxv = false) Core.blank (by decide +kernel)
      State.reset.cores (by decide +kernel) c⟩,
    ⟨{ State.reset with clusters := [(4, { Cluster.blank with cfg := 1 <<< 29 })] }, 4, by decide +kernel⟩, ⟨placed idle, 4, 16, by decide, by decide +kernel⟩⟩

theorem wit_ModuleEvents_time : (∃ s : State, s.ctxs = []) ∧ ∃ s : State, s.ctxs ≠ [] :=
  ⟨⟨State.reset, rfl⟩, ⟨placed idle, by decide +kernel⟩⟩

theorem wit_ModuleEvents_report : (∃ (s : State) (f : FwImage), s.spine.recovery = false ∧ s.spine.fw = some f) ∧
    ∃ s : State, s.spine.recovery = true :=
  ⟨⟨carrying (some ⟨true, 3, 0⟩) false, ⟨true, 3, 0⟩, rfl, rfl⟩, ⟨carrying none true, rfl⟩⟩

/-! #### Contexts and packets -/

/-- A request for a context that firmware accepts. -/
def aRequest (asid : Nat) : CtxReq :=
  { asid := asid, part := 0, sec := false, mode := .off, segLog := 12, rb := 0, root := 0, quota := 32, slotQuota := 256, qcbs := [], privileged := [] }

theorem wit_ContextEvents_create : (∃ (s : State) (r : CtxReq), s.accepts r = true ∧ r.mode = .off ∧ r.privileged = []) ∧
    ∃ (s : State) (r : CtxReq), s.accepts r = false :=
  ⟨⟨placed idle, aRequest 4095, by decide +kernel, rfl, rfl⟩, ⟨placed idle, aRequest 1, by decide +kernel⟩⟩

theorem wit_ContextEvents_end : ∃ (s : State) (a : Nat), (tfind s.ctxs a).isSome = true ∧
    ∃ c, (s.core c).ctxv = true ∧ (s.core c).asid = a :=
  ⟨placed idle, 1, by decide +kernel, 16, by decide +kernel, by decide +kernel⟩

/-- A queue of 16 packets of context 1. -/
def aQueue (pending : Bool) : Queue where
  asid := 1
  qcb := { addr := 0x40, queue := 3, ring := 0x1000, n := 4, prio := 1, compRing := 0x2000, compSize := 4, readPos := 0 }
  pending := pending
  comps := 0
  open_ := []
  runnable := false
  since := 0
  writing := none

/-- A packet of a type with its other bytes as given. -/
def packetBytes (type rest : Nat) : Nat := type + 2 ^ 8 + rest

/-- A hardware slot with packets of that queue. -/
def aSlot (v : List Nat) (timed : Option (Word × Bool)) : HwSlot :=
  { queue := 3, asid := 1, sec := false, fetched := v.map fun b => { pos := 0, bytes := BitVec.ofNat 1024 b }, mappedAt := 0,
    timed := timed, held := false }

/-- A state with the queue, its ring's first packet in memory, and hardware slots. -/
def ringed (ring : Nat) (hw : Tbl HwSlot) : State :=
  { placed idle with
    mem := tables ++ (cellsOf (locsFrom (2 ^ 29 + 0x1000) 128) ring).filter fun c => c.2 != 0
    ctxs := [(1, { Ctx.blank with part := 0, slotQuota := 1 })]
    spine := { State.reset.spine with
      asidRoot := [(1, toWord (1 + 2 ^ 52 + 0x10000))], queues := [(3, aQueue false)], hw := hw } }

/-- The same with the packet fetched to issue. -/
def atIssue (v : Nat) (timed : Option (Word × Bool)) : State := ringed v [(0, aSlot [v] timed)]

theorem wit_ContextEvents_kick : (∃ (s : State) (q : Nat) (x : Queue), s.queue? q = some x ∧ s.slotOf q = none) ∧
    ∃ (s : State) (q : Nat) (x : Queue), s.queue? q = some x ∧ (s.slotOf q).isSome = true :=
  ⟨⟨ringed 0 [], 3, aQueue false, by decide +kernel, by decide +kernel⟩,
    ⟨ringed 0 [(0, aSlot [] none)], 3, aQueue false, by decide +kernel, by decide +kernel⟩⟩

/-- A control block of queue 65,535 that system software has written. -/
def aBlock : Qcb := { (aQueue false).qcb with queue := 65535, n := 16, prio := 7 }

/-- A state with it. -/
def blocked : State := { ringed 0 [] with spine := { (ringed 0 []).spine with blocks := [(65535, (1, aBlock))] } }

theorem wit_ContextEvents_kickNew : ∃ (s : State) (a : Nat) (b : Qcb), s.queue? b.queue = none ∧ s.slotOf b.queue = none ∧
    tfind s.spine.blocks b.queue = some (a, b) ∧ (tfind s.ctxs a).isSome = true ∧ QcbFits b :=
  ⟨blocked, 1, aBlock, by decide +kernel, by decide +kernel, by decide +kernel, by decide +kernel,
    by unfold QcbFits; decide +kernel⟩

theorem wit_ContextEvents_kickUnknown : ∃ (s : State) (q : Nat), s.queue? q = none ∧ tfind s.spine.blocks q = none :=
  ⟨blocked, 2, by decide +kernel, by decide +kernel⟩

theorem wit_ContextEvents_epoch : ∃ (s : State) (q a : Nat) (x : Queue) (c : Ctx), s.ctxs = [(a, c)] ∧
    s.spine.queues = [(q, x)] ∧ x.asid = a ∧ 1 ≤ c.slotQuota ∧ s.spine.hw = [] ∧ s.queueRunnable x = true :=
  ⟨ringed (packetBytes 4 0) [], 3, 1, aQueue false, _, rfl, rfl, rfl, by decide +kernel, rfl, by decide +kernel⟩

theorem wit_ContextEvents_unmap : ∃ (s : State) (q a : Nat) (x : Queue) (c : Ctx) (h : Nat) (w : HwSlot), s.ctxs = [(a, c)] ∧
    s.spine.queues = [(q, x)] ∧ x.asid = a ∧ 1 ≤ c.slotQuota ∧ s.spine.hw = [(h, w)] ∧ w.queue = q ∧
    s.queueRunnable x = false ∧ x.writing = none :=
  ⟨ringed 0 [(0, aSlot [] none)], 3, 1, aQueue false, _, 0, aSlot [] none, rfl, rfl, rfl, by decide +kernel, rfl, rfl,
    by decide +kernel, rfl⟩

/-- A queue of a priority. -/
def queueOf (q prio : Nat) : Queue :=
  { aQueue false with qcb := { (aQueue false).qcb with queue := q, prio := prio }, runnable := true }

/-- Two runnable queues, the first of which holds the one slot that their context may have. -/
def contended (px py t : Nat) : State :=
  { ringed (packetBytes 4 0) [(0, aSlot [] none)] with
    spine := { (ringed (packetBytes 4 0) [(0, aSlot [] none)]).spine with
      queues := [(3, queueOf 3 px), (5, queueOf 5 py)], time := BitVec.ofNat 64 t } }

theorem wit_ContextEvents_displace : ∃ (s : State) (p q a h : Nat) (x y : Queue) (c : Ctx) (w : HwSlot), s.ctxs = [(a, c)] ∧
    s.spine.queues = [(p, x), (q, y)] ∧ p ≠ q ∧ x.asid = a ∧ y.asid = a ∧ c.slotQuota = 1 ∧ s.spine.hw = [(h, w)] ∧ w.queue = p ∧
    w.asid = a ∧ x.writing = none ∧ s.queueRunnable x = true ∧ s.queueRunnable y = true ∧
    prioRule y.qcb.prio (waitedRule s y) < x.qcb.prio ∧ 20000 ≤ (s.spine.time - w.mappedAt).toNat :=
  ⟨contended 2 1 20000, 3, 5, 1, 0, queueOf 3 2, queueOf 5 1, _, aSlot [] none, rfl, rfl, by decide, rfl, rfl, by decide +kernel, rfl,
    rfl, rfl, rfl, by decide +kernel, by decide +kernel, by decide +kernel, by decide +kernel⟩

theorem wit_ContextEvents_stay : ∀ n : Nat, n = 20000 ∨ n = 19999 →
    ∃ (s : State) (p q a h : Nat) (x y : Queue) (c : Ctx) (w : HwSlot), s.ctxs = [(a, c)] ∧
    s.spine.queues = [(p, x), (q, y)] ∧ p ≠ q ∧ x.asid = a ∧ y.asid = a ∧ c.slotQuota = 1 ∧ s.spine.hw = [(h, w)] ∧ w.queue = p ∧
    w.asid = a ∧ x.writing = none ∧ s.queueRunnable x = true ∧ s.queueRunnable y = true ∧
    (x.qcb.prio ≤ prioRule y.qcb.prio (waitedRule s y) ∨ (y.qcb.prio ≠ 0 ∧ (s.spine.time - w.mappedAt).toNat < 20000)) := by
  rintro n (rfl | rfl)
  · exact ⟨contended 1 1 20000, 3, 5, 1, 0, queueOf 3 1, queueOf 5 1, _, aSlot [] none, rfl, rfl, by decide, rfl, rfl,
      by decide +kernel, rfl, rfl, rfl, rfl, by decide +kernel, by decide +kernel, by decide +kernel⟩
  · exact ⟨contended 2 1 19999, 3, 5, 1, 0, queueOf 3 2, queueOf 5 1, _, aSlot [] none, rfl, rfl, by decide, rfl, rfl,
      by decide +kernel, rfl, rfl, rfl, rfl, by decide +kernel, by decide +kernel, by decide +kernel⟩

/-- A launch of eight indices on chiplet 0, a strand to a core. -/
def launchBytes (type fire : Nat) : Nat :=
  packetBytes type (8 * 2 ^ 64 + 2 ^ 96 + 2 ^ 128 + 64 * 2 ^ 448 + 128 * 2 ^ 512 + fire * 2 ^ 768)

/-- A packet as it stands in a slot. -/
def packetOf (v : Nat) : Packet := { pos := 0, bytes := BitVec.ofNat 1024 v }

theorem wit_PacketEvents_launch : ∃ (s : State) (h n : Nat) (w : HwSlot) (x : Queue) (p : Packet), MayLaunch s h n w x p ∧
    p.type = 1 :=
  ⟨atIssue (launchBytes 1 0) none, 0, 0, aSlot [launchBytes 1 0] none, aQueue false, packetOf (launchBytes 1 0),
    ⟨by decide +kernel, by decide +kernel, by decide +kernel, by decide +kernel, by unfold State.ColophonOff; decide +kernel,
      by decide +kernel⟩, by decide +kernel⟩

theorem wit_PacketEvents_fire : ∃ (s : State) (h n : Nat) (w : HwSlot) (x : Queue) (p : Packet) (fire : Word) (past : Bool),
    MayLaunch s h n w x p ∧ p.type = 3 ∧ w.timed = some (fire, past) ∧ fire.toNat ≤ s.spine.time.toNat ∧
    s.launchAway w.asid p.chips = false :=
  ⟨atIssue (launchBytes 3 0) (some (0, false)), 0, 0, aSlot [launchBytes 3 0] (some (0, false)), aQueue false,
    packetOf (launchBytes 3 0), 0, false,
    ⟨by decide +kernel, by decide +kernel, by decide +kernel, by decide +kernel, by unfold State.ColophonOff; decide +kernel,
      by decide +kernel⟩, by decide +kernel, rfl, by decide +kernel, by decide +kernel⟩

theorem wit_PacketEvents_timed : ∃ (s : State) (h : Nat) (w : HwSlot) (x : Queue) (p : Packet), s.atIssue h = some (w, x, p) ∧
    p.type = 3 ∧ w.timed = none :=
  ⟨atIssue (launchBytes 3 9) none, 0, aSlot [launchBytes 3 9] none, aQueue false, packetOf (launchBytes 3 9),
    by decide +kernel, by decide +kernel, rfl⟩

/-- A message of six words to handler 64 at the home of address 0. -/
def messageBytes : Nat := packetBytes 2 (64 * 2 ^ 64 + 6 * 2 ^ 576)

theorem wit_PacketEvents_message : ∃ (s : State) (h n dest : Nat) (w : HwSlot) (x : Queue) (p : Packet),
    s.atIssue h = some (w, x, p) ∧ p.type = 2 ∧ s.dataHome w.asid (BitVec.ofNat 64 (p.fld 16 8)) = some dest ∧
    p.fld 72 1 ≤ 6 ∧ p.fld 8 8 % 4 = 0 ∧ s.msgWorldOk w.asid p = true ∧ s.ColophonOff w.asid ∧
    (s.ctx w.asid).freeLaunch = some n :=
  ⟨atIssue messageBytes none, 0, 0, 16, aSlot [messageBytes] none, aQueue false, packetOf messageBytes, by decide +kernel,
    by decide +kernel, by decide +kernel, by decide +kernel, by decide +kernel, by decide +kernel,
    by unfold State.ColophonOff; decide +kernel, by decide +kernel⟩

theorem packetAt_of (s : State) (w : HwSlot) (x : Queue) (p : Packet) (t : Nat) (h : s.atIssue 0 = some (w, x, p))
    (k : p.type = t ∧ p.pos < 2 ^ 64 ∧ x.open_ = [] ∧ bitsOf (p.fld 0 8) 10 1 = 0 ∧ x.writing = none) : PacketAt s 0 w x p t :=
  ⟨h, k.1, k.2.1, k.2.2.1, k.2.2.2.1, k.2.2.2.2⟩

theorem wit_PacketEvents_barrier : ∃ (s : State) (h : Nat) (w : HwSlot) (x : Queue) (p : Packet), PacketAt s h w x p 4 :=
  ⟨atIssue (packetBytes 4 0) none, 0, aSlot [packetBytes 4 0] none, aQueue false, packetOf (packetBytes 4 0),
    packetAt_of _ _ _ _ _ (by decide +kernel) (by decide +kernel)⟩

theorem mapsTo_of (s : State) (asid : Nat) (a : Word) (ls : List Nat)
    (h : s.spineLocs asid a ls.length = ls.map some ∧
      (∀ i, i < ls.length → s.spineRepl asid (a + BitVec.ofNat 64 i) = false) ∧
      (∀ l ∈ ls, s.settledByte l = memGet s.mem l) ∧ s.agentWriting s.fresh = false ∧
      s.spineRangeOk asid a ls.length = true ∧ ls.Nodup)
    (q : s.Unwatched) : MapsTo s asid a ls :=
  ⟨h.1, h.2.1, h.2.2.1, h.2.2.2.1, h.2.2.2.2.1, h.2.2.2.2.2, q⟩

/-- A signal of a value to address 0x2000, and a copy of four bytes from there to 0x3000. -/
def signalBytes : Nat := packetBytes 5 (0x2000 * 2 ^ 64 + 0x1122334455667788 * 2 ^ 128)
/-- The copy. -/
def copyBytes : Nat := packetBytes 6 (0x2000 * 2 ^ 64 + 0x3000 * 2 ^ 128 + 4 * 2 ^ 192)

theorem wit_PacketEvents_signal : ∃ (s : State) (h : Nat) (w : HwSlot) (x : Queue) (p : Packet) (ls : List Nat),
    PacketAt s h w x p 5 ∧ s.mem.wf = true ∧ ls.length = 8 ∧ p.fld 8 8 + 8 ≤ 2 ^ 55 ∧
    MapsTo s w.asid (BitVec.ofNat 64 (p.fld 8 8)) ls :=
  ⟨atIssue signalBytes none, 0, aSlot [signalBytes] none, aQueue false, packetOf signalBytes, locsFrom (2 ^ 29 + 0x2000) 8,
    packetAt_of _ _ _ _ _ (by decide +kernel) (by decide +kernel), by decide +kernel, by decide +kernel, by decide +kernel,
    mapsTo_of _ _ _ _ (by decide +kernel) (unwatched_of _ (by decide +kernel))⟩

theorem wit_PacketEvents_copy : ∃ (s : State) (h : Nat) (w : HwSlot) (x : Queue) (p : Packet) (src dst : List Nat),
    PacketAt s h w x p 6 ∧ s.mem.wf = true ∧ src.length = p.fld 24 8 ∧ dst.length = p.fld 24 8 ∧
    p.fld 8 8 + p.fld 24 8 ≤ 2 ^ 55 ∧ p.fld 16 8 + p.fld 24 8 ≤ 2 ^ 55 ∧
    MapsTo s w.asid (BitVec.ofNat 64 (p.fld 8 8)) src ∧ MapsTo s w.asid (BitVec.ofNat 64 (p.fld 16 8)) dst ∧
    ∀ l ∈ src, s.bad l = false :=
  ⟨atIssue copyBytes none, 0, aSlot [copyBytes] none, aQueue false, packetOf copyBytes, locsFrom (2 ^ 29 + 0x2000) 4,
    locsFrom (2 ^ 29 + 0x3000) 4, packetAt_of _ _ _ _ _ (by decide +kernel) (by decide +kernel), by decide +kernel,
    by decide +kernel, by decide +kernel, by decide +kernel, by decide +kernel,
    mapsTo_of _ _ _ _ (by decide +kernel) (unwatched_of _ (by decide +kernel)),
    mapsTo_of _ _ _ _ (by decide +kernel) (unwatched_of _ (by decide +kernel)), by decide +kernel⟩

theorem wit_PacketPhase : ∃ (s : State) (h lap i : Nat) (w : HwSlot) (x : Queue) (a : Word), s.slotQueue h = some (w, x) ∧
    w.fetched.length < 17 ∧ i < 2 ^ x.qcb.n ∧ x.qcb.readPos + w.fetched.length = lap * 2 ^ x.qcb.n + i ∧
    a = x.qcb.ring + BitVec.ofNat 64 (128 * i) ∧ bitsOf (s.spineRead x.asid a 8) 8 1 = (lap + 1) % 2 :=
  ⟨ringed (packetBytes 4 0) [(0, aSlot [] none)], 0, 0, 0, aSlot [] none, aQueue false, _, by decide +kernel,
    by decide +kernel, by decide +kernel, by decide +kernel, rfl, by decide +kernel⟩

theorem wit_PacketPhase_empty : ∃ (s : State) (h lap i : Nat) (w : HwSlot) (x : Queue) (a : Word), s.slotQueue h = some (w, x) ∧
    w.fetched.length < 17 ∧ i < 2 ^ x.qcb.n ∧ x.qcb.readPos + w.fetched.length = lap * 2 ^ x.qcb.n + i ∧
    a = x.qcb.ring + BitVec.ofNat 64 (128 * i) ∧ bitsOf (s.spineRead x.asid a 8) 8 1 ≠ (lap + 1) % 2 ∧ lap = 0 ∧
    s.spineRead x.asid a 8 = 0 :=
  ⟨ringed 0 [(0, aSlot [] none)], 0, 0, 0, aSlot [] none, aQueue false, _, by decide +kernel,
    by decide +kernel, by decide +kernel, by decide +kernel, rfl, by decide +kernel, rfl, by decide +kernel⟩

/-! #### Lanes, the debugger -/

/-- A context in a mode, whose ring starts at the first byte of stack 0, with a lane of a core. -/
def laned (m : ColMode) (x : Lane) : State :=
  { placed idle with
    ctxs := [(1, { Ctx.blank with part := 0, mode := m, rb := toWord (2 ^ 52), segLog := 2 })], lanes := [(laneKey 1 8192, x)] }

theorem wit_LaneEvents_end : (∃ (s : State) (a : Nat) (x : Ctx), tfind s.ctxs a = some x ∧ x.mode = .replay) ∧
    ∃ (s : State) (a : Nat) (x : Ctx), tfind s.ctxs a = some x ∧ x.mode ≠ .replay :=
  ⟨⟨laned .replay Lane.blank, 1, _, rfl, rfl⟩, ⟨laned .record Lane.blank, 1, _, rfl, by decide⟩⟩

theorem wit_LaneEvents_fill : ∃ (s : State) (a lane : Nat) (recs : List (BitVec 256)), s.mem.wf = true ∧
    (s.ctx a).mode = .replay ∧ recs.length ≤ 2 ^ (s.ctx a).segLog - ((s.laneOf a lane).q - (s.laneOf a lane).p).toNat ∧
    ((List.range recs.length).flatMap fun i => s.recordLocs a lane ((s.laneOf a lane).q.toNat + i)).Nodup ∧
    ∀ i, i < recs.length → (s.recordLocs a lane ((s.laneOf a lane).q.toNat + i)).length = 32 :=
  ⟨laned .replay { Lane.blank with q := 3 }, 1, 8192, [5], by decide +kernel, by decide +kernel, by decide +kernel,
    by decide +kernel, by decide +kernel⟩

theorem wit_LaneEvents_drain : ∃ (s : State) (a lane n : Nat), (s.ctx a).mode = .record ∧
    0 < n ∧ n ≤ s.drainable a lane :=
  ⟨laned .record { Lane.blank with p := 4 }, 1, 8192, 4, by decide +kernel, by decide +kernel, by decide +kernel⟩

theorem wit_LaneEvents_report : ∃ (s : State) (a lane : Nat), (s.ctx a).mode = .record ∧ s.laneFull a lane 0 = true ∧
    (s.laneOf a lane).warned = false ∧ s.stallLimit a lane < (s.laneOf a lane).waited :=
  ⟨laned .record { Lane.blank with p := 4, waited := 0xFFFFFFFF }, 1, 8192, by decide +kernel, by decide +kernel,
    by decide +kernel, by decide +kernel⟩

theorem wit_LaneEvents_stall : ∃ (s : State) (a lane : Nat), (s.ctx a).mode = .replay ∧ (s.ctx a).stop = false ∧
    s.laneWaits a lane = true ∧ s.stallLimit a lane < (s.laneOf a lane).waited :=
  ⟨laned .replay { Lane.blank with q := 1, waited := 0xFFFFFFFF }, 1, 8192, by decide +kernel, by decide +kernel,
    by decide +kernel, by decide +kernel⟩

/-- A secure context. -/
def secured : State := { placed idle with ctxs := [(1, { Ctx.blank with part := 0, sec := true })] }

theorem wit_DebugEvents_attach : (∃ (s : State) (a : Nat) (auth : Bool), (∃ x, tfind s.ctxs a = some x) ∧
      ∀ x, tfind s.ctxs a = some x → (x.sec = true → auth = true)) ∧
    ∃ (s : State) (a : Nat) (auth : Bool), (∃ x, tfind s.ctxs a = some x) ∧
      ∀ x, tfind s.ctxs a = some x → x.sec = true ∧ auth = false :=
  ⟨⟨secured, 1, true, ⟨_, rfl⟩, fun _ _ _ => rfl⟩,
    ⟨secured, 1, false, ⟨_, rfl⟩, fun x h => by cases h; exact ⟨rfl, rfl⟩⟩⟩

theorem atHand_of (s : State) (c : Nat) (h : s.spine.attached = none) : AtHand s c :=
  fun a m e => by rw [h] at e; cases e

theorem wit_DebugEvents_stop : (∃ (s : State) (c n : Nat) (sid : Word) (p : Strand), AtHand s c ∧ (s.core c).phase = .run ∧
      s.strand? c n = some p ∧ p.sid = sid) ∧ ∃ (s : State) (c : Nat), AtHand s c ∧ (s.core c).phase ≠ .run :=
  ⟨⟨placed idle, 16, 0, idle.sid, idle, atHand_of _ _ rfl, by decide +kernel, by decide +kernel, rfl⟩,
    ⟨inPhase .saved, 16, atHand_of _ _ rfl, by decide +kernel⟩⟩

/-- Context 1 saved, while core 16 serves context 2. -/
def lent : State :=
  { placed idle with
    cores := [(16, { core idle with cfg := coreCfg 2 false 0 })]
    saved := [{ anImage (core idle) with stashed := true }]
    spine := { State.reset.spine with attached := some (1, 0) } }

theorem wit_DebugEvents_lent : ∃ (s : State) (c : Nat) (v : Saved), Lent s c v :=
  ⟨lent, 16, { anImage (core idle) with stashed := true }, ⟨0, by decide +kernel⟩, by decide +kernel, by decide +kernel⟩

/-- The core of the strand with a DBGCFG. -/
def debugged (p : Strand) (dbg : Word) : State := { placed p with cores := [(16, { core p with dbg := dbg })] }

theorem wit_DebugEvents_core : (∃ (s : State) (c : Nat), AtHand s c ∧ Stoppable s c 0 ∧ wfld (s.core c).dbg 4 2 ≠ 1) ∧
    ∃ (s : State) (c : Nat), AtHand s c ∧ Stoppable s c 1 :=
  ⟨⟨debugged idle 0, 16, atHand_of _ _ rfl, ⟨by decide +kernel, by decide +kernel, by decide +kernel⟩, by decide +kernel⟩,
    ⟨debugged idle 16, 16, atHand_of _ _ rfl, ⟨by decide +kernel, by decide +kernel, by decide +kernel⟩⟩⟩

/-- Context 1 on two cores, with an image on a third that serves another. -/
def besides : State := { placed idle with saved := [{ anImage (core idle) with core := 18, stashed := true }] }

theorem wit_DebugEvents_context : ∃ (s : State) (a : Nat), (s.coresOf a).Nodup ∧ s.coresOf a ≠ [] ∧
    (∀ c ∈ s.coresOf a, Stoppable s c 0) ∧ ∃ v ∈ s.saved, v.stashed = true ∧ v.asid.toNat = a :=
  ⟨besides, 1, by decide +kernel, by decide +kernel, fun c h => by
    have e : c = 16 ∨ c = 17 := by
      have : besides.coresOf 1 = [16, 17] := by decide +kernel
      rw [this] at h; simpa using h
    rcases e with rfl | rfl <;> exact ⟨by decide +kernel, by decide +kernel, by decide +kernel⟩,
    _, .head _, rfl, by decide +kernel⟩

/-- A stopped strand, and one that holds a BREAK. -/
def halted (st : SState) : Strand := { near with stopped := true, st := st }

/-- The BREAK. -/
def aBreak : FaultRec := { aFault with code := .brk }

theorem stoppedAt_of (p : Strand) (h : p.stopped = true) : StoppedAt (debugged p 0) 16 0 p :=
  ⟨rfl, atHand_of _ _ rfl, rfl, h, fun e m _ => by
    have : e ∈ [(0, p)] := m
    simpa using this, by simp [debugged, State.core, tget, tfind, core]⟩

theorem wit_DebugEvents_trap : ∃ (s : State) (c n : Nat) (p : Strand), StoppedAt s c n p ∧ HoldsTrap s c n p ∧
    p.stepWait = false :=
  ⟨_, 16, 0, halted (.faulted aBreak), stoppedAt_of _ rfl, ⟨⟨aBreak, rfl, .inl rfl⟩, by decide +kernel⟩, rfl⟩

theorem wit_DebugEvents_stopped : ∃ (s : State) (c n : Nat) (p : Strand), StoppedAt s c n p ∧ ¬ HoldsTrap s c n p ∧
    p.stepWait = false :=
  ⟨_, 16, 0, halted .ready, stoppedAt_of _ rfl, (fun h => by obtain ⟨⟨f, e, _⟩, _⟩ := h; cases e), rfl⟩

/-- One whose stepped instruction waits for rows. -/
def steppedWait : Strand := { halted (.waiting (.rows 12)) with stepWait := true }

theorem wit_DebugEvents_stepWait : ∃ (s : State) (c n : Nat) (p : Strand) (w : Wait), StoppedAt s c n p ∧ p.stepWait = true ∧
    p.st = .waiting w ∧ w.reexecutes = true :=
  ⟨_, 16, 0, steppedWait, .rows 12, stoppedAt_of _ rfl, rfl, rfl, rfl⟩

theorem wit_DebugEvents_running : ∃ (s : State) (c : Nat) (sid : Word), AtHand s c ∧
    ∀ e ∈ (s.core c).located, e.2.sid = sid → e.2.stopped = false :=
  ⟨placed idle, 16, idle.sid, atHand_of _ _ rfl, by decide +kernel⟩

theorem wit_DebugEvents_core_resume : ∃ (s : State) (c n : Nat) (p : Strand), AtHand s c ∧ s.strand? c n = some p ∧
    p.stepWait = false ∧ HoldsTrap s c n p :=
  ⟨debugged (halted (.faulted aBreak)) 0, 16, 0, halted (.faulted aBreak), atHand_of _ _ rfl, rfl, rfl,
    ⟨aBreak, rfl, .inl rfl⟩, by decide +kernel⟩

/-- A stopped strand in a park entry, whose wait has ended. -/
def parkedHalt : ParkEntry := { strand := halted .ready, blocks := [], restorable := some 1, slot := none }

theorem wit_DebugEvents_parked : ∃ (s : State) (c n : Nat) (e : ParkEntry), (s.core c).phase = .run ∧ AtHand s c ∧
    tfind (s.core c).park n = some e ∧ e.strand.stopped = true ∧ e.strand.stepWait = false :=
  ⟨{ placed idle with cores := [(16, { core idle with park := [(63, parkedHalt)] })] }, 16, 63, parkedHalt, by decide +kernel,
    atHand_of _ _ rfl, by decide +kernel, by decide +kernel, by decide +kernel⟩

/-- The debugger attached to context 1. -/
def attached : State :=
  { ringed 0 [] with spine := { (ringed 0 []).spine with attached := some (1, 0) } }

theorem wit_DebugEvents_memory : ∃ (s : State) (a : Nat) (va : Word) (ls : List Nat) (m : BitVec 2) (bs : List Byte),
    s.spine.attached = some (a, m) ∧ MapsTo s a va ls ∧ bs.length = ls.length ∧ s.mem.wf = true :=
  ⟨attached, 1, 0x2000, locsFrom (2 ^ 29 + 0x2000) 2, 0, [1, 2], rfl, mapsTo_of _ _ _ _ (by decide +kernel) (unwatched_of _ (by decide +kernel)),
    by decide +kernel, by decide +kernel⟩

theorem wit_DebugEvents_memoryRefused : ∃ (s : State) (a : Nat), ∀ k, s.spine.attached ≠ some (a, k) :=
  ⟨attached, 2, fun k h => by cases h⟩

theorem wit_DebugEvents_command : (∃ (s : State) (e : Instr) (rest : List Instr), s.spine.commands = e :: rest ∧
      s.spine.debugging = none ∧ s.spine.recovery = false ∧ isCommand e = true) ∧
    ∃ (s : State) (e : Instr) (rest : List Instr), s.spine.commands = e :: rest ∧ s.spine.debugging = none ∧
      s.spine.recovery = false ∧ isCommand e = false :=
  ⟨⟨{ placed idle with spine := { State.reset.spine with commands := [.coreStop 16] } }, _, _, rfl, rfl, rfl, rfl⟩,
    ⟨{ placed idle with spine := { State.reset.spine with commands := [.epoch] } }, _, _, rfl, rfl, rfl, rfl⟩⟩

/-! #### The fabric, fetch -/

/-- A queue pair of context 1, connected to queue pair 5 of module 2. -/
def aQp (st : QpState) : Qp :=
  { Qp.blank with asid := 1, st := st, resident := true, rmod := 2, rqp := 5, retry := 3 }

/-- A region of the first 64 bytes of context 1, every right given. -/
def aRegion : MemRegion :=
  { MemRegion.blank with asid := 1, base := 0x2000, len := 64, rr := true, rw := true, ra := true, gen := 7, st := .valid }

/-- A state with queue pair 4 of link 0, region 1, and operations and requests. -/
def fabric (q : Qp) (r : MemRegion) (os : List EngOp) : State :=
  { ringed 0 [] with
    qps := [(4, q)], memRegions := [(1, r)], ops := os
    links := [(0, { Link.blank with lru := [4], ports := [(0, { Port.blank with st := 2 })] })] }

/-- A remote write of eight bytes of the scratchpad by queue pair 4. -/
def waitingPost : EngOp := operation 9 3 1 (.rma .write pad 0 0x107 4 8 false true) .queued

/-- Its state: a route to link 0, whose port 0 is up, and a way to module 2. -/
def posting (q : Qp) : State :=
  { fabric q aRegion [waitingPost] with
    chiplets := [(1, { Chiplet.blank with pagerCore := 0xFFFE, route := [(304, 0), (319, 0)] })]
    spine := { (ringed 0 []).spine with froute := [(2, 1 <<< 63)] } }

theorem posting_turn (st : QpState) : PostTurn (posting (aQp st)) waitingPost 4 true :=
  postTurn_of _ _ _ _ (by cases st <;> decide +kernel) (fun q h _ => by
    obtain rfl : aQp st = q := by simpa [posting, fabric, tfind] using h
    exact ⟨rfl, rfl⟩)

/-- Whether an engine may read a byte. -/
def readPasses (s : State) (o : EngOp) (pages : Tbl Got) (a : Word) : Bool :=
  match s.engByte o pages true false a with
  | .ok .. => true
  | _ => false

theorem readPasses_spec (s : State) (o : EngOp) (pages : Tbl Got) (a : Word) (h : readPasses s o pages a = true) :
    ∃ l b r, s.engByte o pages true false a = .ok l b r := by
  unfold readPasses at h
  split at h
  · rename_i l b r e; exact ⟨l, b, r, e⟩
  · cases h

theorem posting_checked (st : QpState)
    (h : ((postReads .write pad 8).all (readPasses (posting (aQp st)) waitingPost
      ((posting (aQp st)).engPages waitingPost (postReads .write pad 8 ++ postWrites .write pad 8)))) = true)
    (y : (posting (aQp st)).syncReady waitingPost = true) : PostChecked (posting (aQp st)) waitingPost .write pad 8 4 (aQp st) :=
  ⟨by decide, rfl, rfl, ⟨(fun e => by cases e), (fun e => by cases e)⟩, all_of _ (by decide +kernel),
    fun a m => readPasses_spec _ _ _ _ (List.all_eq_true.mp h a m), fun a m => by simp [postWrites] at m, y⟩

theorem wit_EngineEvents_rmaState : ∃ (s : State) (o : EngOp) (op : RmaOp) (a off : Word) (key : BitVec 32) (qp len : Nat)
    (sy fe : Bool) (q : Qp), PostTurn s o qp fe ∧ o.body = .rma op a off key qp len sy fe ∧ PostChecked s o op a len qp q ∧
    q.st ≠ .rts :=
  ⟨posting (aQp .init), waitingPost, .write, pad, 0, 0x107, 4, 8, false, true, aQp .init, posting_turn _, rfl,
    posting_checked _ (by decide +kernel) (by decide +kernel), by decide⟩

/-- The bytes of the post that is sent are clear to read. -/
theorem posting_clear : ((postReads .write pad 8).all fun x =>
    ((posting (aQp .rts)).engByte waitingPost ((posting (aQp .rts)).engPages waitingPost (postReads .write pad 8 ++ postWrites .write pad 8))
      true false x).locs.all fun l => decide ((posting (aQp .rts)).bad l = false ∧
        (posting (aQp .rts)).wayTo (coreSite waitingPost.core) (locSite l) = .clear ∧ (posting (aQp .rts)).replLocked l = false)) = true := by
  decide +kernel

theorem wit_EngineEvents_rmaSent : ∃ (s : State) (o : EngOp) (op : RmaOp) (a off : Word) (key : BitVec 32) (qp len : Nat)
    (sy fe : Bool) (q : Qp), PostTurn s o qp fe ∧ o.body = .rma op a off key qp len sy fe ∧ PostChecked s o op a len qp q ∧
    q.st = .rts ∧ s.Unwatched ∧
    (∀ x ∈ postReads op a len, ∀ l ∈ (s.engByte o (s.engPages o (postReads op a len ++ postWrites op a len)) true false x).locs,
      s.bad l = false ∧ s.wayTo (coreSite o.core) (locSite l) = .clear ∧ s.replLocked l = false) ∧
    s.routable (coreSite o.core) (nth 0 linkSites (qpLink qp)) = true ∧ (tget 0 s.spine.froute q.rmod.toNat).getLsbD 63 = true ∧
    ((s.link (qpLink qp)).port q.port.toNat).st = 2 ∧ qp ∈ (s.link (qpLink qp)).lru :=
  ⟨posting (aQp .rts), waitingPost, .write, pad, 0, 0x107, 4, 8, false, true, aQp .rts, posting_turn _, rfl,
    posting_checked _ (by decide +kernel) (by decide +kernel), rfl, unwatched_of _ (by decide +kernel),
    fun x m => all_of _ (List.all_eq_true.mp posting_clear x m), by decide +kernel, by decide +kernel, by decide +kernel,
    by decide +kernel⟩

theorem wit_EngineEvents_remote : ∃ (s : State) (o : EngOp) (qp : Nat) (q : Qp), EngAt s o ∧ o.st = .ended ∧
    s.opRuns o = true ∧ s.opWriting o = false ∧ o.cls = 3 ∧ o.qp? = some qp ∧ tfind s.qps qp = some q ∧ s.earlierPosts o = [] ∧
    Waitless s o.core ∧ (s.core o.core).done = [] ∧ o.ticket = vget 0 (s.core o.core).eseq 3 + 1 ∧ o.status < 2 :=
  ⟨{ posting (aQp .rts) with ops := [{ waitingPost with st := .ended }] }, { waitingPost with st := .ended },
    4, aQp .rts, engAt_of _ _ (by decide +kernel), rfl, by decide +kernel, by decide +kernel, rfl, rfl, by decide +kernel,
    by decide +kernel, ⟨by decide +kernel, by decide +kernel⟩, by decide +kernel, by decide +kernel, by decide⟩

theorem wit_EngineEvents_remoteFailed : ∃ (s : State) (o : EngOp) (qp : Nat) (q : Qp), EngAt s o ∧ o.st = .ended ∧
    s.opRuns o = true ∧ s.opWriting o = false ∧ o.cls = 3 ∧ o.qp? = some qp ∧ tfind s.qps qp = some q ∧ s.earlierPosts o = [] ∧
    Waitless s o.core ∧ (s.core o.core).done = [] ∧ o.ticket = vget 0 (s.core o.core).eseq 3 + 1 ∧ 2 ≤ o.status ∧ o.status ≤ 9 :=
  ⟨{ posting (aQp .rts) with ops := [{ waitingPost with st := .ended, status := 9 }] }, { waitingPost with st := .ended, status := 9 },
    4, aQp .rts, engAt_of _ _ (by decide +kernel), rfl, by decide +kernel, by decide +kernel, rfl, rfl, by decide +kernel,
    by decide +kernel, ⟨by decide +kernel, by decide +kernel⟩, by decide +kernel, by decide +kernel, by decide, by decide⟩

theorem wit_FabricEvents_command_create : ∃ (s : State) (a l i : Nat) (x : Ctx), tfind s.ctxs a = some x ∧ l < 15 ∧ i < 2 ^ 20 ∧
    i ≤ s.qps.length ∧ (∀ j, j < i → (tfind s.qps (l * 2 ^ 20 + j)).isSome = true) ∧ tfind s.qps (l * 2 ^ 20 + i) = none ∧
    (s.link l).lru.length < 8192 ∧ l * 2 ^ 20 + i ∉ (s.link l).lru :=
  ⟨fabric (aQp .reset) aRegion [], 1, 14, 0, _, rfl, by decide, by decide, by decide +kernel, by decide, by decide +kernel,
    by decide +kernel, by decide +kernel⟩

theorem wit_FabricEvents_command_refused : ∃ (s : State) (a l : Nat), tfind s.ctxs a = none ∨ 15 ≤ l :=
  ⟨fabric (aQp .reset) aRegion [], 1, 15, .inr (by decide)⟩

theorem wit_FabricEvents_command_states : ∀ st : QpState, ∃ (s : State) (n : Nat) (q : Qp), tfind s.qps n = some q ∧ q.st = st :=
  fun st => ⟨fabric (aQp st) aRegion [], 4, aQp st, rfl, rfl⟩

theorem wit_FabricEvents_command_reg : ∃ (s : State) (a : Nat) (base : Word) (len i : Nat) (ra : Bool),
    (tfind s.ctxs a).isSome = true ∧ base.toNat % 64 = 0 ∧ len % 64 = 0 ∧ 64 ≤ len ∧ len ≤ 2 ^ 40 ∧
    (ra = true → (s.ctx a).mode = .off) ∧ s.rangeValid a base len = true ∧ i < 2 ^ 24 ∧ i ≤ s.memRegions.length ∧
    (∀ j, j < i → (s.memRegion j).st ≠ .free) ∧ (s.memRegion i).st = .free ∧ (s.memRegion i).toApply = [] :=
  ⟨fabric (aQp .reset) aRegion [], 1, 0x2000, 64, 0, true, by decide +kernel, by decide +kernel, by decide, by decide,
    by decide, fun _ => by decide +kernel, by decide +kernel, by decide, by decide +kernel, by decide, by decide +kernel,
    by decide +kernel⟩

theorem wit_FabricEvents_command_regRefused : ∃ (s : State) (a : Nat) (base : Word) (len : Nat), s.rangeValid a base len = false :=
  ⟨fabric (aQp .reset) aRegion [], 1, BitVec.ofNat 64 (2 ^ 40), 64, by decide +kernel⟩

theorem wit_FabricEvents_command_revoke : (∃ (s : State) (key : BitVec 32) (i : Nat), i = keyIndex key ∧ (s.memRegion i).st = .valid ∧
      (s.memRegion i).gen.toNat = key.toNat % 2 ^ 8) ∧
    ∃ (s : State) (key : BitVec 32) (i : Nat), i = keyIndex key ∧ (s.memRegion i).gen.toNat ≠ key.toNat % 2 ^ 8 :=
  ⟨⟨fabric (aQp .rts) aRegion [], 0x107, 1, by decide +kernel, by decide +kernel, by decide +kernel⟩,
    ⟨fabric (aQp .rts) aRegion [], 0x106, 1, by decide +kernel, by decide +kernel⟩⟩

/-- A request of eight bytes by module 2. -/
def aRequestPacket (op : RmaOp) : FabReq where
  op := op
  rmod := 2
  rqp := 5
  qp := 4
  inc := 0
  seq := 0
  opId := 6
  first := true
  last := true
  key := 0x107
  off := 0
  opLen := 8
  len := 8
  data := List.replicate 8 1

theorem wit_FabricEvents_target_status : (∃ (s : State) (l : Nat) (p : FabReq), p.inc ≠ s.linkInc l) ∧
    (∃ (s : State) (l : Nat) (p : FabReq), p.inc = s.linkInc l ∧ tfind s.qps p.qp = none) ∧
    (∃ (s : State) (p : FabReq) (q : Qp), tfind s.qps p.qp = some q ∧ ((s.link (qpLink p.qp)).port q.port.toNat).st = 2) ∧
    (∃ (s : State) (l : Nat) (p : FabReq) (q : Qp), p.inc = s.linkInc l ∧ tfind s.qps p.qp = some q ∧ q.resident = false ∧
      (s.link l).staged.length < 64) ∧
    ∃ (s : State) (l : Nat) (p : FabReq) (q : Qp), p.inc = s.linkInc l ∧ tfind s.qps p.qp = some q ∧ q.resident = false ∧
      64 ≤ (s.link l).staged.length :=
  ⟨⟨fabric (aQp .rts) aRegion [], 0, { aRequestPacket .write with inc := 1 }, by decide +kernel⟩,
    ⟨fabric (aQp .rts) aRegion [], 0, { aRequestPacket .write with qp := 3 }, by decide +kernel, by decide +kernel⟩,
    ⟨fabric (aQp .rts) aRegion [], aRequestPacket .write, aQp .rts, rfl, by decide +kernel⟩,
    ⟨fabric { aQp .rts with resident := false } aRegion [], 0, aRequestPacket .write, _, by decide +kernel, rfl, rfl,
      by decide +kernel⟩,
    ⟨{ fabric { aQp .rts with resident := false } aRegion [] with
        links := [(0, { Link.blank with staged := List.replicate 64 (aRequestPacket .write) })] },
      0, aRequestPacket .write, _, by decide +kernel, rfl, rfl, by decide +kernel⟩⟩

/-- The locations of the request's bytes. -/
def requested : List Nat := locsFrom (2 ^ 29 + 0x2000) 8

theorem letIn_of (s : State) (l : Nat) (p : FabReq) (q : Qp) (r : MemRegion) (ls : List Nat)
    (h : (tfind s.qps p.qp = some q ∧ (∀ x ∈ (s.link l).reqs, x.qp ≠ p.qp) ∧ (∀ x ∈ (s.link l).staged, x.qp ≠ p.qp) ∧
        p.inc = s.linkInc l ∧ q.resident = true ∧ p.qp ∈ (s.link (qpLink p.qp)).lru ∧ (p.first = true ∧ p.last = true) ∧
        p.seq = q.nextRecv ∧ ((s.link (qpLink p.qp)).port q.port.toNat).st = 2) ∧
      q.st = .rts ∧ (q.rmod.toNat = p.rmod ∧ q.rqp.toNat = p.rqp) ∧ r = s.memRegion (keyIndex p.key) ∧
      (r.st = .valid ∧ r.gen.toNat = p.key.toNat % 2 ^ 8) ∧ (r.asid = q.asid ∧ r.sec = q.sec) ∧
      (p.off + p.opLen ≤ r.len ∧ s.rangeValid r.asid.toNat (r.base + BitVec.ofNat 64 p.off) p.opLen = true) ∧
      (s.spineLocs r.asid.toNat (r.base + BitVec.ofNat 64 p.off) ls.length = ls.map some ∧
        (∀ i, i < ls.length → s.spineRepl r.asid.toNat (r.base + BitVec.ofNat 64 p.off + BitVec.ofNat 64 i) = false) ∧
        (∀ l ∈ ls, s.settledByte l = memGet s.mem l) ∧ s.agentWriting s.fresh = false ∧
        s.spineRangeOk r.asid.toNat (r.base + BitVec.ofNat 64 p.off) ls.length = true ∧ ls.Nodup) ∧
      (∀ l ∈ ls, s.replLocked l = false) ∧ (∀ l ∈ ls, s.bad l = false) ∧
      (∀ a ∈ (s.link l).admitted, a.has p = false) ∧ (s.link l).tcache = []) (z : s.Unwatched) : LetIn s l p q r ls := by
  obtain ⟨⟨a1, a2, a3, a4, a5, a6, a7, a8, a9⟩, b, c, d, e, f, g, m, u, v, w, k⟩ := h
  exact ⟨⟨a1, a2, a3, a4, a5, a6, a7, a8, a9⟩, .inl b, c, d, e, f, g, mapsTo_of _ _ _ _ m z,
    fun a => by unfold State.linkXlate State.linkEntry; rw [k]; rfl, u, v, w⟩

theorem wit_FabricEvents_target_letIn : ∃ (s : State) (l : Nat) (p : FabReq) (q : Qp) (r : MemRegion) (ls : List Nat), s.mem.wf = true ∧
    s.Unwatched ∧ LetIn s l p q r ls ∧ p.op = .write ∧ p.len = ls.length ∧ p.data.length = ls.length ∧ r.rw = true :=
  ⟨fabric (aQp .rts) aRegion [], 0, aRequestPacket .write, aQp .rts, aRegion, requested, by decide +kernel,
    unwatched_of _ (by decide +kernel), letIn_of _ _ _ _ _ _ (by decide +kernel) (unwatched_of _ (by decide +kernel)), rfl,
    by decide +kernel, by decide +kernel, rfl⟩

theorem wit_FabricEvents_target_noWrite : ∃ (s : State) (l : Nat) (p : FabReq) (q : Qp) (r : MemRegion) (ls : List Nat), s.mem.wf = true ∧
    s.Unwatched ∧ LetIn s l p q r ls ∧ p.op = .write ∧ p.len = ls.length ∧ p.data.length = ls.length ∧ r.rw = false :=
  ⟨fabric (aQp .rts) { aRegion with rw := false } [], 0, aRequestPacket .write, aQp .rts, { aRegion with rw := false }, requested,
    by decide +kernel, unwatched_of _ (by decide +kernel),
    letIn_of _ _ _ _ _ _ (by decide +kernel) (unwatched_of _ (by decide +kernel)), rfl, by decide +kernel, by decide +kernel, rfl⟩

theorem wit_FabricEvents_target_read : ∃ (s : State) (l : Nat) (p : FabReq) (q : Qp) (r : MemRegion) (ls : List Nat),
    s.mem.wf = true ∧ s.Unwatched ∧ LetIn s l p q r ls ∧ p.op = .read ∧ p.len = ls.length ∧ r.rr = true :=
  ⟨fabric (aQp .rts) aRegion [], 0, aRequestPacket .read, aQp .rts, aRegion, requested, by decide +kernel,
    unwatched_of _ (by decide +kernel), letIn_of _ _ _ _ _ _ (by decide +kernel) (unwatched_of _ (by decide +kernel)), rfl,
    by decide +kernel, rfl⟩

theorem wit_FabricEvents_target_noRight : ∃ (s : State) (l : Nat) (p : FabReq) (q : Qp) (r : MemRegion) (ls : List Nat),
    s.mem.wf = true ∧ s.Unwatched ∧ LetIn s l p q r ls ∧ p.op = .read ∧ p.len = ls.length ∧ r.rr = false :=
  ⟨fabric (aQp .rts) { aRegion with rr := false } [], 0, aRequestPacket .read, aQp .rts, { aRegion with rr := false }, requested,
    by decide +kernel, unwatched_of _ (by decide +kernel),
    letIn_of _ _ _ _ _ _ (by decide +kernel) (unwatched_of _ (by decide +kernel)), rfl, by decide +kernel, rfl⟩

theorem wit_FabricEvents_target_fadd : ∃ (s : State) (l : Nat) (p : FabReq) (q : Qp) (r : MemRegion) (ls : List Nat), s.mem.wf = true ∧
    s.Unwatched ∧ LetIn s l p q r ls ∧ p.op = .fadd ∧ ls.length = 8 ∧ p.off % 8 = 0 ∧ r.ra = true ∧ s.pasBusy ls = false :=
  ⟨fabric (aQp .rts) aRegion [], 0, aRequestPacket .fadd, aQp .rts, aRegion, requested, by decide +kernel,
    unwatched_of _ (by decide +kernel), letIn_of _ _ _ _ _ _ (by decide +kernel) (unwatched_of _ (by decide +kernel)), rfl,
    by decide +kernel, by decide +kernel,
    rfl, by decide +kernel⟩

theorem wit_FabricEvents_target_fetch : ∃ (s : State) (n : Nat) (q : Qp), tfind s.qps n = some q ∧ q.resident = false ∧
    (∀ x ∈ (s.link (qpLink n)).staged, x.qp ≠ n) ∧ (s.link (qpLink n)).lru.length < 8192 ∧ n ∉ (s.link (qpLink n)).lru :=
  ⟨{ fabric { aQp .rts with resident := false } aRegion [] with links := [] }, 4, _, rfl, rfl, by decide +kernel,
    by decide +kernel, by decide +kernel⟩

/-- A remote operation of the strand by queue pair 4, sent. -/
def posted (op : RmaOp) : EngOp := { operation 9 3 1 (.rma op pad 0 0x107 4 8 false false) .running with arrived := some 0 }

/-- Its state. -/
def inFabric (o : EngOp) : State := fabric (aQp .rts) aRegion [o]

/-- A response to its one packet. -/
def aResponse (inc st : BitVec 8) : FabRsp := { id := 9, qp := 4, inc := inc, status := st, off := 0, data := [] }

theorem posted_of (s : State) (o : EngOp) (op : RmaOp) (q : Qp)
    (h : (s.ops.find? (fun b => b.id == o.id) = some o ∧ (∀ b ∈ s.ops, b.id = o.id → b = o)) ∧
      (o.body = .rma op pad 0 0x107 4 8 false false ∧ o.st = .running) ∧ (s.opRuns o = true ∧ o.walk = none) ∧
      s.opWriting o = false ∧ o.arrived ≠ none ∧ tfind s.qps 4 = some q) : Posted s o op pad 0 0x107 4 8 false false q :=
  ⟨h.1.1, h.1.2, h.2.1.1, h.2.1.2, h.2.2.1.1, h.2.2.1.2, h.2.2.2.1, h.2.2.2.2.1, h.2.2.2.2.2⟩

theorem wit_FabricEvents_stale : ∃ (s : State) (o : EngOp) (op : RmaOp) (a off : Word) (key : BitVec 32) (n len : Nat)
    (y f : Bool) (q : Qp) (r : FabRsp), Posted s o op a off key n len y f q ∧ r.id = o.id ∧ r.qp = n ∧ r.inc ≠ q.inc :=
  ⟨inFabric (posted .write), posted .write, .write, _, _, _, _, _, _, _, aQp .rts, aResponse 1 0,
    posted_of _ _ _ _ (by decide +kernel), rfl, rfl, by decide⟩

/-- An operation whose packet has been refused three times. -/
def refusedPost : EngOp := { posted .write with refused := [(0, 3)] }

theorem wit_FabricEvents_exhausted : ∃ (s : State) (o : EngOp) (op : RmaOp) (a off : Word) (key : BitVec 32) (n len : Nat)
    (y f : Bool) (q : Qp) (r : FabRsp), Posted s o op a off key n len y f q ∧ r.id = o.id ∧ r.qp = n ∧ r.inc = q.inc ∧
    r.status = notReady ∧ q.retry.toNat ≤ tget 0 o.refused r.off :=
  ⟨inFabric refusedPost, refusedPost, .write, _, _, _, _, _, _, _, aQp .rts, aResponse 0 0xFF, posted_of _ _ _ _ (by decide +kernel), rfl, rfl,
    rfl, rfl, by decide⟩

theorem wit_FabricEvents_notReady : ∃ (s : State) (o : EngOp) (op : RmaOp) (a off : Word) (key : BitVec 32) (n len : Nat)
    (y f : Bool) (q : Qp) (r : FabRsp), Posted s o op a off key n len y f q ∧ r.id = o.id ∧ r.qp = n ∧ r.inc = q.inc ∧
    r.status = notReady ∧ tget 0 o.refused r.off < q.retry.toNat :=
  ⟨inFabric (posted .write), posted .write, .write, _, _, _, _, _, _, _, aQp .rts, aResponse 0 0xFF,
    posted_of _ _ _ _ (by decide +kernel), rfl, rfl, rfl, rfl, by decide⟩

theorem wit_FabricEvents_status : ∃ (s : State) (o : EngOp) (op : RmaOp) (a off : Word) (key : BitVec 32) (n len : Nat)
    (y f : Bool) (q : Qp) (r : FabRsp), Posted s o op a off key n len y f q ∧ r.id = o.id ∧ r.qp = n ∧ r.inc = q.inc ∧
    r.status ≠ notReady ∧ r.status ≠ 0 :=
  ⟨inFabric (posted .write), posted .write, .write, _, _, _, _, _, _, _, aQp .rts, aResponse 0 4,
    posted_of _ _ _ _ (by decide +kernel), rfl, rfl, rfl, by decide, by decide⟩

/-- An operation whose packet has been answered. -/
def answeredPost : EngOp := { posted .write with got := [0] }

theorem wit_FabricEvents_again : ∃ (s : State) (o : EngOp) (op : RmaOp) (a off : Word) (key : BitVec 32) (n len : Nat)
    (y f : Bool) (q : Qp) (r : FabRsp), Posted s o op a off key n len y f q ∧ r.id = o.id ∧ r.qp = n ∧ r.inc = q.inc ∧
    r.status = 0 ∧ r.off ∈ o.got :=
  ⟨inFabric answeredPost, answeredPost, .write, _, _, _, _, _, _, _, aQp .rts, aResponse 0 0, posted_of _ _ _ _ (by decide +kernel), rfl, rfl,
    rfl, rfl, by decide⟩

theorem wit_FabricEvents_response : ∃ (s : State) (o : EngOp) (a off : Word) (key : BitVec 32) (n len : Nat)
    (y f : Bool) (q : Qp) (r : FabRsp), Posted s o .write a off key n len y f q ∧ r.id = o.id ∧ r.qp = n ∧ r.inc = q.inc ∧
    r.status = 0 ∧ r.off ∉ o.got :=
  ⟨inFabric (posted .write), posted .write, _, _, _, _, _, _, _, aQp .rts, aResponse 0 0,
    posted_of _ _ _ _ (by decide +kernel), rfl, rfl, rfl, rfl, by decide⟩

/-- The addresses that a remote read fills. -/
def landings : List Word := (List.range 8).map fun i => pad + BitVec.ofNat 64 (0 - (0 : Word).toNat) + BitVec.ofNat 64 i

theorem wit_FabricEvents_landing : ∃ (s : State) (o : EngOp) (op : RmaOp) (a off : Word) (key : BitVec 32) (n len : Nat)
    (y f : Bool) (q : Qp) (r : FabRsp) (ls : List Nat) (vas : List Word) (pages : Tbl Got),
    Posted s o op a off key n len y f q ∧ r.id = o.id ∧ r.qp = n ∧ r.inc = q.inc ∧ r.status = 0 ∧ r.off ∉ o.got ∧ op ≠ .write ∧
    s.mem.wf = true ∧ s.Unwatched ∧
    vas = (List.range r.data.length).map (fun i =>
      (if op = .read then a + BitVec.ofNat 64 (r.off - off.toNat) else a) + BitVec.ofNat 64 i) ∧
    pages = s.engPages o vas ∧ (∀ x ∈ vas, wfld x 56 8 ∈ [0x00, 0xF0, 0xF1, 0xF2]) ∧ SpanClear s o pages [] vas ∧
    ls = vas.map (fun x => (s.engByte o pages false true x).locs.headD 0) ∧ ls.Nodup :=
  ⟨inFabric (posted .read), posted .read, .read, pad, 0, 0x107, 4, 8, false, false, aQp .rts,
    { aResponse 0 0 with data := List.replicate 8 1 }, _, landings, _, posted_of _ _ _ _ (by decide +kernel), rfl, rfl, rfl, rfl,
    by decide, by decide, by decide +kernel, unwatched_of _ (by decide +kernel), rfl, rfl, all_of _ (by decide +kernel),
    spanClear_of _ _ _ _ _ (by decide +kernel) (by decide +kernel), rfl, by decide +kernel⟩

/-- An operation of which a refused packet waits to be sent again, and its queue pair. -/
def toResend : EngOp := { posted .write with refused := [(0, 1)], again := some 0 }

theorem wit_FabricEvents_resend : ∃ (s : State) (o : EngOp) (op : RmaOp) (a off : Word) (key : BitVec 32) (n len k : Nat)
    (y f : Bool) (q : Qp), Posted s o op a off key n len y f q ∧ q.backoff = true ∧ s.postsOf o.asid n = [o] ∧
    o.again = some k ∧ ((s.link (qpLink n)).port q.port.toNat).st = 2 :=
  ⟨fabric { aQp .rts with backoff := true } aRegion [toResend], toResend, .write, _, _, _, _, _, 0, _, _, { aQp .rts with backoff := true },
    posted_of _ _ _ _ (by decide +kernel), rfl, by decide +kernel, rfl, by decide +kernel⟩

/-- A state with one port. -/
def ported (x : Port) : State := { State.reset with links := [(14, { Link.blank with ports := [(3, x)] })] }

theorem wit_FabricEvents_ports : (∃ (s : State) (l n : Nat), 17 ≤ ((s.link l).port n).fails) ∧
    ∃ (s : State) (l n : Nat), ((s.link l).port n).st ≠ 2 :=
  ⟨⟨ported { Port.blank with st := 2, fails := 17 }, 14, 3, by decide +kernel⟩, ⟨State.reset, 0, 0, by decide +kernel⟩⟩

theorem wit_FabricEvents_down : ∃ (s : State) (l n : Nat) (o : EngOp) (m : Nat) (q : Qp), ((s.link l).port n).st ≠ 2 ∧
    o ∈ s.ops ∧ o.qp? = some m ∧ tfind s.qps m = some q ∧ o.st ≠ .ended ∧ o.arrived ≠ none ∧ LeavesBy s m q l n :=
  ⟨{ inFabric (posted .write) with links := [] }, 0, 0, posted .write, 4, aQp .rts, by decide +kernel, by decide +kernel,
    by decide +kernel, by decide +kernel, by decide, by decide, .inl (by decide +kernel)⟩

/-- A state with a way to module 255 by port 3 of link 14, the port in a given state. -/
def forwarding (st : BitVec 2) : State :=
  { ported { Port.blank with st := st } with spine := { State.reset.spine with froute := [(255, 1 <<< 63 ||| 0xE3)] } }

theorem wit_FabricEvents_forward : (∃ (s : State) (dst : Nat) (x : Port), (tget 0 s.spine.froute dst).getLsbD 63 = true ∧
      x = (s.link (wfld (tget 0 s.spine.froute dst) 4 4)).port (wfld (tget 0 s.spine.froute dst) 0 2) ∧ x.st = 2) ∧
    (∃ (s : State) (dst : Nat) (x : Port), (tget 0 s.spine.froute dst).getLsbD 63 = true ∧
      x = (s.link (wfld (tget 0 s.spine.froute dst) 4 4)).port (wfld (tget 0 s.spine.froute dst) 0 2) ∧ x.st = 1) ∧
    ∃ (s : State) (dst : Nat), (tget 0 s.spine.froute dst).getLsbD 63 = false :=
  ⟨⟨forwarding 2, 255, _, by decide +kernel, rfl, by decide +kernel⟩, ⟨forwarding 1, 255, _, by decide +kernel, rfl, by decide +kernel⟩,
    ⟨State.reset, 0, by decide +kernel⟩⟩

theorem wit_FabricEvents_linkReset : (∃ (s : State) (l : Nat), l < 15 ∧ (s.site (nth 0 linkSites l)).st ≠ .live) ∧
    ∃ (s : State) (l : Nat) (q : Qp), l < 15 ∧ (s.site (nth 0 linkSites l)).st = .live ∧
      tfind s.qps (l * 2 ^ 20 + 4) = some q :=
  ⟨⟨State.reset, 14, by decide, by decide +kernel⟩,
    ⟨{ State.reset with
        sites := [(nth 0 linkSites 14, { (State.reset.site 0) with st := .live })], qps := [(14 * 2 ^ 20 + 4, aQp .rts)] },
      14, aQp .rts, by decide, by decide +kernel, by decide +kernel⟩⟩

/-- The state with a cached line, in which the strand issues at its PC. -/
def fetching (pc : Word) (page : Word) (line : BitVec 512) : State :=
  { placed { near with pc := pc } with
    issuing := [(16, 0)]
    clusters := [(4, { Cluster.blank with tlb := [{ lowPage with pte := page }], icache := [(1, line)] })] }

theorem fetching_member (pc page : Word) (line : BitVec 512) : Member (fetching pc page line) 16 0 [] { near with pc := pc } :=
  ⟨rfl, rfl, rfl⟩

theorem fetches_of (pc page : Word) (line : BitVec 512) (e : TlbEntry)
    (h : (pc.toNat < 2 ^ 55 ∧
        ((fetching pc page line).clu 4).tlb.find? (fun e => e.hits near.asid near.sec pc) = some e) ∧
      (e.pte.getLsbD 4 = true ∧ e.pte.getLsbD 6 = near.sec ∧
        ∀ l ∈ (fetching pc page line).blockLocs 16 e pc, (fetching pc page line).worldOk near.sec l = true) ∧
      (fetching pc page line).routable (coreSite 16) (locSite (((fetching pc page line).blockLocs 16 e pc).headD 0)) = true ∧
      (∀ l ∈ (fetching pc page line).blockLocs 16 e pc, (fetching pc page line).bad l = false) ∧
      tfind ((fetching pc page line).clu 4).icache (pc.toNat / 64) = some line) :
    Fetches (fetching pc page line) 16 { near with pc := pc }
      (((leBytes 64 line.toNat).drop (pc.toNat % 64)).take (32 - pc.toNat % 32)) := by
  obtain ⟨⟨h1, h2⟩, ⟨h3, h4, h8⟩, h5, h6, h7⟩ := h
  exact ⟨⟨e, ⟨⟨h1, h2⟩, h3, h4, h8⟩, h5, h6⟩, line, h7, rfl⟩

/-- Whether bytes decode to an instruction. -/
def decodesTo (bs : List Byte) (i : Instr) : Bool :=
  match decode bs with
  | .ok x => x.1 == i
  | .error _ => false

theorem decodesTo_spec (bs : List Byte) (i : Instr) (h : decodesTo bs i = true) : ∃ more, decode bs = .ok (i, more) := by
  unfold decodesTo at h
  split at h
  · rename_i x e
    exact ⟨x.2, by rw [e, ← eq_of_beq h]⟩
  · cases h

theorem wit_StepKeepsMemory : ∃ s t : State, s.mem.wf = true ∧ step s = .next t :=
  ⟨{ State.reset with issuing := [(16, 0)] }, _, by decide +kernel, rfl⟩

theorem wit_StepRunsDecoded : ∃ (s : State) (c sl : Nat) (rest : List (Nat × Nat)) (p : Strand) (bs : List Byte) (i : Instr)
    (more : List Byte), Member s c sl rest p ∧ Fetches s c p bs ∧ decode bs = .ok (i, more) := by
  obtain ⟨more, h⟩ := decodesTo_spec (((leBytes 64 codeLine.toNat).drop ((64 : Word).toNat % 64)).take (32 - (64 : Word).toNat % 32))
    (.add false (ops .w64 0 (.g 3) (.g 1) (.l6 5) .none)) (by decide +kernel)
  exact ⟨_, 16, 0, [], _, _, _, more, fetching_member 64 leaf codeLine, fetches_of _ _ _ lowPage (by decide +kernel), h⟩

theorem wit_StepRunsDecoded_window : ∃ (s : State) (c sl : Nat) (rest : List (Nat × Nat)) (p : Strand), Member s c sl rest p ∧
    2 ^ 56 ≤ p.pc.toNat ∧ p.pc.toNat < 0xF0 * 2 ^ 56 :=
  ⟨_, 16, 0, [], _, fetching_member (1 <<< 56) leaf 0, by decide +kernel, by decide +kernel⟩

theorem wit_StepRunsDecoded_page : (∃ (s : State) (c sl : Nat) (rest : List (Nat × Nat)) (p : Strand) (e : TlbEntry),
      Member s c sl rest p ∧ Translated s c p e ∧ e.pte.getLsbD 4 = false) ∧
    ∃ (s : State) (c sl : Nat) (rest : List (Nat × Nat)) (p : Strand) (e : TlbEntry),
      Member s c sl rest p ∧ Translated s c p e ∧ e.pte.getLsbD 4 = true ∧ e.pte.getLsbD 6 = !p.sec :=
  ⟨⟨_, 16, 0, [], _, _, fetching_member 64 (leaf - 0x10) 0, ⟨by decide +kernel, rfl⟩, by decide +kernel⟩,
    ⟨_, 16, 0, [], _, _, fetching_member 64 (leaf + 0x40) 0, ⟨by decide +kernel, rfl⟩, by decide +kernel, by decide +kernel⟩⟩

theorem wit_StepRunsDecoded_empty : (∃ (s : State) (c sl : Nat) (rest : List (Nat × Nat)), s.issuing = (c, sl) :: rest ∧
      s.strand? c sl = none) ∧
    ∃ (s : State) (e : Instr) (rest : List Instr), s.issuing = [] ∧ s.agenda = e :: rest ∧ e.shape = none :=
  ⟨⟨{ State.reset with issuing := [(16, 0)] }, 16, 0, [], rfl, by decide +kernel⟩,
    ⟨{ State.reset with agenda := [.epoch] }, .epoch, [], rfl, rfl, rfl⟩⟩

theorem wit_UnassignedOpcodes : ∃ (s : State) (c sl : Nat) (rest : List (Nat × Nat)) (p : Strand) (bs : List Byte) (w : WordId),
    Member s c sl rest p ∧ Fetches s c p bs ∧ w = wordIdOf bs ∧ w.len ≠ 3 ∧ p.pc.toNat % 32 + w.bytes ≤ 32 ∧
    fnCount w.maj.toNat ≤ w.fn.toNat :=
  ⟨_, 16, 0, [], _, _, _, fetching_member 64 leaf 0xFFFC, fetches_of 64 leaf 0xFFFC lowPage (by decide +kernel), rfl, by decide +kernel, by decide +kernel,
    by decide +kernel⟩

theorem wit_UnassignedOpcodes_length : ∃ (s : State) (c sl : Nat) (rest : List (Nat × Nat)) (p : Strand) (bs : List Byte)
    (w : WordId), Member s c sl rest p ∧ Fetches s c p bs ∧ w = wordIdOf bs ∧ w.len = 3 :=
  ⟨_, 16, 0, [], _, _, _, fetching_member 64 leaf 3, fetches_of 64 leaf 3 lowPage (by decide +kernel), rfl, by decide +kernel⟩

theorem wit_UnassignedOpcodes_straddle : ∃ (s : State) (c sl : Nat) (rest : List (Nat × Nat)) (p : Strand) (bs : List Byte)
    (w : WordId), Member s c sl rest p ∧ Fetches s c p bs ∧ w = wordIdOf bs ∧ w.len ≠ 3 ∧
    32 < p.pc.toNat % 32 + w.bytes :=
  ⟨_, 16, 0, [], _, _, _, fetching_member 92 leaf 0, fetches_of 92 leaf 0 lowPage (by decide +kernel), rfl, by decide +kernel,
    by decide +kernel⟩

theorem wit_EncodeDecode : ∃ i : Instr, i.wellFormed = true :=
  ⟨.add false (ops .w96 0 (.g 3) (.g 1) (.l32 0xFFFFFFFF) .none), by decide +kernel⟩

/-! ### Single steps with the manual's values -/

/-- What a step that answers leaves. -/
def after : Host.Outcome State Fault Refusal → State
  | .next t => t
  | _ => State.reset

/-- The small state with a value in every lane of v3. -/
def lanesOf (x : Nat) : State :=
  let v : VReg := BitVec.ofNat 512 ((List.range 16).map fun i => x * 2 ^ (32 * i)).sum
  { one { strand with sid := 0 } with cores := [(16, { core { strand with sid := 0 } with vrf := [(3, v)] })] }

/-- Element 0 of v2, and FLAGS, after a conversion of a value to E4M3. -/
def toE4m3 (x : Nat) (r : RSel) (sat : Bool) : Nat × BitVec 16 :=
  let t := after (exec (.fcvt .f32 .e4m3 r 0 sat false (ops .w64 0 (.v 2) (.v 3) .none .none)) (lanesOf x))
  (elem 8 (t.myCore.vreg 2) 0, t.me.flags)

/-- 03 Table 03.7: 1.0625 by RNE and RUP, 470.0 with .sat and by RTZ, 2^−10 by RUP. -/
theorem test_fcvt_e4m3 :
    toE4m3 0x3F880000 .rne false = (0x38, 1) ∧ toE4m3 0x3F880000 .rup false = (0x39, 1) ∧
    (toE4m3 0x43EB0000 .rne true).1 = 0x7E ∧ toE4m3 0x43EB0000 .rtz false = (0x7E, 1) ∧
    toE4m3 0x3A800000 .rup false = (0x01, 3) := by decide +kernel

/-- 03, after Table 03.7: with DRAW, SEED and SID zero, .sr rounds 1.0625 away from zero. -/
theorem test_fcvt_sr : toE4m3 0x3F880000 .sr false = (0x39, 1) := by decide +kernel

/-- 05, after Table 05.9: with g3 = 3 the JTAB at 0x200 falls through to 0x210. -/
theorem test_jtab_falls_through :
    (after (exec (.jtab 0x80 3 (ops .w128 0 .none (.g 2) .none .none)) (one { strand with pc := 0x200 }))).me.pc = 0x210 := by
  decide +kernel

/-- 01 Table 01.9: ADD g3, g1, #5, fetched as the first instruction after reset, with g1 at 0. -/
theorem test_first_instruction :
    (after (step (State.reset.withFetchWord 64 0x0000C0C501030004))).me.getG 3 = 5 := by decide +kernel

/-- 05 after Table 05.3: DIVU.W by zero gives all ones, and MULHU.W of 0xFFFF_FFFF by 2 gives 1. -/
theorem test_word_forms :
    (after (exec (.divu true (ops .w64 0 (.g 3) (.g 1) (.l6 0) .none)) (one strand))).me.getG 3 = 0xFFFFFFFFFFFFFFFF ∧
    (after (exec (.mulhu true (ops .w96 0 (.g 3) (.l32 0xFFFFFFFF) (.l6 2) .none)) (one strand))).me.getG 3 = 1 := by
  decide +kernel
end Sys2Proof.Tests
end

section
/-! The word of an instruction: what its 128 bits, its bytes and the fields of X give back (01 R17, R18, R29). -/

namespace Sys2Proof

/-! ### Bits and bytes -/

theorem Raw.ofBits_bits (r : Raw) : Raw.ofBits r.bits = r := by
  have parts (s n : Nat) : r.bits.extractLsb' s n = (r.l1 ++ r.l0 ++ r.x ++ r.m ++ r.ck ++ r.c ++ r.bk ++ r.b ++ r.ak ++
      r.a ++ r.dk ++ r.d ++ r.fn ++ r.maj ++ r.len).extractLsb' s n := rfl
  simp only [Raw.ofBits, parts]
  simp (disch := decide) only [BitVec.extractLsb'_append_eq_of_le, BitVec.extractLsb'_append_eq_of_add_le, Nat.reduceSub,
    BitVec.extractLsb'_eq_self]

theorem leNat_leBytes (n x : Nat) : leNat (leBytes n x) = x % 256 ^ n := by
  induction n generalizing x with
  | zero => simp [leBytes, leNat, Nat.mod_one]
  | succ n ih =>
    rw [leBytes, leNat, ih, BitVec.toNat_ofNat, pow_succ' 256 n, Nat.mod_mul]

@[simp] theorem leBytes_length (n x : Nat) : (leBytes n x).length = n := by
  induction n generalizing x with
  | zero => rfl
  | succ n ih => simp [leBytes, ih]

@[simp] theorem Len.ofBits_bits (l : Len) : Len.ofBits l.bits = some l := by cases l <;> rfl

theorem Len.bits_ne_three (l : Len) : l.bits ≠ 3 := by cases l <;> decide

/-- The literal words beyond a word's length are zero (01 R17). -/
def Raw.FitsLen (r : Raw) (len : Len) : Prop :=
  r.len = len.bits ∧ (len ≠ .w128 → r.l1 = 0) ∧ (len = .w64 → r.l0 = 0)

theorem Raw.bits_lt {r : Raw} {len : Len} (h : r.FitsLen len) : r.bits.toNat < 256 ^ len.bytes := by
  obtain ⟨-, h1, h0⟩ := h
  have e1 : r.bits.toNat / 2 ^ 96 % 2 ^ 32 = r.l1.toNat := by
    rw [← Nat.shiftRight_eq_div_pow, ← BitVec.extractLsb'_toNat, ← congrArg Raw.l1 r.ofBits_bits]
    rfl
  have e0 : r.bits.toNat / 2 ^ 64 % 2 ^ 32 = r.l0.toNat := by
    rw [← Nat.shiftRight_eq_div_pow, ← BitVec.extractLsb'_toNat, ← congrArg Raw.l0 r.ofBits_bits]
    rfl
  have hlt := r.bits.isLt
  cases len <;> simp_all [Len.bytes] <;> omega

/-- LEN stands in the low bits of the first byte (01 R18). -/
theorem Raw.first_byte (r : Raw) : (BitVec.ofNat 8 r.bits.toNat).setWidth 2 = r.len := by
  have e : r.bits.extractLsb' 0 2 = r.len := congrArg Raw.len r.ofBits_bits
  apply BitVec.eq_of_toNat_eq
  rw [← e]
  simp only [BitVec.toNat_setWidth, BitVec.toNat_ofNat, BitVec.extractLsb'_toNat, Nat.shiftRight_zero]
  omega

/-- A word that decodes is found at the start of its own bytes, whatever follows them. -/
theorem decode_leBytes {r : Raw} {i : Instr} {len : Len} (h : r.FitsLen len) (hi : decodeRaw r = .ok i) (rest : List Byte) :
    decode (leBytes len.bytes r.bits.toNat ++ rest) = .ok (i, rest) := by
  obtain ⟨n, hn⟩ : ∃ n, len.bytes = n + 1 := by cases len <;> exact ⟨_, rfl⟩
  have hcons : leBytes len.bytes r.bits.toNat ++ rest =
      BitVec.ofNat 8 r.bits.toNat :: (leBytes n (r.bits.toNat / 256) ++ rest) := by rw [hn]; rfl
  have hlen : Len.ofBits ((BitVec.ofNat 8 r.bits.toNat).setWidth 2) = some len := by
    rw [r.first_byte, h.1, Len.ofBits_bits]
  have htake : (leBytes len.bytes r.bits.toNat ++ rest).take len.bytes = leBytes len.bytes r.bits.toNat :=
    List.take_left' (leBytes_length _ _)
  have hdrop : (leBytes len.bytes r.bits.toNat ++ rest).drop len.bytes = rest := List.drop_left' (leBytes_length _ _)
  have hword : Raw.ofBits (BitVec.ofNat 128 (leNat (leBytes len.bytes r.bits.toNat))) = r := by
    rw [leNat_leBytes, Nat.mod_eq_of_lt (Raw.bits_lt h), BitVec.ofNat_toNat, BitVec.setWidth_eq, r.ofBits_bits]
  have hlong : ¬ (leBytes len.bytes r.bits.toNat ++ rest).length < len.bytes := by simp
  rw [decode.eq_def, hcons]
  simp only [hlen]
  rw [← hcons, if_neg hlong, htake, hdrop, hword, hi]

/-! ### Fields of X and of the literal words -/

section Fields
variable {N m : Nat} (v : BitVec m) {k s n j : Nat} {c : BitVec 13}

@[simp] theorem extractLsb'_field_same (h : k + m ≤ N) : (v.setWidth N <<< k).extractLsb' k m = v := by
  ext i hi
  simp [show k + i < N by omega, hi]

@[simp] theorem extractLsb'_field_disjoint (h : s + n ≤ k ∨ k + m ≤ s) :
    (v.setWidth N <<< k).extractLsb' s n = 0 := by
  ext i hi
  have : s + i < k ∨ m ≤ s + i - k := by omega
  rcases this with h | h <;> simp [h]

@[simp] theorem extractLsb'_low_same (h : m ≤ N) : (v.setWidth N).extractLsb' 0 m = v := by
  simpa using extractLsb'_field_same v (k := 0) (by omega)

@[simp] theorem extractLsb'_low_disjoint (h : m ≤ s) : (v.setWidth N).extractLsb' s n = 0 := by
  simpa using extractLsb'_field_disjoint v (k := 0) (n := n) (.inr (by omega : 0 + m ≤ s))

@[simp] theorem getElem_field_disjoint (hj : j < N) (h : j < k ∨ k + m ≤ j) : (v.setWidth N <<< k)[j] = false := by
  have : j < k ∨ m ≤ j - k := by omega
  rcases this with h | h <;> simp [h]

@[simp] theorem getElem_low_disjoint (hj : j < N) (h : m ≤ j) : (v.setWidth N)[j] = false := by
  simp [h]

/-- What a wider piece of X shows to be zero is zero. -/
theorem extractLsb'_eq_zero_of_low {x : BitVec 13} (h : x.extractLsb' 0 k = 0) (hs : s + n ≤ k) : x.extractLsb' s n = 0 := by
  ext i hi
  have := congrArg (·.getLsbD (s + i)) h
  simpa [show s + i < k by omega] using this

/-- A field meets a mask nowhere when the field's place does not. -/
@[simp] theorem field_and_eq_zero (h : (BitVec.allOnes m).setWidth 13 <<< k &&& c = 0) :
    v.setWidth 13 <<< k &&& c = 0 := by
  refine BitVec.eq_of_getLsbD_eq fun i hi => ?_
  have hbit := congrArg (·.getLsbD i) h
  by_cases hm : i - k < m
  · simp only [BitVec.getLsbD_and, BitVec.getLsbD_shiftLeft, BitVec.getLsbD_setWidth, BitVec.getLsbD_allOnes, hm] at hbit ⊢
    grind
  · simp [show m ≤ i - k by omega]

@[simp] theorem low_and_eq_zero (h : (BitVec.allOnes m).setWidth 13 &&& c = 0) : v.setWidth 13 &&& c = 0 := by
  simpa using field_and_eq_zero v (k := 0) (by simpa using h)

theorem b1_eq_field (b : Bool) : b1 b k = (BitVec.ofBool b).setWidth 13 <<< k := by
  cases b
  · simp [b1]
  · rfl

@[simp] theorem getElem_b1_same (b : Bool) (h : k < 13) : (b1 b k)[k] = b := by
  simp [b1_eq_field]

@[simp] theorem getElem_b1_ne (b : Bool) (hj : j < 13) (h : j < k ∨ k < j) : (b1 b k)[j] = false := by
  simp only [b1_eq_field]
  exact getElem_field_disjoint _ hj (by omega)

@[simp] theorem extractLsb'_b1_disjoint (b : Bool) (h : s + n ≤ k ∨ k < s) : (b1 b k).extractLsb' s n = 0 := by
  rw [b1_eq_field, extractLsb'_field_disjoint]
  omega

@[simp] theorem b1_and_eq_zero (b : Bool) (h : (BitVec.allOnes 1).setWidth 13 <<< k &&& c = 0) : b1 b k &&& c = 0 := by
  rw [b1_eq_field, field_and_eq_zero _ h]

/-- L0 of HGEMV holds N above K (11 R299). -/
theorem extractLsb'_halves (x y : BitVec 16) :
    (x ++ y : BitVec 32).extractLsb' 16 16 = x ∧ (x ++ y : BitVec 32).extractLsb' 0 16 = y := by
  constructor <;> (ext i hi; grind)

end Fields
end Sys2Proof
end

section
/-! The operands of a word: the decoder reads back what the encoder wrote (01 R24 to R30, R35). -/

namespace Sys2Proof

/-- The literal operands in slot order (01 Table 01.4). -/
def Ops.literals (o : Ops) : List Src := [o.a, o.b, o.c].filter Src.isLit

theorem Ops.fits_iff {f : Form} {o : Ops} : o.fits f = true ↔ o.len ∈ f.lens ∧ (f.lanes = true ∨ o.m = 0) ∧
    f.d.accepts o.d = true ∧ f.a.accepts o.a = true ∧ f.b.accepts o.b = true ∧ f.c.accepts o.c = true ∧
    o.d.evenOk f.pairD = true ∧ o.b.evenOk f.pairB = true ∧ o.c.evenOk f.pairC = true := by
  simp [Ops.fits, and_assoc]

@[simp] theorem readDst_tag_num (d : Dst) : readDst d.tag d.num = some d := by cases d <;> rfl

theorem readSlot_tag_num {k : SrcKinds} {s : Src} {lit : Option Src} (h : k.accepts s = true)
    (hlit : s.isLit = true → lit = some s) : readSlot k s.tag s.num lit = some s := by
  cases s <;> simp_all [SrcKinds.accepts, SrcKinds.used, readSlot, Src.tag, Src.num, Src.isLit]

/-- Tag 11 in a slot that the form uses says that the operand is a literal (01 R25, R26). -/
theorem used_and_tag {k : SrcKinds} {s : Src} (h : k.accepts s = true) : (k.used && s.tag == 3) = s.isLit := by
  cases s <;> simp_all [SrcKinds.accepts, SrcKinds.used, Src.tag, Src.isLit]

theorem readOps_raw6 {f : Form} {o : Ops} (h : o.fits f = true) {maj fn x l0 l1} {la lb lc : Option Src}
    (ha : o.a.isLit = true → la = some o.a) (hb : o.b.isLit = true → lb = some o.b)
    (hc : o.c.isLit = true → lc = some o.c) : readOps f (raw6 maj fn x l0 l1 o) la lb lc = some o := by
  obtain ⟨-, -, -, hka, hkb, hkc, -⟩ := Ops.fits_iff.mp h
  simp [readOps, raw6, readSlot_tag_num hka ha, readSlot_tag_num hkb hb, readSlot_tag_num hkc hc]

/-! ### Formats M, B and E -/

theorem Src.l6_num_of_lits6 {o : Ops} (h : o.lits6 = true) {s : Src} (hs : s ∈ [o.a, o.b, o.c]) (hl : s.isLit = true) :
    some (.l6 s.num) = some s := by
  have := List.all_eq_true.mp h s (List.mem_filter.mpr ⟨hs, hl⟩)
  cases s <;> simp_all [Src.num]

theorem ops6_raw6 {f : Form} {o : Ops} (h : o.fits f = true) (hl : o.lits6 = true) (maj fn x l0 l1) :
    ops6 f (raw6 maj fn x l0 l1 o) = some o :=
  readOps_raw6 h (Src.l6_num_of_lits6 hl (by simp)) (Src.l6_num_of_lits6 hl (by simp))
    (Src.l6_num_of_lits6 hl (by simp))

/-! ### Format R -/

section FormatR
variable {wide : Bool} {o : Ops} (h : o.litsR wide = true) (maj : BitVec 8) (fn : BitVec 6) (x : BitVec 13)
include h

/-- The literals that a length carries and what they put into L0 and L1 (01 Table 01.4). -/
theorem Ops.litsR_cases :
    (o.len = .w64 ∧ (∀ s ∈ o.literals, ∃ n, s = .l6 n) ∧ o.litWords = (0, 0)) ∨
    (o.len ≠ .w64 ∧ o.literals = [] ∧ o.litWords = (0, 0)) ∨
    (∃ y, o.len = .w96 ∧ o.literals = [.l32 y] ∧ o.litWords = (y, 0)) ∨
    (∃ y, o.len = .w128 ∧ o.literals = [.l64 y] ∧ o.litWords = (y.extractLsb' 0 32, y.extractLsb' 32 32)) ∨
    ∃ y z, o.len = .w128 ∧ o.literals = [.l32 y, .l32 z] ∧ o.litWords = (y, z) := by
  have hlits : [o.a, o.b, o.c].filter Src.isLit = o.literals := rfl
  unfold Ops.litsR at h
  unfold Ops.litWords
  rw [hlits] at h ⊢
  cases hlen : o.len
  case w64 =>
    have h6 : ∀ s ∈ o.literals, ∃ n, s = .l6 n := fun s hs => by
      have := List.all_eq_true.mp (hlen ▸ h) s hs
      cases s <;> simp_all
    refine .inl ⟨rfl, h6, ?_⟩
    split
    case h_4 => rfl
    all_goals simp_all
  case w96 =>
    rcases hl : o.literals with _ | ⟨s, _ | ⟨t, _ | _⟩⟩ <;> rw [hlen, hl] at h
    · exact .inr (.inl ⟨nofun, rfl, rfl⟩)
    · cases s
      case l32 y => exact .inr (.inr (.inl ⟨y, rfl, rfl, rfl⟩))
      all_goals exact nomatch h
    · cases s <;> exact nomatch h
    · cases s <;> exact nomatch h
  case w128 =>
    rcases hl : o.literals with _ | ⟨s, _ | ⟨t, _ | _⟩⟩ <;> rw [hlen, hl] at h
    · exact .inr (.inl ⟨nofun, rfl, rfl⟩)
    · cases s
      case l64 y => exact .inr (.inr (.inr (.inl ⟨y, rfl, rfl, rfl⟩)))
      all_goals exact nomatch h
    · cases s
      case l32 y =>
        cases t
        case l32 z => exact .inr (.inr (.inr (.inr ⟨y, z, rfl, rfl, rfl⟩)))
        all_goals exact nomatch h
      all_goals exact nomatch h
    · cases s <;> cases t <;> exact nomatch h

theorem rawR_fitsLen : (rawR maj fn x o).FitsLen o.len := by
  refine ⟨rfl, fun hne => ?_, fun hw => ?_⟩ <;>
    rcases Ops.litsR_cases h with ⟨hlen, -, hl⟩ | ⟨hlen, -, hl⟩ | ⟨y, hlen, -, hl⟩ | ⟨y, hlen, -, hl⟩ | ⟨y, z, hlen, -, hl⟩ <;>
    simp_all [rawR, raw6]

theorem restZero_rawR : restZero (rawR maj fn x o) o.literals.length = true := by
  rcases Ops.litsR_cases h with ⟨hlen, -, hw⟩ | ⟨-, -, hw⟩ | ⟨y, hlen, hl, hw⟩ | ⟨y, hlen, hl, hw⟩ | ⟨y, z, hlen, hl, hw⟩
  · simp [restZero, rawR, raw6, hlen, Len.bits, hw]
  · cases hlen : o.len <;> simp [restZero, rawR, raw6, hlen, Len.bits, hw]
  all_goals simp [restZero, rawR, raw6, hlen, Len.bits, hl, hw]

theorem litR_rawR {s : Src} {i : Nat} (hi : o.literals[i]? = some s) :
    litR (rawR maj fn x o) o.literals.length i s.num = some s := by
  rcases Ops.litsR_cases h with ⟨hlen, h6, hw⟩ | ⟨-, hl, -⟩ | ⟨y, hlen, hl, hw⟩ | ⟨y, hlen, hl, hw⟩ | ⟨y, z, hlen, hl, hw⟩
  · obtain ⟨n, rfl⟩ := h6 s (List.mem_of_getElem? hi)
    simp [litR, rawR, raw6, hlen, Len.bits, Src.num]
  · simp [hl] at hi
  · obtain ⟨rfl, rfl⟩ : i = 0 ∧ .l32 y = s := by simpa [hl, List.getElem?_singleton] using hi
    simp [litR, rawR, raw6, hlen, hw, Len.bits, Src.num]
  · obtain ⟨rfl, rfl⟩ : i = 0 ∧ .l64 y = s := by simpa [hl, List.getElem?_singleton] using hi
    have hy : y.extractLsb' 32 32 ++ y.extractLsb' 0 32 = y := by
      ext i hi
      grind
    simp [litR, rawR, raw6, hlen, hl, hw, Len.bits, Src.num, hy]
  · rw [hl] at hi
    match i, hi with
    | 0, rfl => simp [litR, rawR, raw6, hlen, hl, hw, Len.bits, Src.num]
    | 1, rfl => simp [litR, rawR, raw6, hlen, hl, hw, Len.bits, Src.num]

theorem opsR_rawR {f : Form} (hf : o.fits f = true) : opsR f (rawR maj fn x o) = some o := by
  obtain ⟨-, -, -, hka, hkb, hkc, -⟩ := Ops.fits_iff.mp hf
  have htotal : o.a.isLit.toNat + o.b.isLit.toNat + o.c.isLit.toNat = o.literals.length := by
    cases ha : o.a.isLit <;> cases hb : o.b.isLit <;> cases hc : o.c.isLit <;> simp [Ops.literals, ha, hb, hc]
  have hread : readOps f (rawR maj fn x o) (litR (rawR maj fn x o) o.literals.length 0 o.a.num)
      (litR (rawR maj fn x o) o.literals.length o.a.isLit.toNat o.b.num)
      (litR (rawR maj fn x o) o.literals.length (o.a.isLit.toNat + o.b.isLit.toNat) o.c.num) = some o := by
    refine readOps_raw6 hf (fun ha => litR_rawR h _ _ _ ?_) (fun hb => litR_rawR h _ _ _ ?_)
      (fun hc => litR_rawR h _ _ _ ?_)
    · simp [Ops.literals, ha]
    · cases ha : o.a.isLit <;> simp [Ops.literals, ha, hb]
    · cases ha : o.a.isLit <;> cases hb : o.b.isLit <;> simp [Ops.literals, ha, hb, hc]
  unfold opsR
  simp only [show (rawR maj fn x o).ak = o.a.tag from rfl, show (rawR maj fn x o).bk = o.b.tag from rfl,
    show (rawR maj fn x o).ck = o.c.tag from rfl, used_and_tag hka, used_and_tag hkb, used_and_tag hkc, htotal,
    restZero_rawR h, if_true]
  exact hread

end FormatR
end Sys2Proof
end

section
/-! The opcode map and the fields of X: each row is found at its MAJ and FN, and reads back the fields that the
encoder sets (01 R18, R31 to R36; 02 Table 02.1). -/

namespace Sys2Proof

/-! ### The opcode map -/

/-- MAJ and FN of a row as one number. -/
def OpRow.key (w : OpRow) : Nat := 64 * w.maj.toNat + w.fn.toNat

theorem opTable_keys_increase : (opTable.map OpRow.key).IsChain (· < ·) := by decide +kernel

theorem opTable_key_inj {v w : OpRow} (hv : v ∈ opTable) (hw : w ∈ opTable) (h : v.key = w.key) : v = w :=
  List.inj_on_of_nodup_map ((List.isChain_iff_pairwise.mp opTable_keys_increase).imp Nat.ne_of_lt) hv hw h

/-- The rows of the map at a MAJ and FN. -/
def OpRow.at (maj : BitVec 8) (fn : BitVec 6) (w : OpRow) : Bool := w.maj == maj && w.fn == fn

theorem OpRow.key_of_at {maj fn} {w : OpRow} (h : w.at maj fn = true) : w.key = 64 * maj.toNat + fn.toNat := by
  simp only [OpRow.at, Bool.and_eq_true, beq_iff_eq] at h
  rw [OpRow.key, h.1, h.2]

/-- A row found in a part of the map is the row of the whole map. -/
theorem find?_opTable {rows : List OpRow} (hrows : rows ⊆ opTable) {maj fn} {w : OpRow}
    (h : rows.find? (OpRow.at maj fn) = some w) : opTable.find? (OpRow.at maj fn) = some w := by
  have hw := hrows (List.mem_of_find?_eq_some h)
  have hat := List.find?_some h
  obtain ⟨v, hv⟩ := Option.isSome_iff_exists.mp (List.find?_isSome.mpr ⟨w, hw, hat⟩)
  rw [hv, opTable_key_inj (List.mem_of_find?_eq_some hv) hw
    ((OpRow.key_of_at (List.find?_some hv)).trans (OpRow.key_of_at hat).symm)]

theorem rowsInt_subset : rowsInt ⊆ opTable := fun _ h => by simp [opTable, h]
theorem rowsFlow_subset : rowsFlow ⊆ opTable := fun _ h => by simp [opTable, h]
theorem rowsMem_subset : rowsMem ⊆ opTable := fun _ h => by simp [opTable, h]
theorem rowsVec_subset : rowsVec ⊆ opTable := fun _ h => by simp [opTable, h]
theorem rowsVecMem_subset : rowsVecMem ⊆ opTable := fun _ h => by simp [opTable, h]
theorem rowsMtx_subset : rowsMtx ⊆ opTable := fun _ h => by simp [opTable, h]
theorem rowsClu_subset : rowsClu ⊆ opTable := fun _ h => by simp [opTable, h]
theorem rowsChip_subset : rowsChip ⊆ opTable := fun _ h => by simp [opTable, h]

/-! ### Codes -/

@[simp] theorem Scope.ofBits_bits (x : Scope) : Scope.ofBits x.bits = some x := by cases x <;> rfl
@[simp] theorem MemOrder.ofBits_bits (x : MemOrder) : MemOrder.ofBits x.bits = x := by cases x <;> rfl
@[simp] theorem MemW.ofBits_bits (x : MemW) : MemW.ofBits x.bits = x := by cases x <;> rfl
@[simp] theorem RSel.ofBits_bits (x : RSel) : RSel.ofBits x.bits = some x := by cases x <;> rfl
@[simp] theorem RSel.bits_dyn : RSel.dyn.bits = 7 := rfl
@[simp] theorem VCond.ofBits_bits (x : VCond) : VCond.ofBits x.bits = some x := by cases x <;> rfl
@[simp] theorem MLogOp.ofBits_bits (x : MLogOp) : MLogOp.ofBits x.bits = some x := by cases x <;> rfl
@[simp] theorem MPopMode.ofBits_bits (x : MPopMode) : MPopMode.ofBits x.bits = some x := by cases x <;> rfl
@[simp] theorem RedOp.ofBits_bits (x : RedOp) : RedOp.ofBits x.bits = some x := by cases x <;> rfl
@[simp] theorem EFmt.ofBits_bits (x : EFmt) : EFmt.ofBits x.bits = x := by cases x <;> rfl
@[simp] theorem MFmt.ofBits_bits (x : MFmt) : MFmt.ofBits x.bits = some x := by cases x <;> rfl
@[simp] theorem DFmt.ofBits_bits (x : DFmt) : DFmt.ofBits x.bits = some x := by cases x <;> rfl
@[simp] theorem SeqMode.ofBits_bits (x : SeqMode) : SeqMode.ofBits x.bits = some x := by cases x <;> rfl
@[simp] theorem HFmt.ofBits_bits (x : HFmt) : HFmt.ofBits x.bits = some x := by cases x <;> rfl

/-! ### X of the words that the encoder builds -/

section
variable (maj : BitVec 8) (fn : BitVec 6) (x : BitVec 13) (o : Ops) (l0 l1 off : BitVec 32) {k s n j : Nat}

@[simp] theorem rawR_x : (rawR maj fn x o).x = x := rfl
@[simp] theorem bit_rawR : bit (rawR maj fn x o) j = x.getLsbD j := rfl
@[simp] theorem fld_rawR : fld (rawR maj fn x o) s n = x.extractLsb' s n := rfl
@[simp] theorem bit_raw6 : bit (raw6 maj fn x l0 l1 o) j = x.getLsbD j := rfl
@[simp] theorem fld_raw6 : fld (raw6 maj fn x l0 l1 o) s n = x.extractLsb' s n := rfl
@[simp] theorem raw6_l0 : (raw6 maj fn x l0 l1 o).l0 = l0 := rfl
@[simp] theorem raw6_l1 : (raw6 maj fn x l0 l1 o).l1 = l1 := rfl

theorem rawOff_eq_raw6 : rawOff k maj fn x off o =
    raw6 maj fn (rawOff k maj fn x off o).x (rawOff k maj fn x off o).l0 0 o := by
  unfold rawOff
  split <;> rfl

@[simp] theorem fld_rawOff (h : k ≤ s) : fld (rawOff k maj fn x off o) s n = x.extractLsb' s n := by
  unfold rawOff
  split
  · simp [BitVec.extractLsb'_or, h]
  · rfl

@[simp] theorem bit_rawOff (h : k ≤ j) : bit (rawOff k maj fn x off o) j = x.getLsbD j := by
  unfold rawOff
  split
  · simp [h]
  · rfl

theorem rawOff_x_and {c : BitVec 13} (h : (BitVec.allOnes k).setWidth 13 &&& c = 0) :
    (rawOff k maj fn x off o).x &&& c = x &&& c := by
  unfold rawOff
  split
  · simp [raw6, BitVec.and_or_distrib_right, low_and_eq_zero _ h]
  · rfl

theorem rawOff_fitsLen (hlen : o.len ≠ .w128) : (rawOff k maj fn x off o).FitsLen o.len := by
  cases hl : o.len <;> simp_all [rawOff, Raw.FitsLen, raw6]

/-- The offset stands in the low bits of X or in L0 (01 R33, R34, R36). -/
theorem offX_rawOff (hk : k ≤ 13) (hlen : o.len ≠ .w128) (hoff : offOk k o.len off = true) (hx : x.extractLsb' 0 k = 0) :
    offX k (rawOff k maj fn x off o) = some off := by
  have hx' : x.setWidth k = 0 := by rw [BitVec.setWidth_eq_extractLsb' hk, hx]
  cases hl : o.len <;> simp_all [offX, rawOff, raw6, offOk, Len.bits, BitVec.setWidth_setWidth_of_le]

@[simp] theorem bit_rawM {y : MemX} (h : 9 ≤ j) : bit (rawM maj fn x y o) j = x.getLsbD j := by
  simp [rawM, bit_rawOff _ _ _ _ _ (show 7 ≤ j by omega), show 2 ≤ j - 7 by omega]

@[simp] theorem fld_rawM {y : MemX} (h : 9 ≤ s) : fld (rawM maj fn x y o) s n = x.extractLsb' s n := by
  simp [rawM, fld_rawOff _ _ _ _ _ (show 7 ≤ s by omega), BitVec.extractLsb'_or,
    extractLsb'_field_disjoint y.shift (k := 7) (n := n) (.inr h)]

@[simp] theorem bit_rawT {t : SyncX} (h : 11 ≤ j) : bit (rawT maj fn x t o) j = x.getLsbD j := by
  simp [rawT, bit_rawOff _ _ _ _ _ (show 6 ≤ j by omega), syncBits, show 3 ≤ j - 8 by omega, show 2 ≤ j - 6 by omega]

/-- SHIFT and the offset of a load or store (01 Table 01.6). -/
theorem memX_rawM {y : MemX} (hx : x.extractLsb' 0 9 = 0) (hoff : offX 7 (rawM maj fn x y o) = some y.off) :
    memX (rawM maj fn x y o) = some y := by
  have hs : fld (rawM maj fn x y o) 7 2 = y.shift := by
    simp [rawM, BitVec.extractLsb'_or, extractLsb'_eq_zero_of_low hx]
  rw [memX, hoff, hs]
  rfl

/-- SCOPE, ORDER and the offset (01 Table 01.7). -/
theorem syncX_rawT {t : SyncX} (hx : x.extractLsb' 0 11 = 0) (hoff : offX 6 (rawT maj fn x t o) = some t.off) :
    syncX (rawT maj fn x t o) = some t := by
  have hs : fld (rawT maj fn x t o) 8 3 = t.scope.bits := by
    simp [rawT, syncBits, BitVec.extractLsb'_or, extractLsb'_eq_zero_of_low hx]
  have ho : fld (rawT maj fn x t o) 6 2 = t.order.bits := by
    simp [rawT, syncBits, BitVec.extractLsb'_or, extractLsb'_eq_zero_of_low hx]
  simp [syncX, hoff, hs, ho]

end

/-! ### Rows -/

/-- The word of the instruction decodes to it, and its literal words fit its length. -/
def Instr.Inverts (i : Instr) : Prop :=
  ∃ s, i.shape = some s ∧ (encode i).FitsLen s.ops.len ∧ decodeRaw (encode i) = .ok i

theorem Instr.wellFormed_iff {i : Instr} {s : Shape} (hs : i.shape = some s) : i.wellFormed = true ↔
    s.ops.fits s.form = true ∧ (if s.fmtR then s.ops.litsR s.form.wide else s.ops.lits6) = true ∧ s.fields = true := by
  simp [Instr.wellFormed, hs, Shape.wellFormed, and_assoc]

theorem decodeRaw_of_row {rows : List OpRow} (hrows : rows ⊆ opTable) {r : Raw} {i : Instr} {w : OpRow}
    (hrow : rows.find? (OpRow.at r.maj r.fn) = some w) (hlen : r.len ≠ 3) (hdec : w.dec r = some i)
    (hwf : i.wellFormed = true) : decodeRaw r = .ok i := by
  have hfind : (opTable.find? fun w => w.maj == r.maj && w.fn == r.fn) = some w := find?_opTable hrows hrow
  simp [decodeRaw, show ¬ r.len = 3#2 from hlen, hfind, hdec, hwf]

section Rows
variable {rows : List OpRow} {maj : BitVec 8} {fn : BitVec 6} {mask x : BitVec 13} {f : Raw → Form}
  {mk : Raw → Ops → Option Instr} {i : Instr} {o : Ops} {form : Form} {ok : Bool}

/-- A row in format R. -/
theorem inverts_rowR (hwf : i.wellFormed = true) (hrows : rows ⊆ opTable) (henc : encode i = rawR maj fn x o)
    (hrow : rows.find? (OpRow.at maj fn) = some (rowR maj fn mask f mk))
    (hshape : i.shape = some (shapeR form o ok)) (hmask : x &&& ~~~mask = 0)
    (hform : o.fits form = true → f (rawR maj fn x o) = form) (hmk : mk (rawR maj fn x o) o = some i) : i.Inverts := by
  obtain ⟨hfits, hlits, -⟩ := (Instr.wellFormed_iff hshape).mp hwf
  have hlits : o.litsR form.wide = true := hlits
  refine ⟨_, hshape, henc ▸ rawR_fitsLen hlits maj fn x, ?_⟩
  rw [henc]
  refine decodeRaw_of_row hrows hrow (Len.bits_ne_three _) ?_ hwf
  simp [rowR, hmask, hform hfits, opsR_rawR hlits maj fn x hfits, hmk]

/-- A row in format M, B or E, given that the literal words fit the length. -/
theorem inverts_of_raw6 {l0 l1 : BitVec 32} (hwf : i.wellFormed = true) (hrows : rows ⊆ opTable)
    (henc : encode i = raw6 maj fn x l0 l1 o) (hrow : rows.find? (OpRow.at maj fn) = some (row6 maj fn mask f mk))
    (hshape : i.shape = some (shape6 form o ok)) (hlen : (encode i).FitsLen o.len) (hmask : x &&& ~~~mask = 0)
    (hform : f (encode i) = form) (hmk : mk (encode i) o = some i) : i.Inverts := by
  obtain ⟨hfits, hlits, -⟩ := (Instr.wellFormed_iff hshape).mp hwf
  refine ⟨_, hshape, hlen, ?_⟩
  rw [henc] at hform hmk ⊢
  refine decodeRaw_of_row hrows hrow (Len.bits_ne_three _) ?_ hwf
  have hx : (raw6 maj fn x l0 l1 o).x = x := rfl
  simp [row6, hx, hmask, hform, ops6_raw6 hfits hlits, hmk]

/-- A row in format E, whose words have the length 128 (01 R35). -/
theorem inverts_rowE {l0 l1 : BitVec 32} (hwf : i.wellFormed = true) (hrows : rows ⊆ opTable)
    (henc : encode i = raw6 maj fn x l0 l1 o) (hrow : rows.find? (OpRow.at maj fn) = some (row6 maj fn mask f mk))
    (hshape : i.shape = some (shape6 form o ok)) (hlens : form.lens = Form.lE) (hmask : x &&& ~~~mask = 0)
    (hform : f (raw6 maj fn x l0 l1 o) = form) (hmk : mk (raw6 maj fn x l0 l1 o) o = some i) : i.Inverts := by
  obtain ⟨hfits, -⟩ := (Instr.wellFormed_iff hshape).mp hwf
  obtain ⟨hlen, -⟩ := Ops.fits_iff.mp hfits
  have h128 : o.len = .w128 := by simpa [hlens] using hlen
  rw [← henc] at hform hmk
  exact inverts_of_raw6 hwf hrows henc hrow hshape (henc ▸ ⟨rfl, by simp [h128], by simp [h128]⟩) hmask hform hmk

/-- A row whose offset stands in X or in L0 (01 R33, R34, R36). -/
theorem inverts_rowOff {k : Nat} {off : BitVec 32} (hwf : i.wellFormed = true) (hrows : rows ⊆ opTable)
    (henc : encode i = rawOff k maj fn x off o) (hrow : rows.find? (OpRow.at maj fn) = some (row6 maj fn mask f mk))
    (hshape : i.shape = some (shape6 form o ok)) (hlens : form.lens = Form.l2) (hk : k ≤ 13)
    (hplace : (BitVec.allOnes k).setWidth 13 &&& ~~~mask = 0) (hmask : x &&& ~~~mask = 0) (hx : x.extractLsb' 0 k = 0)
    (hoff : ok = true → offOk k o.len off = true) (hform : f (rawOff k maj fn x off o) = form)
    (hmk : offX k (rawOff k maj fn x off o) = some off → mk (rawOff k maj fn x off o) o = some i) : i.Inverts := by
  obtain ⟨hfits, -, hok⟩ := (Instr.wellFormed_iff hshape).mp hwf
  obtain ⟨hlen, -⟩ := Ops.fits_iff.mp hfits
  have h128 : o.len ≠ .w128 := fun h => by simp [hlens, h] at hlen
  have hmk := hmk (offX_rawOff _ _ _ _ _ hk h128 (hoff hok) hx)
  rw [← henc] at hform hmk
  refine inverts_of_raw6 hwf hrows (henc.trans (rawOff_eq_raw6 _ _ _ _ _)) hrow hshape
    (henc ▸ rawOff_fitsLen _ _ _ _ _ h128) ?_ hform hmk
  rw [rawOff_x_and _ _ _ _ _ hplace, hmask]

theorem and_eq_zero_of_place {a p c : BitVec 13} (h : p &&& c = 0) (ha : a &&& p = a) : a &&& c = 0 := by
  rw [← ha, BitVec.and_assoc, h]
  simp

/-- A load or store (01 Table 01.6). -/
theorem inverts_rowM {y : MemX} (hwf : i.wellFormed = true) (hrows : rows ⊆ opTable)
    (henc : encode i = rawM maj fn x y o) (hrow : rows.find? (OpRow.at maj fn) = some (row6 maj fn mask f mk))
    (hshape : i.shape = some (shape6 form o (memOk o y))) (hlens : form.lens = Form.l2)
    (hplace : 0x1FF &&& ~~~mask = 0) (hmask : x &&& ~~~mask = 0) (hx : x.extractLsb' 0 9 = 0)
    (hform : f (rawM maj fn x y o) = form)
    (hmk : memX (rawM maj fn x y o) = some y → mk (rawM maj fn x y o) o = some i) : i.Inverts := by
  refine inverts_rowOff hwf hrows henc hrow hshape hlens (by decide) (and_eq_zero_of_place hplace (by decide)) ?_ ?_ id
    hform fun hoff => hmk (memX_rawM _ _ _ _ hx hoff)
  · have hshift := field_and_eq_zero y.shift (k := 7) (and_eq_zero_of_place hplace (by decide))
    simp [BitVec.and_or_distrib_right, hmask, hshift]
  · simp [BitVec.extractLsb'_or, extractLsb'_eq_zero_of_low hx]

/-- An instruction with SCOPE and ORDER (01 Table 01.7). -/
theorem inverts_rowT {t : SyncX} (hwf : i.wellFormed = true) (hrows : rows ⊆ opTable)
    (henc : encode i = rawT maj fn x t o) (hrow : rows.find? (OpRow.at maj fn) = some (row6 maj fn mask f mk))
    (hshape : i.shape = some (shape6 form o ok)) (hlens : form.lens = Form.l2) (hoff : ok = true → syncOk o t = true)
    (hplace : 0x7FF &&& ~~~mask = 0) (hmask : x &&& ~~~mask = 0) (hx : x.extractLsb' 0 11 = 0)
    (hform : f (rawT maj fn x t o) = form)
    (hmk : syncX (rawT maj fn x t o) = some t → mk (rawT maj fn x t o) o = some i) : i.Inverts := by
  refine inverts_rowOff hwf hrows henc hrow hshape hlens (by decide) (and_eq_zero_of_place hplace (by decide)) ?_ ?_
    hoff hform fun hoff => hmk (syncX_rawT _ _ _ _ hx hoff)
  · have hscope := field_and_eq_zero t.scope.bits (k := 8) (and_eq_zero_of_place hplace (by decide))
    have horder := field_and_eq_zero t.order.bits (k := 6) (and_eq_zero_of_place hplace (by decide))
    simp [BitVec.and_or_distrib_right, hmask, syncBits, hscope, horder]
  · simp [BitVec.extractLsb'_or, extractLsb'_eq_zero_of_low hx, syncBits]

end Rows

/-! ### Kinds of rows -/

section Kinds
variable {rows : List OpRow} {maj : BitVec 8} {fn : BitVec 6} {o : Ops} {form : Form} {ok : Bool}

/-- A row in format R without fields in X. -/
theorem inverts_plain {mk : Ops → Instr} (hwf : (mk o).wellFormed = true) (hrows : rows ⊆ opTable)
    (henc : encode (mk o) = rawR maj fn 0 o)
    (hrow : rows.find? (OpRow.at maj fn) = some (rowR maj fn 0 (fun _ => form) fun _ o => some (mk o)))
    (hshape : (mk o).shape = some (shapeR form o ok)) : (mk o).Inverts :=
  inverts_rowR hwf hrows henc hrow hshape (by simp) (fun _ => rfl) rfl

/-- A row in format R whose X is one flag in bit 0. -/
theorem inverts_flag {mk : Bool → Ops → Instr} {w : Bool} (hwf : (mk w o).wellFormed = true) (hrows : rows ⊆ opTable)
    (henc : encode (mk w o) = rawR maj fn (b1 w 0) o)
    (hrow : rows.find? (OpRow.at maj fn) = some (rowR maj fn 1 (fun _ => form) fun r o => some (mk (bit r 0) o)))
    (hshape : (mk w o).shape = some (shapeR form o ok)) : (mk w o).Inverts :=
  inverts_rowR hwf hrows henc hrow hshape (by simp) (fun _ => rfl) (by simp)

/-- A branch (01 R36). -/
theorem inverts_branch {mk : BitVec 32 → Ops → Instr} {off : BitVec 32} (hwf : (mk off o).wellFormed = true)
    (hrows : rows ⊆ opTable) (henc : encode (mk off o) = rawB maj fn off o)
    (hrow : rows.find? (OpRow.at maj fn) = some (row6 maj fn 0x1FFF (fun _ => form) fun r o => (branchX r).map (mk · o)))
    (hshape : (mk off o).shape = some (shape6 form o (branchOk o off))) (hlens : form.lens = Form.l2) :
    (mk off o).Inverts :=
  inverts_rowOff hwf hrows henc hrow hshape hlens le_rfl (by decide) (by simp) (by simp) id rfl
    fun hoff => congrArg (Option.map _) hoff

/-- An atomic: X has bit 12 set and the width in bit 11 (01 Table 01.7). -/
theorem inverts_atomic {mk : Bool → SyncX → Ops → Instr} {dbl : Bool} {t : SyncX}
    (hwf : (mk dbl t o).wellFormed = true) (hrows : rows ⊆ opTable)
    (henc : encode (mk dbl t o) = rawT maj fn (b1 true 12 ||| b1 dbl 11) t o)
    (hrow : rows.find? (OpRow.at maj fn) = some (row6 maj fn 0x1FFF (fun _ => form) fun r o =>
      if bit r 12 then (syncX r).map (mk (bit r 11) · o) else none))
    (hshape : (mk dbl t o).shape = some (shape6 form o ok)) (hlens : form.lens = Form.l2)
    (hoff : ok = true → syncOk o t = true) : (mk dbl t o).Inverts :=
  inverts_rowT hwf hrows henc hrow hshape hlens hoff (by decide) (by simp) (by simp [BitVec.extractLsb'_or]) rfl
    fun ht => by simp [ht]

/-- A vector access: X has bit 12 set (01 Table 01.6). -/
theorem inverts_vectorAccess {mk : MemX → Ops → Instr} {y : MemX} (hwf : (mk y o).wellFormed = true)
    (hrows : rows ⊆ opTable) (henc : encode (mk y o) = rawM maj fn (b1 true 12) y o)
    (hrow : rows.find? (OpRow.at maj fn) = some (row6 maj fn 0x11FF (fun _ => form) fun r o =>
      if bit r 12 then (memX r).map (mk · o) else none))
    (hshape : (mk y o).shape = some (shape6 form o (memOk o y))) (hlens : form.lens = Form.l2) : (mk y o).Inverts :=
  inverts_rowM hwf hrows henc hrow hshape hlens (by decide) (by simp) (by simp) rfl fun hx => by simp [hx]

end Kinds
end Sys2Proof
end

section
/-! Decoding is the left inverse of encoding: one case for each instruction of the opcode map. -/

namespace Sys2Proof

theorem inverts_of_wellFormed {i : Instr} (h : i.wellFormed = true) : i.Inverts := by
  cases i
  case add | sub | and | or | xor | andn | shl | shr | sar | rol | min | max | minu | maxu | mul | mulh | mulhu | div | divu |
      rem | remu =>
    exact inverts_flag h rowsInt_subset rfl rfl rfl
  case clz | ctz | popc | brev | bswap | sext | extb | insb | cmpEq | cmpNe | cmpLt | cmpGe | cmpLtu | cmpGeu | sel | mov |
      addpc =>
    exact inverts_plain h rowsInt_subset rfl rfl rfl
  case movi | moviH => exact inverts_rowR h rowsInt_subset rfl rfl rfl (by simp) (fun _ => by simp) (by simp)
  case lea =>
    exact inverts_rowM h rowsInt_subset rfl rfl rfl rfl (by decide) (by simp) (by simp) rfl (congrArg (Option.map _))
  case bccEq | bccNe | bccLt | bccGe | bccLtu | bccGeu | bccZ | bccNz | jmp | call | loop =>
    exact inverts_branch h rowsFlow_subset rfl rfl rfl rfl
  case jmpi | calli | ret | nop | pause | yield | sresume | skill =>
    exact inverts_plain h rowsFlow_subset rfl rfl rfl
  case jtab => exact inverts_rowE h rowsFlow_subset rfl rfl rfl rfl (by simp) rfl rfl
  case trap | brk | svc =>
    exact inverts_rowR h rowsFlow_subset rfl rfl rfl (by simp) (fun _ => rfl) (by simp [BitVec.setWidth_setWidth_of_le])
  case rdsys | wrsys =>
    exact inverts_rowR h rowsFlow_subset rfl rfl rfl (by simp) (fun _ => by simp [BitVec.setWidth_setWidth_of_le])
      (by simp [BitVec.setWidth_setWidth_of_le])
  case rdtime | rdtimeCc => exact inverts_rowR h rowsFlow_subset rfl rfl rfl (by simp) (fun _ => rfl) (by simp)
  case ld | ldAcq | st | stRel =>
    exact inverts_rowM h rowsMem_subset rfl rfl rfl rfl (by decide)
      (by simp [MemW.x, BitVec.and_or_distrib_right]) (by simp [MemW.x, BitVec.extractLsb'_or]) rfl
      fun hx => by simp only [hx]; simp [MemW.x, widthX, BitVec.extractLsb'_or]
  case ldq | stq =>
    exact inverts_rowM h rowsMem_subset rfl rfl rfl rfl (by decide) (by simp) (by simp) rfl (congrArg (Option.map _))
  case aadd | aand | aor | axor | amin | amax | aminu | amaxu | aswap | acas =>
    exact inverts_atomic h rowsMem_subset rfl rfl rfl rfl id
  case afadd | waitchg =>
    exact inverts_atomic h rowsMem_subset rfl rfl rfl rfl fun hok => (Bool.and_eq_true_iff.mp hok).1
  case acas2 =>
    exact inverts_rowT h rowsMem_subset rfl rfl rfl rfl id (by decide) (by simp) (by simp [BitVec.extractLsb'_or]) rfl
      fun ht => by simp only [ht]; simp
  case fence | fencep =>
    exact inverts_rowR h rowsMem_subset rfl rfl rfl (by simp [syncBits, BitVec.and_or_distrib_right]) (fun _ => rfl)
      (by simp [syncBits, BitVec.extractLsb'_or])
  case rvjoin | rvarrive | rvwait =>
    exact inverts_rowT h rowsMem_subset rfl rfl rfl rfl id (by decide) (by simp) (by simp) rfl (congrArg (Option.map _))
  case rcommit | spawn | exit => exact inverts_plain h rowsMem_subset rfl rfl rfl
  case migrate | migrateC =>
    exact inverts_rowR h rowsMem_subset rfl rfl rfl (by simp) (fun _ => by simp) (by simp)
  case vgrow | vshrink | vmov | vbcast | vext | vins | viota | vperm | vadd | vsub | vmul | vmad | vand | vor | vxor | vshl |
      vshr | vsar | amaxclr =>
    exact inverts_plain h rowsVec_subset rfl rfl rfl
  case vslide | vmin | vmax => exact inverts_flag h rowsVec_subset rfl rfl rfl
  case vcmp | vred | vscan => exact inverts_rowR h rowsVec_subset rfl rfl rfl (by simp) (fun _ => rfl) (by simp)
  case mlog op ma mb o =>
    refine inverts_rowR h rowsVec_subset rfl rfl rfl (by simp [BitVec.and_or_distrib_right]) (fun _ => ?_)
      (by simp [BitVec.extractLsb'_or])
    cases op <;> simp [BitVec.extractLsb'_or, Form.mlogF, MLogOp.bits]
  case mpop =>
    exact inverts_rowR h rowsVec_subset rfl rfl rfl (by simp [BitVec.and_or_distrib_right]) (fun _ => rfl)
      (by simp [BitVec.extractLsb'_or])
  case fadd | fsub | fmul | ffma | fmin | fmax =>
    exact inverts_rowR h rowsVec_subset rfl rfl rfl (by simp [FMods.x, RSel.x, BitVec.and_or_distrib_right])
      (fun _ => rfl) (by simp [FMods.x, RSel.x, modsX, BitVec.extractLsb'_or])
  case frcp | frsq | frcpn | frsqn | fexp2 | flog2 | ftanh =>
    exact inverts_rowR h rowsVec_subset rfl rfl rfl (by simp [RSel.x]) (fun _ => rfl) (by simp [RSel.x])
  case fcvt | icvt =>
    exact inverts_rowR h rowsVec_subset rfl rfl rfl (by simp [cvtBits, BitVec.and_or_distrib_right])
      (fun _ => rfl) (by simp [cvtBits, BitVec.extractLsb'_or])
  case c4enc => exact inverts_rowR h rowsVec_subset rfl rfl rfl (by simp) (fun _ => rfl) (by simp)
  case bscaleDerive | bscaleApply =>
    exact inverts_rowR h rowsVec_subset rfl rfl rfl (by simp [BitVec.and_or_distrib_right])
      (fun _ => by simp [BitVec.extractLsb'_or]) (by simp [BitVec.extractLsb'_or])
  case amaxrd o =>
    refine inverts_rowR h rowsVec_subset rfl rfl rfl (by simp) (fun hfits => ?_) rfl
    cases hd : o.d <;> simp_all [Ops.fits_iff, Form.amaxrd, Form.mk', Form.lane, DstKinds.accepts, rawR, raw6, Dst.tag]
  case vld | vst | vgath | vscat =>
    exact inverts_vectorAccess h rowsVecMem_subset rfl rfl rfl rfl
  case sbind | sunbind => exact inverts_plain h rowsVecMem_subset rfl rfl rfl
  case cbinit | cbwaitf | cbwaite | cbpop | cbpush | cbstat =>
    exact inverts_rowR h rowsVecMem_subset rfl rfl rfl (by simp [BitVec.and_or_distrib_right]) (fun _ => rfl)
      (by simp [BitVec.extractLsb'_or])
  case mwload =>
    exact inverts_rowE h rowsMtx_subset rfl rfl rfl rfl (by simp [BitVec.and_or_distrib_right]) (by simp)
      (by simp [BitVec.extractLsb'_or])
  case mcbook | mswap => exact inverts_plain h rowsMtx_subset rfl rfl rfl
  case mstream => 
    exact inverts_rowE h rowsMtx_subset rfl rfl rfl rfl (by simp [BitVec.and_or_distrib_right, MStreamX.x])
      (by simp [MStreamX.x])
      (by simp [mstreamX, MStreamX.x, MStreamX.l0, MStreamX.l1, BitVec.extractLsb'_or])
  case mdrain => 
    exact inverts_rowE h rowsMtx_subset rfl rfl rfl rfl (by simp [BitVec.and_or_distrib_right, MDrainX.x])
      (by simp [MDrainX.x])
      (by simp [mdrainX, MDrainX.x, MDrainX.l0, MDrainX.l1, BitVec.extractLsb'_or])
  case mclr =>
    exact inverts_rowR h rowsMtx_subset rfl rfl rfl (by simp [BitVec.and_or_distrib_right]) (fun _ => rfl)
      (by simp [BitVec.extractLsb'_or])
  case mwait =>
    exact inverts_rowR h rowsMtx_subset rfl rfl rfl (by simp) (fun _ => by simp) (by simp)
  case gang | clbarArrive | clbarWait | chset | chunk | geom =>
    exact inverts_rowR h rowsClu_subset rfl rfl rfl (by simp [BitVec.and_or_distrib_right]) (fun _ => rfl)
      (by simp [BitVec.extractLsb'_or])
  case part | tlbinvPage | tlbinvAsid | tlbinvGlob | tlbinvAll =>
    exact inverts_rowR h rowsClu_subset rfl rfl rfl (by simp [BitVec.and_or_distrib_right])
      (fun _ => by simp [BitVec.extractLsb'_or]) (by simp [tlbinvX, BitVec.extractLsb'_or])
  case acopy x o =>
    have hlens : (Form.acopy x.dim).lens = Form.lE := by
      unfold Form.acopy
      split_ifs <;> rfl
    exact inverts_rowE h rowsChip_subset rfl rfl rfl hlens (by simp [BitVec.and_or_distrib_right])
      (by simp [BitVec.extractLsb'_or]) (by simp [BitVec.extractLsb'_or])
  case acopycbFill | acopycbDrain =>
    exact inverts_rowE h rowsChip_subset rfl rfl rfl rfl (by simp [BitVec.and_or_distrib_right]) rfl
      (by simp [BitVec.extractLsb'_or])
  case await | aseq =>
    exact inverts_rowR h rowsChip_subset rfl rfl rfl (by simp [BitVec.and_or_distrib_right])
      (fun _ => by simp) (by simp [BitVec.extractLsb'_or])
  case hgemv =>
    exact inverts_rowE h rowsChip_subset rfl rfl rfl rfl (by simp [BitVec.and_or_distrib_right]) rfl
      (by simp [hgemvX, BitVec.extractLsb'_or, extractLsb'_halves])
  case pagereqNext | pagereqReply =>
    exact inverts_rowR h rowsChip_subset rfl rfl rfl (by simp) (fun _ => by simp) (by simp)
  case amsend | amsendc =>
    exact inverts_rowR h rowsChip_subset rfl rfl rfl (by simp [BitVec.and_or_distrib_right]) (fun _ => rfl)
      (by simp [BitVec.extractLsb'_or])
  case rmapostWrite | rmapostRead | rmapostFadd | rmapostCas =>
    exact inverts_rowE h rowsChip_subset rfl rfl rfl rfl (by simp [BitVec.and_or_distrib_right]) rfl
      (by simp [rmapostX, BitVec.extractLsb'_or])
  case rmapoll => exact inverts_plain h rowsChip_subset rfl rfl rfl
  all_goals exact nomatch h

theorem decode_encodeBytes {i : Instr} (h : i.wellFormed = true) (rest : List Byte) :
    decode (encodeBytes i ++ rest) = .ok (i, rest) := by
  obtain ⟨s, hs, hlen, hdec⟩ := inverts_of_wellFormed h
  have hbytes : i.bytes = s.ops.len.bytes := by simp [Instr.bytes, hs]
  rw [encodeBytes, hbytes]
  exact decode_leBytes hlen hdec rest

/-- Settles O58: each row of the opcode map inverts the encoder's word, which is found again in its own bytes. -/
theorem encodeDecode : Obligations.EncodeDecode := fun _ rest h => decode_encodeBytes h rest

end Sys2Proof
end

section
/-! Precise faults (04 R109): what a commit of an empty region and a fault leave of a state in which an instruction has
started. -/

namespace Sys2Proof.Machine

/-! ### What changes only the executing strand and its core's counters -/

theorem OnlyStrand.cur {s t : State} (h : OnlyStrand s t) : t.cur = s.cur := (congrArg State.cur h.rest :)

theorem OnlyStrand.trans {s u t : State} (h : OnlyStrand s u) (k : OnlyStrand u t) : OnlyStrand s t := by
  have hcur := h.cur
  refine ⟨?_, fun l => (k.bytes l).trans (h.bytes l), fun c hc => ?_, ?_, fun n hn => ?_⟩
  · calc { t with cores := s.cores } = { { t with cores := u.cores } with cores := s.cores } := rfl
      _ = { u with cores := s.cores } := by rw [k.rest]
      _ = s := h.rest
  · rw [k.cores.others c (hcur ▸ hc), h.cores.others c hc]
  · calc { t.myCore with slots := s.myCore.slots, perf := s.myCore.perf } =
          { { t.myCore with slots := u.myCore.slots, perf := u.myCore.perf } with
            slots := s.myCore.slots, perf := s.myCore.perf } := rfl
      _ = { u.myCore with slots := s.myCore.slots, perf := s.myCore.perf } := by rw [k.cores.mine]
      _ = s.myCore := h.cores.mine
  · have := k.cores.slots n (hcur ▸ hn)
    rw [hcur] at this
    rw [this, h.cores.slots n hn]

theorem State.onlyStrand_modMe (s : State) (f : Strand → Strand) : OnlyStrand s (s.modMe f) := by
  refine ⟨?_, fun l => by simp, fun c hc => s.core_modMe_ne f hc, ?_, fun n hn => s.strand?_modMe_ne f hn⟩
  · unfold State.modMe State.modStrand
    split <;> rfl
  · obtain ⟨l, hl⟩ := s.myCore_modMe f
    rw [hl]

theorem State.onlyStrand_count (s : State) (n k : Nat) : OnlyStrand s (s.count s.cur.1 n k) := by
  refine ⟨rfl, fun l => rfl, fun c hc => s.count_core_ne n k hc, ?_, fun m _ => s.strand?_count _ _ _ _ _⟩
  rw [s.myCore_count]
  split <;> rfl

theorem OnlyStrand.counting {s t : State} (h : OnlyStrand s t) : t.myCore.counting = s.myCore.counting :=
  (congrArg Core.counting h.cores.mine :)

theorem Counted.refl (k : Core) : Counted k k [] := fun n _ => by simp [toWord]

theorem Counted.trans {k j m : Core} {l l' : List (Nat × Nat)} (h : Counted k j l) (h' : Counted j m l')
    (hc : j.counting = k.counting) : Counted k m (l ++ l') := fun n hn => by
  rw [h' n hn, h n hn, hc]
  cases k.counting <;> simp [toWord, BitVec.ofNat_add, BitVec.add_assoc]

theorem State.counted_modMe (s : State) (f : Strand → Strand) : Counted s.myCore (s.modMe f).myCore [] := fun n _ => by
  obtain ⟨l, hl⟩ := s.myCore_modMe f
  simp [hl, toWord]

theorem State.counted_count (s : State) (n k : Nat) : Counted s.myCore (s.count s.cur.1 n k).myCore [(n, k)] := fun m hm => by
  rw [s.myCore_count]
  by_cases h : s.myCore.counting
  · by_cases hmn : m = n
    · subst hmn
      simp [h, vget_vset_same _ _ _ _ hm]
    · simp [h, vget_vset_ne _ _ _ hmn, List.filter, beq_eq_false_iff_ne.mpr (Ne.symm hmn), toWord]
  · simp [h]

/-! ### Between the start of an instruction and its fault -/

/-- `u` follows `s` at the start of an instruction, or after the commit of the region, which held no store: of the strand only
what `Trapped` leaves open has changed, and a commit has been counted when it is due (04 R103, 19 R436). -/
structure Begun (s u : State) : Prop where
  runs : u.Runs
  only : OnlyStrand s u
  strand : { u.me with st := s.me.st, word := s.me.word, latches := s.me.latches, ckpt := s.me.ckpt,
                       ckptDue := s.me.ckptDue, retired := s.me.retired, firstStore := s.me.firstStore,
                       mustCommit := s.me.mustCommit, walk := s.me.walk } = s.me
  st : u.me.st = s.me.st
  perf : Counted s.myCore u.myCore (if u.me.ckptDue then s.commits else [])

theorem Begun.pc {s u : State} (h : Begun s u) : u.me.pc = s.me.pc := (congrArg Strand.pc h.strand :)
theorem Begun.region {s u : State} (h : Begun s u) : u.me.region = s.me.region := (congrArg Strand.region h.strand :)
theorem Begun.stepping {s u : State} (h : Begun s u) : u.me.stepping = s.me.stepping := (congrArg Strand.stepping h.strand :)

theorem State.Runs.begun_modMe {s : State} (hr : s.Runs) {f : Strand → Strand} (hst : (f s.me).st = s.me.st)
    (hdue : (f s.me).ckptDue = false)
    (hstrand : { f s.me with st := s.me.st, word := s.me.word, latches := s.me.latches, ckpt := s.me.ckpt,
                             ckptDue := s.me.ckptDue, retired := s.me.retired, firstStore := s.me.firstStore,
                             mustCommit := s.me.mustCommit, walk := s.me.walk } = s.me) : Begun s (s.modMe f) where
  runs := State.runs_modMe hr _
  only := s.onlyStrand_modMe _
  strand := by rw [State.me_modMe hr]; exact hstrand
  st := by rw [State.me_modMe hr, hst]
  perf := by
    rw [State.me_modMe hr, hdue]
    exact s.counted_modMe _

theorem State.Runs.begun_startInstr {s : State} (hr : s.Runs) (maj fn : Nat) (len : Len) :
    Begun s (s.startInstr maj fn len) := by
  refine hr.begun_modMe ?_ ?_ ?_ <;> (dsimp only; split)
  case refine_2.isFalse h => exact eq_false_of_ne_true h
  all_goals rfl

theorem State.Runs.begun_entered {s : State} (hr : s.Runs) (maj fn : Nat) (o : Ops) :
    Begun s (s.modMe fun p => p.entered maj fn o) := by
  refine hr.begun_modMe ?_ ?_ ?_ <;> (unfold Strand.entered; dsimp only; split)
  case refine_2.isFalse h => exact eq_false_of_ne_true h
  all_goals rfl

/-- The strand after the commit of a region without stores. -/
def Strand.committed (p : Strand) : Strand :=
  { p with region := [], retired := 0, firstStore := none, mustCommit := false, ckptDue := true }

theorem State.commit_of_no_store {s : State} (hr : s.Runs) (hreg : s.me.region = []) : s.commit =
    if s.me.ckptDue || s.me.st == .waiting .retry then s.modMe Strand.committed
    else (s.modMe Strand.committed).count s.cur.1 11 1 := by
  have hput : s.modMe Strand.committed = s.putStrand s.cur.1 s.cur.2 s.me.committed := State.modStrand_some hr.me _
  rw [hput]
  unfold State.commit State.commitRegion
  rw [hr.me]
  simp only [hreg]
  rfl

theorem Strand.committed_of_no_store {p : Strand} (h : p.region = []) :
    p.committed = { p with retired := 0, firstStore := none, mustCommit := false, ckptDue := true } := by
  unfold Strand.committed
  rw [← h]

/-- The commit is counted once, however often the instruction commits. -/
theorem State.counted_commit {s : State} (hr : s.Runs) (hreg : s.me.region = []) : Counted s.myCore s.commit.myCore
    (if s.me.ckptDue then [] else s.commits) := by
  have hmove := s.counted_modMe Strand.committed
  have hcount := (s.modMe Strand.committed).counted_count 11 1
  rw [State.modMe_cur] at hcount
  have hboth := hmove.trans hcount (s.onlyStrand_modMe _).counting
  rw [State.commit_of_no_store hr hreg]
  by_cases hdue : s.me.ckptDue <;> by_cases hw : s.me.st = .waiting .retry <;> simp_all [State.commits]

theorem State.commit_me {s : State} (hr : s.Runs) (hreg : s.me.region = []) : s.commit.me = s.me.committed := by
  rw [State.commit_of_no_store hr hreg]
  split
  · exact State.me_modMe hr _
  · rw [State.me_count, State.me_modMe hr]

theorem State.onlyStrand_commit {s : State} (hr : s.Runs) (hreg : s.me.region = []) : OnlyStrand s s.commit := by
  rw [State.commit_of_no_store hr hreg]
  have hmove := s.onlyStrand_modMe Strand.committed
  split
  · exact hmove
  · have hcount := (s.modMe Strand.committed).onlyStrand_count 11 1
    rw [State.modMe_cur] at hcount
    exact hmove.trans hcount

theorem State.runs_commit {s : State} (hr : s.Runs) (hreg : s.me.region = []) : s.commit.Runs := by
  have hmove := State.runs_modMe hr Strand.committed
  rw [State.commit_of_no_store hr hreg]
  split
  · exact hmove
  · unfold State.Runs
    rw [State.count_cur, State.strand?_count]
    exact hmove

theorem Begun.commit {s u : State} (h : Begun s u) (hreg : s.me.region = []) : Begun s u.commit := by
  have hu : u.me.region = [] := h.region.trans hreg
  have hme : u.commit.me = { u.me with retired := 0, firstStore := none, mustCommit := false, ckptDue := true } := by
    rw [State.commit_me h.runs hu, Strand.committed_of_no_store hu]
  have honly := State.onlyStrand_commit h.runs hu
  refine ⟨State.runs_commit h.runs hu, h.only.trans honly, by rw [hme]; exact h.strand, by rw [hme]; exact h.st, ?_⟩
  have hperf := h.perf.trans (State.counted_commit h.runs hu) h.only.counting
  have hcommits : u.commits = s.commits := by rw [State.commits, State.commits, h.st]
  rw [hme]
  by_cases hdue : u.me.ckptDue <;> simp_all

/-! ### The fault -/

theorem State.strand?_modCore {s : State} {c : Nat} {f : Core → Core} (hf : ∀ k, (f k).slots = k.slots) (d sl : Nat) :
    (s.modCore c f).strand? d sl = s.strand? d sl := by
  unfold State.strand?
  by_cases h : d = c
  · subst h; rw [State.modCore_core, hf]
  · rw [State.modCore_core_ne s _ h]

/-- The strand FAULTED with a record. -/
def Strand.faulted (p : Strand) (f : FaultRec) : Strand := { p with st := .faulted f, walk := none }

/-- The strand that executes is FAULTED and queues for a holder (04 R112). -/
def State.faultMe (s : State) (f : FaultRec) : State :=
  (s.modMe (·.faulted f)).modCore s.cur.1 fun k => { k with faultQ := k.faultQ ++ [s.cur.2] }

theorem State.faultMe_strand? (s : State) (f : FaultRec) (c sl : Nat) : (s.faultMe f).strand? c sl =
    (s.modMe (·.faulted f)).strand? c sl := by
  refine State.strand?_modCore ?_ c sl
  exact fun _ => rfl

theorem State.faultMe_me {s : State} (hr : s.Runs) (f : FaultRec) :
    (s.faultMe f).me = s.me.faulted f := by
  apply State.me_of_strand?
  rw [State.faultMe_strand?, ← State.me_modMe hr (·.faulted f)]
  have := (State.runs_modMe hr (·.faulted f)).me
  simpa [State.faultMe] using this

theorem State.faultMe_myCore (s : State) (f : FaultRec) :
    ∃ l, (s.faultMe f).myCore = { s.myCore with slots := l, faultQ := s.myCore.faultQ ++ [s.cur.2] } := by
  obtain ⟨l, hl⟩ := s.myCore_modMe (·.faulted f)
  refine ⟨l, ?_⟩
  have : (s.faultMe f).myCore = { (s.modMe (·.faulted f)).myCore with
      faultQ := (s.modMe (·.faulted f)).myCore.faultQ ++ [s.cur.2] } := by
    unfold State.myCore State.faultMe
    rw [State.modCore_cur, State.modMe_cur, State.modCore_core]
  rw [this, hl]

theorem State.faultAt_eq_faultMe {s : State} (hr : s.Runs) (hq : s.me.stepping = false) (f : FaultRec) :
    s.faultAt s.cur.1 s.cur.2 f = s.faultMe f := by
  refine State.reportStep_none (s := s.faultMe f) fun p hp => ?_
  have hme : (s.faultMe f).me = p := State.me_of_strand? (by simpa [State.faultMe] using hp)
  rw [← hme, State.faultMe_me hr]
  exact hq

theorem Begun.faultAt {s u : State} (h : Begun s u) (hdue : u.me.ckptDue = true) (hq : s.me.stepping = false) (f : FaultRec) :
    Trapped s (u.faultAt u.cur.1 u.cur.2 f) f := by
  have hcur := h.only.cur
  have honly := h.only.trans (u.onlyStrand_modMe (·.faulted f))
  obtain ⟨l, hl⟩ := u.faultMe_myCore f
  have hmine := h.only.cores.mine
  rw [State.faultAt_eq_faultMe h.runs (h.stepping.trans hq)]
  constructor
  case st => rw [State.faultMe_me h.runs]; rfl
  case strand => rw [State.faultMe_me h.runs]; exact h.strand
  case queue =>
    have hfq : u.myCore.faultQ = s.myCore.faultQ := (congrArg Core.faultQ hmine :)
    rw [hl, hcur, ← hfq]
  case rest => exact honly.rest
  case bytes => exact honly.bytes
  case others =>
    intro c hc
    rw [State.faultMe, State.modCore_core_ne _ _ (hcur ▸ hc)]
    exact honly.cores.others c hc
  case mine =>
    have : { u.myCore with slots := s.myCore.slots, faultQ := s.myCore.faultQ, perf := s.myCore.perf } = s.myCore := by
      rw [← hmine]
    rw [hl]; exact this
  case perf =>
    have hperf := h.perf
    rw [hdue] at hperf
    rw [hl]; exact hperf
  case slots =>
    intro n hn
    rw [← hcur, State.faultMe_strand?, State.strand?_modMe_ne _ _ (hcur ▸ hn), hcur, h.only.cores.slots n hn]

/-- A precise fault that an instruction raises after its start, or after a commit. -/
theorem Begun.raise {s u : State} (h : Begun s u) (hc : s.Calm) (hreg : s.me.region = []) (code : Code) (sub : Nat)
    (addr : Word) : Trapped s (u.raise code sub addr)
      { code, sub := BitVec.ofNat 8 sub, deferred := false, word := u.me.word, pc := s.me.pc, addr } := by
  have hu : u.me.region = [] := h.region.trans hreg
  have hcommit := h.commit hreg
  have hdue : u.commit.me.ckptDue = true := by rw [State.commit_me h.runs hu]; rfl
  have := hcommit.faultAt hdue hc.quiet.step
    { code, sub := BitVec.ofNat 8 sub, deferred := false, word := u.me.word, pc := u.commit.me.pc, addr }
  rw [hcommit.pc] at this
  unfold State.raise State.raiseAt
  dsimp only
  rw [hcommit.pc]
  exact this

/-! ### Step 8 of 01 R38 -/

theorem State.startInstr_word {s : State} (hr : s.Runs) (maj fn : Nat) (len : Len) : (s.startInstr maj fn len).me.word =
    { maj := BitVec.ofNat 8 maj, fn := BitVec.ofNat 6 fn, len := lenCode len } := by
  rw [State.startInstr, State.me_modMe hr]
  dsimp only
  split <;> rfl

theorem State.startInstr_nreg {s : State} (hr : s.Runs) (maj fn : Nat) (len : Len) :
    (s.startInstr maj fn len).me.nreg = s.me.nreg := by
  rw [State.startInstr, State.me_modMe hr]
  dsimp only
  split <;> rfl

/-- An instruction that names a register which does not exist, whatever its own effect (01 R24, R25). -/
theorem State.Calm.instr_missing {s : State} (hc : s.Calm) (hreg : s.me.region = []) (maj fn : Nat) {o : Ops}
    (ho : o.regsExist s.me.nreg = false) (body : State → State) : Trapped s (s.instr maj fn o body)
      { code := .regAllot, sub := 0, deferred := false,
        word := { maj := BitVec.ofNat 8 maj, fn := BitVec.ofNat 6 fn, len := lenCode o.len }, pc := s.me.pc, addr := 0 } := by
  have hraise := (hc.runs.begun_startInstr maj fn o.len).raise hc hreg .regAllot 0 0
  rw [State.startInstr_word hc.runs] at hraise
  unfold State.instr
  dsimp only
  rw [State.startInstr_nreg hc.runs, ho]
  exact hraise

/-- An instruction that raises a fault, at once or after a commit, when its registers exist. -/
theorem State.Calm.instr_raise {s u : State} (hc : s.Calm) (hreg : s.me.region = []) (maj fn : Nat) {o : Ops}
    (ho : o.regsExist s.me.nreg = true) (hu : Begun s u)
    (hword : u.me.word = { maj := BitVec.ofNat 8 maj, fn := BitVec.ofNat 6 fn, len := lenCode o.len })
    {body : State → State} {code : Code} {sub : Nat} {addr : Word}
    (hbody : body (s.modMe fun p => p.entered maj fn o) = u.raise code sub addr) :
    Trapped s (s.instr maj fn o body) (s.faultHere maj fn o code sub addr) := by
  have hraise := hu.raise hc hreg code sub addr
  rw [hword] at hraise
  rw [State.instr_ok hc.runs maj fn ho, hbody]
  exact hraise

/-- An instruction whose own effect, from any state that follows its start, is a fault. -/
theorem State.Calm.instr_traps {s : State} (hc : s.Calm) (hreg : s.me.region = []) (maj fn : Nat) {o : Ops}
    (ho : o.regsExist s.me.nreg = true) {body : State → State} {code : Code} {sub : Nat} {addr : Word}
    (hbody : ∀ u, Begun s u → body u = u.raise code sub addr) :
    Trapped s (s.instr maj fn o body) (s.faultHere maj fn o code sub addr) :=
  have hu := hc.runs.begun_entered maj fn o
  hc.instr_raise hreg maj fn ho hu (by rw [State.me_modMe hc.runs, Strand.entered_word]) (hbody _ hu)

end Sys2Proof.Machine
end

section
/-! Every instruction checks its registers before its own effect (01 R38 step 8), and the faults that follow. -/

namespace Sys2Proof.Machine

/-- An instruction is stated by its MAJ, FN and operands and by what it does once its registers exist. -/
def Instr.RunsAs (i : Instr) (s : State) (o : Ops) : Prop :=
  ∃ maj fn body, exec i s = .next (s.instr maj fn o body) ∧
    wordIdOfInstr i o = { maj := BitVec.ofNat 8 maj, fn := BitVec.ofNat 6 fn, len := lenCode o.len }

theorem wordIdOfInstr_of_rawOff {i : Instr} {k : Nat} {maj fn x off} {o : Ops} (henc : encode i = rawOff k maj fn x off o) :
    wordIdOfInstr i o = { maj, fn, len := lenCode o.len } := by
  rw [wordIdOfInstr, henc, rawOff_eq_raw6]
  rfl

theorem State.supInstr_of_sup {s : State} (h : s.me.sup = true) (need : Bool) (maj fn : Nat) (o : Ops) (body : State → State) :
    s.supInstr need maj fn o body = s.instr maj fn o body := by
  simp [State.supInstr, h]

theorem State.pagerInstr_of_pager {s : State} (h : s.me.pager = true) (maj fn : Nat) (o : Ops) (body : State → State) :
    s.pagerInstr maj fn o body = s.instr maj fn o body := by
  simp [State.pagerInstr, h]

theorem Instr.runsAs {i : Instr} {s : State} {f : Shape} (hsup : s.me.sup = true) (hpager : s.me.pager = true)
    (hf : i.shape = some f) : Instr.RunsAs i s f.ops := by
  cases i
  case lea | bccEq | bccNe | bccLt | bccGe | bccLtu | bccGeu | bccZ | bccNz | jmp | call | loop | ld | ldAcq | ldq | st | stRel |
      stq | aadd | aand | aor | axor | amin | amax | aminu | amaxu | aswap | afadd | acas | acas2 | waitchg | rvjoin |
      rvarrive | rvwait | vld | vst | vgath | vscat =>
    obtain rfl := Option.some.inj hf
    exact ⟨_, _, _, rfl, wordIdOfInstr_of_rawOff rfl⟩
  case rdsys | wrsys | tlbinvPage | tlbinvAsid | tlbinvGlob | tlbinvAll =>
    obtain rfl := Option.some.inj hf
    exact ⟨_, _, _, congrArg _ (State.supInstr_of_sup hsup _ _ _ _ _), rfl⟩
  case pagereqNext | pagereqReply =>
    obtain rfl := Option.some.inj hf
    exact ⟨_, _, _, congrArg _ (State.pagerInstr_of_pager hpager _ _ _ _), rfl⟩
  -- an event has no shape
  all_goals injection hf <;> (subst_vars; exact ⟨_, _, _, rfl, rfl⟩)

end Sys2Proof.Machine
end

section
/-! The checks of an access see nothing of the executing strand or of the counters (06 R154, Table 06.5). -/

namespace Sys2Proof.Machine

section
variable {s u : State} (h : OnlyStrand s u)
include h

theorem OnlyStrand.core (c : Nat) : { u.core c with slots := (s.core c).slots, perf := (s.core c).perf } = s.core c := by
  by_cases hc : c = s.cur.1
  · subst hc
    have hmine := h.cores.mine
    rwa [State.myCore, State.myCore, h.cur] at hmine
  · rw [h.cores.others c hc]

theorem OnlyStrand.core_sec (c : Nat) : (u.core c).sec = (s.core c).sec := (congrArg Core.sec (h.core c) :)
theorem OnlyStrand.core_ctxv (c : Nat) : (u.core c).ctxv = (s.core c).ctxv := (congrArg Core.ctxv (h.core c) :)

theorem OnlyStrand.donation : u.donation = s.donation :=
  funext fun c => (congrArg (fun k : Core => wfld k.cfg 0 2 * 2 ^ 18) (h.core c) :)

/-- A part of the state outside the cores. -/
theorem OnlyStrand.outside {α : Type} (f : State → α) (hf : ∀ t cs, f { t with cores := cs } = f t) : f u = f s := by
  rw [← hf u s.cores, h.rest]

theorem OnlyStrand.isPool : u.isPool = s.isPool := by
  funext l
  simp only [State.isPool, h.donation]

theorem OnlyStrand.worldOf : u.worldOf = s.worldOf := by
  funext l
  have hworlds := h.outside (fun t => t.spine.worlds) fun _ _ => rfl
  have hclu := h.outside State.clu fun _ _ => rfl
  have hchip := h.outside State.chip fun _ _ => rfl
  simp only [State.worldOf, h.isPool, h.core_sec, h.core_ctxv, hworlds, hclu, hchip]

theorem OnlyStrand.foreign : u.foreign = s.foreign := by
  funext sec e locs
  simp only [State.foreign, State.worldOk, h.worldOf]

theorem OnlyStrand.minScope : u.minScope = s.minScope := by
  funext c l
  simp only [State.minScope, h.isPool]

theorem OnlyStrand.window : u.window = s.window := by
  have hclu := h.outside State.clu fun _ _ => rfl
  have hchip := h.outside State.chip fun _ _ => rfl
  have hcoreOf := h.outside State.coreOfL fun _ _ => rfl
  have hchipOf := h.outside State.chipOfL fun _ _ => rfl
  have hmask := h.outside State.liveMask fun _ _ => rfl
  funext c asid lh sec eng ea n
  simp only [State.window, State.coreWin, h.donation, h.core_sec, hclu, hchip, hcoreOf, hchipOf, hmask]

theorem OnlyStrand.finishAcc : u.finishAcc = s.finishAcc := by
  have hsites := h.outside State.pieceSites fun _ _ => rfl
  have hroutable := h.outside State.routable fun _ _ => rfl
  have hstale := h.outside State.staleLoc fun _ _ => rfl
  have hbad := h.outside State.bad fun _ _ => rfl
  funext c nd ps
  simp only [State.finishAcc, h.minScope, hsites, hroutable, hstale, hbad]

theorem OnlyStrand.access : u.access = s.access := by
  have htlb := h.outside State.tlbFind fun _ _ => rfl
  have hreach := h.outside State.reachLocs fun _ _ => rfl
  have hlocs := h.outside State.entryLocs fun _ _ => rfl
  funext c asid lh sec nd ea n
  simp only [State.access, h.window, h.finishAcc, h.foreign, htlb, hreach, hlocs]

end

/-! ### Operands and addresses after the start -/

theorem Begun.val {s u : State} (h : Begun s u) (x : Src) : u.val x = s.val x := by
  have hg : u.me.g = s.me.g := (congrArg Strand.g h.strand :)
  have hasid : u.me.asid = s.me.asid := (congrArg Strand.asid h.strand :)
  have hlh : u.me.lh = s.me.lh := (congrArg Strand.lh h.strand :)
  have hmem : u.mem = s.mem := (congrArg State.mem h.only.rest :)
  cases x <;> simp [State.val, State.konst, Strand.getG, hg, hasid, hlh, hmem]

theorem Begun.handler {s u : State} (h : Begun s u) : u.me.handler = s.me.handler := (congrArg Strand.handler h.strand :)

theorem Begun.cb {s u : State} (h : Begun s u) (n : Nat) : u.myCore.cb n = s.myCore.cb n :=
  (congrArg (Core.cb · n) h.only.cores.mine :)

theorem Begun.checks {s u : State} (h : Begun s u) (nd : Need) (ea : Word) (n : Nat) : u.checks nd ea n = s.checks nd ea n := by
  have hasid : u.me.asid = s.me.asid := (congrArg Strand.asid h.strand :)
  have hlh : u.me.lh = s.me.lh := (congrArg Strand.lh h.strand :)
  have hsec : u.me.sec = s.me.sec := (congrArg Strand.sec h.strand :)
  rw [State.checks, State.checks, h.only.access, h.only.cur, hasid, hlh, hsec]

/-- The effective address of 01 R33, computed modulo 2^64. -/
theorem State.ea_eq_effective (s : State) (x : MemX) (o : Ops) : s.ea x o = effective s x o := by
  unfold State.ea effective
  rw [BitVec.ofInt_add, BitVec.ofInt_add, BitVec.ofInt_toInt, BitVec.ofInt_mul, BitVec.ofInt_toInt, BitVec.shiftLeft_eq_mul_twoPow]
  have hpow : BitVec.ofInt 64 (2 ^ x.shift.toNat) = BitVec.twoPow 64 x.shift.toNat := by
    have hnat : (2 : Int) ^ x.shift.toNat = ((2 ^ x.shift.toNat : Nat) : Int) := by push_cast; rfl
    apply BitVec.eq_of_toNat_eq
    rw [hnat, BitVec.ofInt_natCast, BitVec.toNat_ofNat, BitVec.toNat_twoPow]
  rw [hpow]
  rfl

theorem Begun.ea {s u : State} (h : Begun s u) (x : MemX) (o : Ops) : u.ea x o = effective s x o := by
  rw [← State.ea_eq_effective, State.ea, State.ea, h.val, h.val]

/-- A refused access raises the fault that its checks name (06 R154). -/
theorem State.withAccess_fault {s : State} {nd : Need} {ea : Word} {n : Nat} {code : Code} {sub : Nat} {a : Word}
    (h : s.checks nd ea n = .fault code sub a) (kind : ReqKind) (go : List Piece → State → State) :
    s.withAccess kind nd ea n go = s.raise code sub a := by
  unfold State.withAccess
  dsimp only
  rw [← State.checks, h]

end Sys2Proof.Machine
end

section
/-! The precise faults of misaligned targets, traps, missing registers, barred handlers and refused accesses. -/

namespace Sys2Proof.Machine

section
variable {i : Instr} {s : State} {o : Ops} {fn : Nat}

/-- An indirect transfer to a misaligned target (05 R127). -/
theorem indirect_misaligned (hc : s.Calm) (hreg : s.me.region = []) (hi : indirectFn i = some (o, fn))
    (ho : o.regsExist s.me.nreg = true) (ht : (s.val o.a).toNat % 4 ≠ 0) :
    ∃ t, exec i s = .next t ∧ Trapped s t (s.faultHere 0x21 fn o .align 0 (s.val o.a)) := by
  have hraise (u : State) (hu : Begun s u) (ret : Bool) (link : State → State) :
      u.indirect ret (u.val o.a) link = u.raise .align 0 (s.val o.a) := by
    rw [State.indirect, hu.val, if_pos ht]
  cases i
  case jmpi | calli | ret =>
    obtain ⟨rfl, rfl⟩ := Prod.mk.inj (Option.some.inj hi)
    exact ⟨_, rfl, hc.instr_traps hreg _ _ ho fun u hu => hraise u hu _ _⟩
  all_goals exact nomatch hi

/-- TRAP, BRK and SVC with no debugger attached (05 R131). -/
theorem trap_undebugged {code : Code} {sub : Nat} {addr : Word} (hc : s.Calm) (hreg : s.me.region = [])
    (hd : s.spine.attached = none) (hi : trapRule i = some (o, fn, code, sub, addr)) (ho : o.regsExist s.me.nreg = true) :
    ∃ t, exec i s = .next t ∧ Trapped s t (s.faultHere 0x24 fn o code sub addr) := by
  have hraise (u : State) (hu : Begun s u) (bit : Nat) (code : Code) (sub : Nat) (addr : Word) :
      u.trapTo bit code sub addr = u.raise code sub addr := by
    have hspine : u.spine = s.spine := (congrArg State.spine hu.only.rest :)
    unfold State.trapTo
    rw [hspine, hd]
  cases i
  case trap | brk | svc =>
    obtain ⟨rfl, rfl, rfl, rfl, rfl⟩ : _ ∧ _ ∧ _ ∧ _ ∧ _ := by simpa [trapRule] using hi
    exact ⟨_, rfl, hc.instr_traps hreg _ _ ho fun u hu => hraise u hu _ _ _ _⟩
  all_goals exact nomatch hi

/-- An instruction that names a register which does not exist (01 R24, R25). -/
theorem register_missing {f : Shape} (hc : s.Calm) (hreg : s.me.region = []) (hsup : s.me.sup = true)
    (hpager : s.me.pager = true) (hi : i.shape = some f) (ho : f.ops.regsExist s.me.nreg = false) :
    ∃ t, exec i s = .next t ∧ Trapped s t
      { code := .regAllot, sub := 0, deferred := false, word := wordIdOfInstr i f.ops, pc := s.me.pc, addr := 0 } := by
  obtain ⟨maj, fn, body, hexec, hword⟩ := Instr.runsAs hsup hpager hi
  rw [hword]
  exact ⟨_, hexec, hc.instr_missing hreg maj fn ho body⟩

theorem State.noHandler_of_handler {u : State} (h : u.me.handler = true) (body : State → State) :
    u.noHandler body = u.raise .handlerWait 0 0 := by
  rw [State.noHandler, if_pos h]

theorem State.withCb_of_ok {u : State} {cb : BitVec 4} {producer : Bool}
    (h : cbFormFault (u.myCore.cb cb.toNat) producer = none) (body : CbDesc → State → State) :
    u.withCb cb producer body = body (u.myCore.cb cb.toNat) u := by
  unfold cbFormFault at h
  by_cases hvalid : (u.myCore.cb cb.toNat).valid = false
  · simp [hvalid] at h
  · by_cases hrole : (if producer then (u.myCore.cb cb.toNat).prod else (u.myCore.cb cb.toNat).cons) = 0
    · simp [State.withCb, hvalid, hrole]
    · exact absurd (by simpa [hvalid] using h) hrole

/-- A handler strand at an instruction that it may not issue (04 R101). -/
theorem handler_barred (hc : s.Calm) (hreg : s.me.region = []) (hh : s.me.handler = true)
    (hi : handlerBarred s i = some o) (ho : o.regsExist s.me.nreg = true) :
    ∃ t, exec i s = .next t ∧ Trapped s t
      { code := .handlerWait, sub := 0, deferred := false, word := wordIdOfInstr i o, pc := s.me.pc, addr := 0 } := by
  have hraise (u : State) (hu : Begun s u) (body : State → State) : u.noHandler body = u.raise .handlerWait 0 0 :=
    State.noHandler_of_handler (hu.handler.trans hh) body
  cases i
  case waitchg | rvjoin | rvwait =>
    obtain rfl := Option.some.inj hi
    rw [wordIdOfInstr_of_rawOff rfl]
    exact ⟨_, rfl, hc.instr_traps hreg _ _ ho fun u hu => hraise u hu _⟩
  case clbarWait | gang | migrate | migrateC | spawn =>
    obtain rfl := Option.some.inj hi
    exact ⟨_, rfl, hc.instr_traps hreg _ _ ho fun u hu => hraise u hu _⟩
  case cbwaitf | cbwaite =>
    obtain ⟨hcb, rfl⟩ : _ ∧ _ = _ := by simpa [handlerBarred] using hi
    refine ⟨_, rfl, hc.instr_traps hreg _ _ ho fun u hu => ?_⟩
    rw [State.withCb_of_ok (by rw [hu.cb]; exact hcb), hraise u hu]
  case vgrow p =>
    obtain ⟨⟨hpos, hle⟩, rfl⟩ : (0 < _ ∧ _ ≤ 11) ∧ p = o := by simpa [handlerBarred] using hi
    have hu := hc.runs.begun_entered 0x50 0x00 p
    have hcommit := hu.commit hreg
    refine ⟨_, rfl, hc.instr_raise hreg _ _ ho hcommit ?_ ?_⟩
    · rw [State.commit_me hu.runs (hu.region.trans hreg)]
      change (s.modMe _).me.word = _
      rw [State.me_modMe hc.runs, Strand.entered_word]
    · simp only [hcommit.val, hcommit.handler, hh, hpos, decide_true, Bool.and_self, if_true, if_neg (Nat.not_lt.mpr hle)]
  all_goals exact nomatch hi

theorem widthBytes_eq_widthOf (wd : MemW) : widthBytes wd = widthOf wd := by cases wd <;> rfl

/-- A scalar access that its checks refuse (06 R154). -/
theorem access_refused {x : Touch} {maj : Nat} {code : Code} {sub : Nat} {a : Word} (hc : s.Calm) (hreg : s.me.region = [])
    (hmaj : (∃ wd sgn m o, (i = .ld wd sgn m o ∨ i = .ldAcq wd sgn m o) ∧ maj = 0x30) ∨ (∃ m o, i = .ldq m o ∧ maj = 0x31) ∨
      (∃ wd m o, (i = .st wd m o ∨ i = .stRel wd m o) ∧ maj = 0x32) ∨ ∃ m o, i = .stq m o ∧ maj = 0x33)
    (hx : (loadRule s i).map (·.1) = some x ∨ (storeRule s i).map (·.1) = some x) (ho : x.ops.regsExist s.me.nreg = true)
    (hacc : s.checks x.need x.ea x.size = .fault code sub a) :
    ∃ t, exec i s = .next t ∧ Trapped s t (s.faultHere maj 0 x.ops code sub a) := by
  have hraise (u : State) (hu : Begun s u) (kind : ReqKind) (go : List Piece → State → State) :
      u.withAccess kind x.need x.ea x.size go = u.raise code sub a :=
    State.withAccess_fault (by rw [hu.checks, hacc]) kind go
  rcases hmaj with ⟨wd, sgn, m, o, rfl | rfl, rfl⟩ | ⟨m, o, rfl, rfl⟩ | ⟨wd, m, o, rfl | rfl, rfl⟩ | ⟨m, o, rfl, rfl⟩
  all_goals
    obtain rfl : _ = x := by simpa [loadRule, storeRule] using hx
    refine ⟨_, rfl, hc.instr_traps hreg _ _ ho fun u hu => ?_⟩
    simp only [State.loadAt, hu.ea, widthBytes_eq_widthOf]
    exact hraise u hu _ _
end

/-- Settles O4: each fault is raised in a state that follows the start of the instruction, where only what a precise fault leaves
open has changed. -/
theorem preciseFaults : Obligations.PreciseFaults :=
  ⟨fun _ _ _ _ hc hreg hi ho ht => indirect_misaligned hc hreg hi ho ht,
    fun _ _ _ _ _ _ _ hc hreg hd hi ho => trap_undebugged hc hreg hd hi ho,
    fun _ _ _ hc hreg hsup hpager hi ho => register_missing hc hreg hsup hpager hi ho,
    fun _ _ _ hc hreg hh hi ho => handler_barred hc hreg hh hi ho,
    fun _ _ _ _ _ _ _ hc hreg hmaj hx ho hacc => access_refused hc hreg hmaj hx ho hacc⟩

end Sys2Proof.Machine
end

section
/-! One step fetches at the member's PC, checks and runs what the fetched bytes decode to. -/

namespace Sys2Proof.Machine

/-! ### The windows of the PC -/

theorem pcWindow_of_translated {pc : Word} (h : pc.toNat < 2 ^ 55) : pcWindow pc = none := by
  have hw : wfld pc 56 8 = 0 := by rw [wfld, bitsOf]; omega
  have hb : pc.getLsbD 55 = false := Nat.testBit_lt_two_pow h
  simp only [pcWindow, hw, hb, Bool.false_eq_true, if_false]

theorem pcWindow_of_noWindow {pc : Word} (hlo : 2 ^ 56 ≤ pc.toNat) (hhi : pc.toNat < 0xF0 * 2 ^ 56) : pcWindow pc = some 1 := by
  have hw : 1 ≤ wfld pc 56 8 ∧ wfld pc 56 8 < 0xF0 := by rw [wfld, bitsOf]; omega
  unfold pcWindow
  split
  case h_8 => rfl
  all_goals omega

/-! ### The bytes of a word that decodes -/

/-- A list of bytes that decodes holds as many bytes as the LEN of its first one asks for (01 R18, R38 steps 2 and 3). -/
theorem decode_ok_length {bs : List Byte} {x : Instr × List Byte} (h : decode bs = .ok x) :
    ∃ b tl len, bs = b :: tl ∧ Len.ofBits (b.setWidth 2) = some len ∧ len.bytes ≤ bs.length := by
  cases bs with
  | nil => exact nomatch h
  | cons b tl =>
    rw [decode] at h
    split at h
    · exact nomatch h
    · next len hlen =>
      split at h
      · exact nomatch h
      · next hlong => exact ⟨b, tl, len, rfl, hlen, Nat.le_of_not_lt hlong⟩

theorem wordIdOf_cons_len (b : Byte) (tl : List Byte) : (wordIdOf (b :: tl)).len = b.setWidth 2 := by
  apply BitVec.eq_of_toNat_eq
  simp only [wordIdOf, List.take_succ_cons, leNat, BitVec.toNat_ofNat, BitVec.toNat_setWidth]
  omega

theorem Len.bits_of_ofBits {x : BitVec 2} {len : Len} (h : Len.ofBits x = some len) : x = len.bits := by
  revert x
  cases len <;> decide

theorem WordId.bytes_of_len {w : WordId} {len : Len} (h : w.len = len.bits) : w.bytes = len.bytes := by
  rw [WordId.bytes, h]
  cases len <;> rfl

/-- Bytes of one fetch block that decode pass the checks of 01 R38. -/
theorem checkBytes_of_decode {pc : Word} {bs more : List Byte} {i : Instr} (hblock : bs.length ≤ 32 - pc.toNat % 32)
    (h : decode bs = .ok (i, more)) : checkBytes pc bs = .ok i := by
  obtain ⟨b, tl, len, rfl, hlen, hlong⟩ := decode_ok_length h
  have hw : (wordIdOf (b :: tl)).len = len.bits := by rw [wordIdOf_cons_len, Len.bits_of_ofBits hlen]
  have hfits : ¬ 32 < pc.toNat % 32 + (wordIdOf (b :: tl)).bytes := by
    have := pc.toNat.mod_lt (y := 32) (by decide)
    rw [WordId.bytes_of_len hw]
    omega
  simp only [checkBytes, hw, len.bits_ne_three, hfits, if_false, h]

/-! ### The fetch -/

section
variable {s : State} {c : Nat} {p : Strand} {e : TlbEntry}

theorem State.foreign_eq_true_iff {sec : Bool} {locs : List Nat} :
    s.foreign sec e locs = true ↔ e.pte.getLsbD 6 = !sec ∨ ∃ l ∈ locs, s.worldOk sec l = false := by
  simp [State.foreign, ptePage, Bool.eq_not]

theorem State.foreign_eq_false_iff {sec : Bool} {locs : List Nat} :
    s.foreign sec e locs = false ↔ e.pte.getLsbD 6 = sec ∧ ∀ l ∈ locs, s.worldOk sec l = true := by
  simp [State.foreign, ptePage]

/-- A PC in no window raises ADDR with SUB 0x01 (01 R19). -/
theorem State.fetch_noWindow (s : State) (c : Nat) (hlo : 2 ^ 56 ≤ p.pc.toNat) (hhi : p.pc.toNat < 0xF0 * 2 ^ 56) :
    s.fetch c p = .fault .addr 1 p.pc WordId.none := by
  rw [State.fetch, pcWindow_of_noWindow hlo hhi]

theorem Translated.tlbFind (h : Translated s c p e) : s.tlbFind (coreClu c) p.asid p.sec p.pc = some e := h.entry

theorem Translated.fetch_notExecutable (h : Translated s c p e) (hx : e.pte.getLsbD 4 = false) :
    s.fetch c p = .fault .prot 0 p.pc WordId.none := by
  have hpage : (ptePage e.pte).x = false := hx
  simp [State.fetch, pcWindow_of_translated h.window, h.tlbFind, hpage]

theorem Translated.fetch_foreign (h : Translated s c p e) (hx : e.pte.getLsbD 4 = true)
    (hf : s.foreign p.sec e (s.blockLocs c e p.pc) = true) : s.fetch c p = .fault .world 0 p.pc WordId.none := by
  have hpage : (ptePage e.pte).x = true := hx
  simp [State.fetch, pcWindow_of_translated h.window, h.tlbFind, hpage, hf]

/-- A fetch that passes step 1 gives what the checks of the bytes give. -/
theorem Fetches.fetch {bs : List Byte} (h : Fetches s c p bs) : s.fetch c p = checkBytes p.pc bs := by
  obtain ⟨e, ⟨htr, hx, hworld, hgran⟩, hroute, hbad⟩ := h.page
  obtain ⟨line, hline, rfl⟩ := h.line
  have hpage : (ptePage e.pte).x = true := hx
  have hforeign : s.foreign p.sec e (s.blockLocs c e p.pc) = false := State.foreign_eq_false_iff.mpr ⟨hworld, hgran⟩
  have hgood : (s.blockLocs c e p.pc).any s.bad = false := by simpa using hbad
  have hcached : tfind (s.clu (coreClu c)).icache (p.pc.toNat / 64) = some line := hline
  simp only [State.fetch, pcWindow_of_translated htr.window, htr.tlbFind, hpage, hforeign, hroute, hgood, hcached, lineBytes,
    Bool.not_true, Bool.false_eq_true, if_false]

theorem Fetches.length_le {bs : List Byte} (h : Fetches s c p bs) : bs.length ≤ 32 - p.pc.toNat % 32 := by
  obtain ⟨line, -, rfl⟩ := h.line
  exact List.length_take_le _ _

end

/-! ### The step -/

section
variable {s : State} {c sl : Nat} {rest : List (Nat × Nat)} {p : Strand}

theorem Member.me_entered (h : Member s c sl rest p) : (s.entered c sl rest).me = p := State.me_of_strand? h.found

/-- A step at a member is the member's step from the state in which it executes; the fetch reads nothing that entering changes. -/
theorem Member.step_eq (h : Member s c sl rest p) :
    step s = match s.fetch c p with
      | .ok i => exec i (s.entered c sl rest)
      | f => .next ((s.entered c sl rest).unfetched f) := by
  have hissues : ((s.entered c sl rest).me.st == .issuing || (s.entered c sl rest).me.st == .waiting .retry) = true := by
    rw [h.me_entered, h.st]
    rfl
  have hstep : step s = stepMember (s.entered c sl rest) := by
    rw [step, h.issuing]
    exact if_pos hissues
  rw [hstep, stepMember, h.me_entered]
  rfl

theorem Member.step_ok {i : Instr} (h : Member s c sl rest p) (hf : s.fetch c p = .ok i) :
    step s = exec i (s.entered c sl rest) := by
  rw [h.step_eq, hf]

theorem Member.raises {w : WordId} {code : Code} {sub : Nat} {addr : Word} (h : Member s c sl rest p)
    (hf : s.fetch c p = .fault code sub addr w) : Raises s c sl rest w code sub addr := by
  rw [Raises, h.step_eq, hf]
  rfl

/-- A member whose slot holds no strand any more is passed over. -/
theorem step_of_emptySlot (hissue : s.issuing = (c, sl) :: rest) (hnone : s.strand? c sl = none) :
    step s = .next (s.entered c sl rest) := by
  have hnone' : (s.entered c sl rest).strand? (s.entered c sl rest).cur.1 (s.entered c sl rest).cur.2 = none := hnone
  have hblank : (s.entered c sl rest).me = Strand.blank := by rw [State.me, State.strandAt, hnone']; rfl
  have hidle : ¬ ((s.entered c sl rest).me.st == .issuing || (s.entered c sl rest).me.st == .waiting .retry) = true := by
    rw [hblank]
    decide
  rw [step, hissue]
  exact if_neg hidle

/-- With no group open, the next act of the agenda happens (log 1). -/
theorem step_of_agenda {e : Instr} {acts : List Instr} (hissue : s.issuing = []) (hagenda : s.agenda = e :: acts)
    (hact : e.shape = none) : step s = exec e { s with agenda := acts } := by
  simp [step, hissue, hagenda, hact]

end

/-- Settles O56: a step at a member is a match on its fetch, whose outcome each clause determines. -/
theorem stepRunsDecoded : Obligations.StepRunsDecoded := by
  refine ⟨fun s c sl rest p hm => ⟨?_, ?_, ?_, ?_, ?_⟩, fun _ _ _ _ => step_of_emptySlot, fun _ _ _ => step_of_agenda⟩
  · exact fun bs i more hf hdec => hm.step_ok (hf.fetch.trans (checkBytes_of_decode hf.length_le hdec))
  · exact fun hlo hhi => hm.raises (s.fetch_noWindow c hlo hhi)
  · exact fun e ht hx => hm.raises (ht.fetch_notExecutable hx)
  · exact fun e ht hx hsec => hm.raises (ht.fetch_foreign hx (State.foreign_eq_true_iff.mpr (.inl hsec)))
  · exact fun e l ht hx hl hw => hm.raises (ht.fetch_foreign hx (State.foreign_eq_true_iff.mpr (.inr ⟨l, hl, hw⟩)))

end Sys2Proof.Machine
end

section
/-! Words that the opcode map does not assign, and words whose length or place is wrong (01 R38 steps 2 to 5; 02 R43). -/

namespace Sys2Proof.Machine

/-! ### The assigned functions of a MAJ -/

/-- A row stands within the functions that 02 Table 02.1 gives its MAJ. -/
theorem opTable_fn_lt_fnCount : ∀ w ∈ opTable, w.fn.toNat < fnCount w.maj.toNat := by decide +kernel

theorem find?_opTable_of_unassigned {maj : BitVec 8} {fn : BitVec 6} (h : fnCount maj.toNat ≤ fn.toNat) :
    opTable.find? (OpRow.at maj fn) = none := by
  refine List.find?_eq_none.mpr fun w hw hat => ?_
  obtain ⟨rfl, rfl⟩ : w.maj = maj ∧ w.fn = fn := by simpa [OpRow.at] using hat
  exact absurd (opTable_fn_lt_fnCount w hw) (Nat.not_lt.mpr h)

/-! ### MAJ, FN and LEN of the first two bytes -/

theorem leNat_take (bs : List Byte) (n : Nat) : leNat (bs.take n) = leNat bs % 256 ^ n := by
  induction n generalizing bs with
  | zero => simp [leNat, Nat.mod_one]
  | succ n ih =>
    cases bs with
    | nil => simp [leNat]
    | cons b tl =>
      have hb := b.isLt
      have hdiv : (b.toNat + 256 * leNat tl) / 256 = leNat tl := by omega
      have hmod : (b.toNat + 256 * leNat tl) % 256 = b.toNat := by omega
      rw [List.take_succ_cons, leNat, leNat, ih, pow_succ' 256 n, Nat.mod_mul, hdiv, hmod]

/-- The first two bytes of a word hold the word's own MAJ and FN (01 R18, R40). -/
theorem wordIdOf_eq_ofBits (bs : List Byte) {n : Nat} (hn : 2 ≤ n) :
    let r := Raw.ofBits (BitVec.ofNat 128 (leNat (bs.take n)))
    r.len = (wordIdOf bs).len ∧ r.maj = (wordIdOf bs).maj ∧ r.fn = (wordIdOf bs).fn := by
  have hlow : leNat (bs.take 2) = leNat (bs.take n) % 65536 := by
    have := leNat_take (bs.take n) 2
    rwa [List.take_take, Nat.min_eq_left hn] at this
  refine ⟨?_, ?_, ?_⟩ <;> apply BitVec.eq_of_toNat_eq <;>
    simp only [Raw.ofBits, wordIdOf, hlow, BitVec.extractLsb'_toNat, BitVec.toNat_ofNat, Nat.shiftRight_eq_div_pow] <;> omega

theorem Len.exists_ofBits : ∀ x : BitVec 2, x ≠ 3 → ∃ len, Len.ofBits x = some len
  | 0, _ => ⟨.w64, rfl⟩
  | 1, _ => ⟨.w96, rfl⟩
  | 2, _ => ⟨.w128, rfl⟩
  | 3, h => absurd rfl h

/-- A whole word of a legal length that the opcode map does not assign is refused by the map. -/
theorem decode_of_unassigned {bs : List Byte} (hlen : (wordIdOf bs).len ≠ 3) (hlong : (wordIdOf bs).bytes ≤ bs.length)
    (hfn : fnCount (wordIdOf bs).maj.toNat ≤ (wordIdOf bs).fn.toNat) : decode bs = .error .opcode := by
  cases bs with
  | nil => exact absurd hlong (by decide)
  | cons b tl =>
    obtain ⟨len, hl⟩ := Len.exists_ofBits _ hlen
    have hbytes : (wordIdOf (b :: tl)).bytes = len.bytes := WordId.bytes_of_len (Len.bits_of_ofBits hl)
    have htwo : 2 ≤ len.bytes := by cases len <;> decide
    obtain ⟨hrlen, hrmaj, hrfn⟩ := wordIdOf_eq_ofBits (b :: tl) htwo
    have hraw : decodeRaw (Raw.ofBits (BitVec.ofNat 128 (leNat ((b :: tl).take len.bytes)))) = .error .opcode := by
      have hnone := find?_opTable_of_unassigned hfn
      rw [← hrmaj, ← hrfn] at hnone
      have hfind : (opTable.find? fun w => w.maj == _ && w.fn == _) = none := hnone
      rw [decodeRaw, hfind, if_neg (by rw [hrlen]; simpa using hlen)]
    rw [wordIdOf_cons_len] at hl
    rw [hbytes] at hlong
    rw [decode]
    simp only [hl, if_neg (Nat.not_lt.mpr hlong), hraw]

/-! ### The checks of the fetched bytes -/

theorem Fetches.length_eq {s : State} {c : Nat} {p : Strand} {bs : List Byte} (h : Fetches s c p bs) :
    bs.length = 32 - p.pc.toNat % 32 := by
  obtain ⟨line, -, rfl⟩ := h.line
  rw [List.length_take, List.length_drop, leBytes_length]
  omega

section
variable {pc : Word} {bs : List Byte}

theorem checkBytes_of_len_three (hlen : (wordIdOf bs).len = 3) :
    checkBytes pc bs = .fault .illegalEncoding 0 0 (wordIdOf bs) := by
  simp only [checkBytes, hlen, if_true]

theorem checkBytes_of_straddle (hlen : (wordIdOf bs).len ≠ 3) (hout : 32 < pc.toNat % 32 + (wordIdOf bs).bytes) :
    checkBytes pc bs = .fault .fetchStraddle 0 0 (wordIdOf bs) := by
  simp only [checkBytes, hlen, hout, if_false, if_true]

theorem checkBytes_of_unassigned (hlen : (wordIdOf bs).len ≠ 3) (hin : pc.toNat % 32 + (wordIdOf bs).bytes ≤ 32)
    (hlong : bs.length = 32 - pc.toNat % 32) (hfn : fnCount (wordIdOf bs).maj.toNat ≤ (wordIdOf bs).fn.toNat) :
    checkBytes pc bs = .fault .illegalOpcode 0 0 (wordIdOf bs) := by
  have hdec := decode_of_unassigned hlen (by omega) hfn
  simp only [checkBytes, hlen, Nat.not_lt.mpr hin, if_false, hdec]

end

/-- Settles O57: the fetch raises what the checks of the bytes raise, and the decoder finds no row. -/
theorem unassignedOpcodes : Obligations.UnassignedOpcodes := by
  rintro s c sl rest p bs w hm hf rfl
  refine ⟨fun hlen => ?_, fun hlen hout => ?_, fun hlen hin hfn => ?_⟩ <;> refine hm.raises (hf.fetch.trans ?_)
  · exact checkBytes_of_len_three hlen
  · exact checkBytes_of_straddle hlen hout
  · exact checkBytes_of_unassigned hlen hin hf.length_eq hfn

end Sys2Proof.Machine
end

section
/-! The commit of an open region (04 R103) with no watchpoint armed: its stores become writes in flight, and what only the
executing strand changes afterwards keeps what the commit has done. -/

namespace Sys2Proof.Machine

/-! ### No watchpoint armed (19 R430) -/

theorem OnlyStrand.unwatched {s u : State} (h : OnlyStrand s u) (hw : s.Unwatched) : u.Unwatched := fun c i hi => by
  have hwp : (u.core c).wp = (s.core c).wp := (congrArg Core.wp (h.core c) :)
  rw [hwp]
  exact hw c i hi

theorem State.Unwatched.watchRange {s : State} (h : s.Unwatched) (wr : Bool) (locs : List Nat) (who : Option (Nat × Nat))
    (sid pc : Word) (path : Nat) : s.watchRange wr locs who sid pc path = s := by
  unfold State.watchRange
  refine foldl_same _ _ _ fun c _ => State.fireAll_none s _ _ _ _ _ _ _ fun i hi => ?_
  simp only [h c i hi, Bool.and_eq_false_iff, beq_eq_false_iff_ne]
  exact .inl (.inl (by decide))

/-! ### The stores handed to memory (15 R344) -/

/-- Writes in flight that stores of a strand have become: those with a byte, in their order. -/
structure State.Hands (s : State) (c sl : Nat) (rel : Bool) (bs : List BufStore) (ws : List WriteUnit) : Prop where
  cells : ws.map (·.cells) = (bs.map (·.cells)).filter fun l => !l.isEmpty
  unit : ∀ w ∈ ws, w.core = c ∧ w.slot = sl ∧ w.sid = (s.strandAt c sl).sid ∧ w.rel = rel ∧ w.locked = false ∧
    s.fresh ≤ w.id

theorem State.handOver_of_unwatched {s : State} (hw : s.Unwatched) (c sl : Nat) (rel : Bool) (b : BufStore) :
    ∃ ws n, s.handOver c sl rel b = { s with writes := s.writes ++ ws, fresh := n } ∧ s.fresh ≤ n ∧
      s.Hands c sl rel [b] ws := by
  unfold State.handOver
  dsimp only
  split
  case isTrue hb => exact ⟨[], s.fresh, by simp, Nat.le_refl _, by simp [hb], by simp⟩
  case isFalse hb =>
    refine ⟨[_], s.fresh + 1, State.Unwatched.watchRange (s := State.tick _) ?_ _ _ _ _ _ _, Nat.le_succ _, ?_, ?_⟩
    · exact hw
    · simp [hb]
    · simp

theorem State.foldl_handOver_of_unwatched (c sl : Nat) (rel : Bool) (bs : List BufStore) : ∀ {s : State}, s.Unwatched →
    ∃ ws n, bs.foldl (fun s b => s.handOver c sl rel b) s = { s with writes := s.writes ++ ws, fresh := n } ∧
      s.fresh ≤ n ∧ s.Hands c sl rel bs ws := by
  induction bs with
  | nil => exact fun {s} _ => ⟨[], s.fresh, by simp, Nat.le_refl _, rfl, by simp⟩
  | cons b bs ih =>
    intro s hw
    obtain ⟨ws, n, hhand, hn, hws⟩ := State.handOver_of_unwatched hw c sl rel b
    obtain ⟨ws', n', hfold, hn', hws'⟩ := ih (s := { s with writes := s.writes ++ ws, fresh := n }) hw
    refine ⟨ws ++ ws', n', ?_, hn.trans hn', ?_, fun w hmem => ?_⟩
    · rw [List.foldl_cons, hhand, hfold, List.append_assoc]
    · rw [List.map_append, hws.cells, hws'.cells, ← List.filter_append, ← List.map_append]
      rfl
    · rcases List.mem_append.mp hmem with h | h
      · exact hws.unit w h
      · obtain ⟨hcore, hslot, hsid, hrel, hlock, hid⟩ := hws'.unit w h
        exact ⟨hcore, hslot, hsid, hrel, hlock, hn.trans hid⟩

/-! ### The commit -/

/-- The strand after the commit of its region: its stores are folded into SDIG. -/
def Strand.flushed (p : Strand) : Strand :=
  { p with sdig := foldStores p.sdig p.region, region := [], retired := 0, firstStore := none, mustCommit := false,
           ckptDue := true }

/-- The state with the executing strand flushed and the commit counted; its stores are not yet handed over. -/
def State.flushMe (s : State) : State :=
  if s.me.ckptDue || s.me.st == .waiting .retry then s.modMe Strand.flushed
  else (s.modMe Strand.flushed).count s.cur.1 11 1

section
variable {s : State}

theorem State.onlyStrand_flushMe (s : State) : OnlyStrand s s.flushMe := by
  unfold State.flushMe
  split
  · exact s.onlyStrand_modMe _
  · exact s.onlyStrand_modMe_count _ _ _

theorem State.flushMe_me (hr : s.Runs) : s.flushMe.me = s.me.flushed := by
  unfold State.flushMe
  split
  · exact State.me_modMe hr _
  · rw [State.me_count, State.me_modMe hr]

theorem State.runs_flushMe (hr : s.Runs) : s.flushMe.Runs := by
  have hmove := State.runs_modMe hr Strand.flushed
  unfold State.flushMe
  split
  · exact hmove
  · unfold State.Runs
    rw [State.count_cur, State.strand?_count]
    exact hmove

theorem State.keptLoads_eq_mapWhere (s : State) (c own : Nat) (region : List BufStore) : s.keptLoads c own region =
    if region.isEmpty then s.loads
    else mapWhere (fun l => l.core == c && l.own == own) (fun l => l.keepOwn region) s.loads := by
  simp [State.keptLoads, mapWhere]

/-- A commit flushes the strand, keeps for its loads what the merge drops, and hands the merged stores over. -/
theorem State.commit_of_unwatched (hr : s.Runs) (hw : s.Unwatched) : ∃ ws n,
    s.commit = { s.flushMe with loads := s.keptLoads s.cur.1 s.me.own s.me.region, writes := s.writes ++ ws, fresh := n } ∧
      s.Hands s.cur.1 s.cur.2 false (mergeRegion s.me.region) ws := by
  have honly := s.onlyStrand_flushMe
  have hloads : s.flushMe.loads = s.loads := (congrArg State.loads honly.rest :)
  have hwrites : s.flushMe.writes = s.writes := (congrArg State.writes honly.rest :)
  have hfresh : s.flushMe.fresh = s.fresh := (congrArg State.fresh honly.rest :)
  have hcommit : s.commit = if s.me.region.isEmpty then s.flushMe else
      (mergeRegion s.me.region).foldl (fun t b => t.handOver s.cur.1 s.cur.2 false b) { s.flushMe with
        loads := mapWhere (fun l => l.core == s.cur.1 && l.own == s.me.own) (fun l => l.keepOwn s.me.region)
          s.flushMe.loads } := by
    rw [State.flushMe, State.modMe, State.modStrand_some hr.me, State.commit, State.commitRegion, hr.me]
    rfl
  by_cases hempty : s.me.region.isEmpty
  case pos =>
    have hnil : s.me.region = [] := List.isEmpty_iff.mp hempty
    refine ⟨[], s.fresh, ?_, by rw [hnil]; exact ⟨rfl, by simp⟩⟩
    rw [hcommit, if_pos hempty, State.keptLoads_eq_mapWhere, if_pos hempty, List.append_nil, ← hloads, ← hwrites, ← hfresh]
  case neg =>
    obtain ⟨ws, n, hfold, -, hcells, hunit⟩ := State.foldl_handOver_of_unwatched s.cur.1 s.cur.2 false
      (mergeRegion s.me.region) (s := { s.flushMe with loads := s.keptLoads s.cur.1 s.me.own s.me.region }) (honly.unwatched hw)
    have hme : s.flushMe.strandAt s.cur.1 s.cur.2 = s.me.flushed := by
      rw [← honly.cur]
      exact State.flushMe_me hr
    refine ⟨ws, n, ?_, hcells, fun w hmem => ?_⟩
    · rw [State.keptLoads_eq_mapWhere, if_neg hempty] at hfold ⊢
      rw [hcommit, if_neg hempty, hloads, hfold, hwrites]
    · obtain ⟨hcore, hslot, hsid, hrel, hlock, hid⟩ := hunit w hmem
      exact ⟨hcore, hslot, hsid.trans (congrArg Strand.sid hme :), hrel, hlock, hfresh ▸ hid⟩

/-- The commit of the region of the strand that executes (04 R103). -/
theorem State.commitDone_commit (hr : s.Runs) (hw : s.Unwatched) : CommitDone s s.commit := by
  obtain ⟨ws, n, hcommit, hcells, hunit⟩ := State.commit_of_unwatched hr hw
  have honly := s.onlyStrand_flushMe
  have hme : s.commit.me = s.me.flushed := by
    rw [hcommit]
    exact State.flushMe_me hr
  constructor
  case region => rw [hme]; rfl
  case sdig => rw [hme]; rfl
  case due => rw [hme]; rfl
  case writes =>
    refine ⟨ws, by rw [hcommit], ?_, hunit⟩
    exact hcells
  case loads => rw [hcommit]
  case strand => rw [hme]; rfl
  case rest =>
    calc { s.commit with cores := s.cores, writes := s.writes, loads := s.loads, fresh := s.fresh }
        = { { s.flushMe with cores := s.cores } with writes := s.writes, loads := s.loads, fresh := s.fresh } := by rw [hcommit]
      _ = s := by rw [honly.rest]
  case bytes => rw [hcommit]; exact honly.bytes
  case cores =>
    rw [hcommit]
    exact ⟨honly.cores.others, honly.cores.mine, honly.cores.slots⟩

theorem State.runs_commit_of_unwatched (hr : s.Runs) (hw : s.Unwatched) : s.commit.Runs := by
  obtain ⟨ws, n, hcommit, -⟩ := State.commit_of_unwatched hr hw
  rw [hcommit]
  exact State.runs_flushMe hr

theorem State.commit_me_of_unwatched (hr : s.Runs) (hw : s.Unwatched) : s.commit.me = s.me.flushed := by
  obtain ⟨ws, n, hcommit, -⟩ := State.commit_of_unwatched hr hw
  rw [hcommit]
  exact State.flushMe_me hr

end

/-! ### What only the executing strand changes before and after a commit -/

theorem CommitDone.cur {s t : State} (h : CommitDone s t) : t.cur = s.cur := (congrArg State.cur h.rest :)

theorem CoresKept.trans {s u t : State} (hcur : u.cur = s.cur) (h : CoresKept s u) (k : CoresKept u t) : CoresKept s t := by
  refine ⟨fun c hc => ?_, ?_, fun n hn => ?_⟩
  · rw [k.others c (hcur ▸ hc), h.others c hc]
  · rw [← h.mine, ← k.mine]
  · have := k.slots n (hcur ▸ hn)
    rw [hcur] at this
    rw [this, h.slots n hn]

/-- The start of an instruction before a commit. -/
theorem CommitDone.of_entered {s t : State} (hr : s.Runs) (maj fn : Nat) (o : Ops)
    (h : CommitDone (s.modMe fun p => p.entered maj fn o) t) : CommitDone s t := by
  have honly := s.onlyStrand_modMe fun p => p.entered maj fn o
  have hframe := s.me.entered_frame maj fn o
  rw [← State.me_modMe hr fun p => p.entered maj fn o] at hframe
  generalize s.modMe (fun p => p.entered maj fn o) = u at h honly hframe
  have hregion : u.me.region = s.me.region := (congrArg Strand.region hframe :)
  have hsdig : u.me.sdig = s.me.sdig := (congrArg Strand.sdig hframe :)
  have hown : u.me.own = s.me.own := (congrArg Strand.own hframe :)
  have hsid : u.me.sid = s.me.sid := (congrArg Strand.sid hframe :)
  have hloads : u.loads = s.loads := (congrArg State.loads honly.rest :)
  have hwrites : u.writes = s.writes := (congrArg State.writes honly.rest :)
  have hfresh : u.fresh = s.fresh := (congrArg State.fresh honly.rest :)
  obtain ⟨ws, happend, hcells, hunit⟩ := h.writes
  constructor
  case region => exact h.region
  case sdig => rw [h.sdig, hsdig, hregion]
  case due => exact h.due
  case writes =>
    rw [hwrites] at happend
    rw [hregion] at hcells
    rw [honly.cur, hsid, hfresh] at hunit
    exact ⟨ws, happend, hcells, hunit⟩
  case loads => rw [h.loads, State.keptLoads, State.keptLoads, hloads, honly.cur, hown, hregion]
  case strand => rw [← hframe, ← h.strand]
  case rest => rw [← honly.rest, ← h.rest]
  case bytes => exact fun l => (h.bytes l).trans (honly.bytes l)
  case cores => exact honly.cores.trans honly.cur h.cores

/-- Retirement after a commit. -/
theorem CommitDone.retired {s u t : State} {pc : Word} (h : CommitDone s u) (k : OnlyStrand u t) (hme : t.me = u.me.retireTo pc) :
    CommitDone s t := by
  have hloads : t.loads = u.loads := (congrArg State.loads k.rest :)
  have hwrites : t.writes = u.writes := (congrArg State.writes k.rest :)
  constructor
  case region => rw [hme]; exact h.region
  case sdig => rw [hme]; exact h.sdig
  case due => rw [hme]; exact h.due
  case writes => rw [hwrites]; exact h.writes
  case loads => rw [hloads]; exact h.loads
  case strand => rw [hme]; exact h.strand
  case rest =>
    calc { t with cores := s.cores, writes := s.writes, loads := s.loads, fresh := s.fresh }
        = { { t with cores := u.cores } with cores := s.cores, writes := s.writes, loads := s.loads, fresh := s.fresh } := rfl
      _ = s := by rw [k.rest, h.rest]
  case bytes => exact fun l => (k.bytes l).trans (h.bytes l)
  case cores => exact h.cores.trans h.cur k.cores

end Sys2Proof.Machine
end

section
/-! What system registers read as (02 R44 to R47), and the checks of privilege and index before them (01 R38). -/

namespace Sys2Proof.Machine

/-! ### The manual's tables (02 Table 02.3; 07 Tables 07.6 and 07.7) -/

section
variable {s : State} {i : Nat}

theorem phaseCode_eq_num (p : Phase) : phaseCode p = p.num := by cases p <;> rfl

theorem State.strandReg_of_rule {n : Nat} {v : Word} (h : strandRegRule s n = some v) : s.strandReg n i = v := by
  unfold strandRegRule at h
  split at h
  case h_11 =>
    rw [← Option.some.inj h]
    change s.me.sword s.cur.2 = _
    unfold Strand.sword
    cases s.me.region <;> cases s.me.kind <;> rfl
  case h_16 => exact nomatch h
  all_goals exact Option.some.inj h

theorem State.readSys_of_supervisorRule {num : BitVec 12} {w : Word} (h : supervisorRule s i num.toNat = some w) :
    s.readSys num i = w := by
  have hnum : num = BitVec.ofNat 12 num.toNat := by simp
  rw [hnum]
  generalize num.toNat = n at h ⊢
  unfold supervisorRule at h
  split at h
  case h_5 =>
    rw [phaseCode_eq_num] at h
    exact Option.some.inj h
  case h_6 =>
    rw [← Option.some.inj h]
    change toWord s.myCore.fdis.toNat = _
    cases s.myCore.fdis <;> rfl
  case h_21 => exact nomatch h
  all_goals exact Option.some.inj h

theorem strandRegRule_number {n : Nat} {v : Word} (h : strandRegRule s n = some v) : n < 0xF := by
  by_contra hn
  unfold strandRegRule at h
  split at h
  case h_16 => exact nomatch h
  all_goals omega

/-- No strand register but ESEQ has an index (02 Table 02.3). -/
theorem sysReg_index_of_lt : ∀ n, n < 0xF → (sysReg (BitVec.ofNat 12 n)).map (·.index) = some none := by decide

end

/-! ### The start of an instruction leaves the registers -/

theorem OnlyStrand.exists_cores {s u : State} (h : OnlyStrand s u) : ∃ cs, u = { s with cores := cs } :=
  ⟨u.cores, by conv_rhs => rw [← h.rest]⟩

theorem OnlyStrand.supervisorRule_eq {s u : State} (h : OnlyStrand s u) (i n : Nat) :
    supervisorRule u i n = supervisorRule s i n := by
  obtain ⟨cs, rfl⟩ := h.exists_cores
  unfold supervisorRule
  rw [← h.cores.mine]
  rfl

section
variable {s : State} (hr : s.Runs) (maj fn : Nat) (o : Ops)
include hr

/-- Of the strand, an instruction's start changes only what no register shows. -/
theorem State.entered_me_frame : { (s.modMe fun p => p.entered maj fn o).me with
    word := s.me.word, latches := s.me.latches, ckpt := s.me.ckpt, ckptDue := s.me.ckptDue, retired := s.me.retired,
    firstStore := s.me.firstStore } = s.me := by
  rw [State.me_modMe hr]
  exact s.me.entered_frame maj fn o

theorem strandRegRule_entered (n : Nat) : strandRegRule (s.modMe fun p => p.entered maj fn o) n = strandRegRule s n := by
  have h := s.onlyStrand_modMe fun p => p.entered maj fn o
  have hframe := State.entered_me_frame hr maj fn o
  obtain ⟨cs, hu⟩ := h.exists_cores
  rw [hu] at h hframe ⊢
  unfold strandRegRule
  rw [← hframe, ← h.cores.mine]
  rfl

theorem State.sysNamed_entered (num : BitVec 12) (i : Nat) :
    (s.modMe fun p => p.entered maj fn o).sysNamed num i = s.sysNamed num i := by
  have h := s.onlyStrand_modMe fun p => p.entered maj fn o
  have hframe := State.entered_me_frame hr maj fn o
  obtain ⟨cs, hu⟩ := h.exists_cores
  rw [hu] at hframe ⊢
  unfold State.sysNamed
  rw [← hframe]
  rfl

theorem IndexOf.entered {num : BitVec 12} {i : Nat} (h : IndexOf s num o i) :
    IndexOf (s.modMe fun p => p.entered maj fn o) num o i := by
  unfold IndexOf
  rw [State.val_entered hr, State.sysNamed_entered hr]
  exact h

end

/-! ### Privilege and index (01 R38 steps 7 and 9) -/

theorem State.supInstr_of_allowed {s : State} {need : Bool} (h : need = true → s.me.sup = true) (maj fn : Nat) (o : Ops)
    (body : State → State) : s.supInstr need maj fn o body = s.instr maj fn o body := by
  have hraises : ¬ (need && !s.me.sup) = true := by simpa using h
  rw [State.supInstr, if_neg hraises]

/-- A strand without SUP at an instruction that needs it (02 R44). -/
theorem State.Calm.supInstr_traps {s : State} (hc : s.Calm) (hreg : s.me.region = []) (hsup : s.me.sup = false) {need : Bool}
    (hneed : need = true) (maj fn : Nat) (o : Ops) (body : State → State) :
    Trapped s (s.supInstr need maj fn o body) (s.faultHere maj fn o .prot 0 0) := by
  have hraise := (hc.runs.begun_startInstr maj fn o.len).raise hc hreg .prot 0 0
  rw [State.startInstr_word hc.runs] at hraise
  rw [State.supInstr, hneed, hsup]
  exact hraise

theorem IndexOf.withIndex {s : State} {num : BitVec 12} {o : Ops} {i : Nat} (h : IndexOf s num o i)
    (go : Nat → State → State) : s.withIndex num o go = go i s := by
  obtain ⟨r, hr, ⟨hnone, rfl⟩ | ⟨hsome, rfl, hrange, hnamed⟩⟩ := h
  · simp only [State.withIndex, hr, hnone, Option.isNone_none, if_true]
  · have hix : r.index.isNone = false := Option.isNone_eq_false_iff.mpr (Option.isSome_iff_ne_none.mpr hsome)
    simp only [State.withIndex, hr, hix, hrange, hnamed, Bool.not_true, Bool.false_eq_true, if_false]

theorem indexOf_zero_of_strandReg {s : State} {num : BitVec 12} {o : Ops} {v : Word}
    (h : strandRegRule s num.toNat = some v) : IndexOf s num o 0 := by
  have hix := sysReg_index_of_lt num.toNat (strandRegRule_number h)
  rw [BitVec.ofNat_toNat, BitVec.setWidth_eq] at hix
  obtain ⟨r, hr, hnone⟩ := Option.map_eq_some_iff.mp hix
  exact ⟨r, hr, .inl ⟨hnone, rfl⟩⟩

/-! ### RDSYS -/

/-- RDSYS at an index that the register accepts, by a strand with the privilege it needs (02 R44 to R47). -/
theorem rdsys_done {s : State} {num : BitVec 12} {o : Ops} {i : Nat} (hc : s.Calm) (ho : o.regsExist s.me.nreg = true)
    (hsup : 0x100 ≤ num.toNat → s.me.sup = true) (hi : IndexOf s num o i) : ∃ t, exec (.rdsys num o) s = .next t ∧
      ScalarDone s t o o.d ((s.modMe fun p => p.entered 0x25 0x00 o).readSys num i) := by
  refine ⟨_, rfl, ?_⟩
  have hread := State.instr_putD hc 0x25 0x00 ho fun u => u.readSys num i
  rw [State.instr_ok hc.runs _ _ ho] at hread
  rw [State.supInstr_of_allowed fun h => hsup (of_decide_eq_true h), State.instr_ok hc.runs _ _ ho,
    (hi.entered hc.runs 0x25 0x00 o).withIndex]
  exact hread

theorem rdsys_strandReg {s : State} {num : BitVec 12} {o : Ops} {v : Word} (hc : s.Calm)
    (hv : strandRegRule s num.toNat = some v) (ho : o.regsExist s.me.nreg = true) :
    ∃ t, exec (.rdsys num o) s = .next t ∧ ScalarDone s t o o.d v := by
  have hlt : num.toNat < 0x100 := (strandRegRule_number hv).trans (by decide)
  have hread : (s.modMe fun p => p.entered 0x25 0x00 o).readSys num 0 = v := by
    rw [State.readSys, if_pos hlt]
    exact State.strandReg_of_rule ((strandRegRule_entered hc.runs 0x25 0x00 o _).trans hv)
  rw [← hread]
  exact rdsys_done hc ho (fun h => absurd h (Nat.not_le.mpr hlt)) (indexOf_zero_of_strandReg hv)

/-- ESEQ of a class (02 Table 02.3). -/
theorem rdsys_eseq {s : State} {o : Ops} (hc : s.Calm) (ho : o.regsExist s.me.nreg = true) (hi : (s.val o.a).toNat < 8) :
    ∃ t, exec (.rdsys 0x010 o) s = .next t ∧ ScalarDone s t o o.d (vget 0 s.myCore.eseq (s.val o.a).toNat) := by
  have hix : IndexOf s 0x010 o (s.val o.a).toNat :=
    ⟨_, rfl, .inr ⟨nofun, rfl, by simpa [SysReg.inRange] using hi, rfl⟩⟩
  have hread : (s.modMe fun p => p.entered 0x25 0x00 o).readSys 0x010 (s.val o.a).toNat =
      vget 0 s.myCore.eseq (s.val o.a).toNat := by
    rw [← (s.onlyStrand_modMe fun p => p.entered 0x25 0x00 o).cores.mine]
    rfl
  rw [← hread]
  exact rdsys_done hc ho (fun h => absurd h (by decide)) hix

/-- A supervisor register (02 R46, R47). -/
theorem rdsys_supervisor {s : State} {num : BitVec 12} {o : Ops} {i : Nat} (hc : s.Calm) (hsup : s.me.sup = true)
    (hi : IndexOf s num o i) (ho : o.regsExist s.me.nreg = true) :
    ∃ t v, exec (.rdsys num o) s = .next t ∧ ScalarDone s t o o.d v ∧
      v = ((s.startInstr 0x25 0 o.len).modMe fun p => { p with latches := p.latched o }).readSys num i ∧
      ∀ w, supervisorRule s i num.toNat = some w → v = w := by
  obtain ⟨t, ht, hdone⟩ := rdsys_done hc ho (fun _ => hsup) hi
  refine ⟨t, _, ht, hdone, ?_, fun w hw => State.readSys_of_supervisorRule ?_⟩
  · rw [State.startInstr, State.modMe_modMe]
    rfl
  · rw [(s.onlyStrand_modMe _).supervisorRule_eq, hw]

end Sys2Proof.Machine
end

section
/-! WRSYS (02 R46; 03 R71, R72; 04 R103; 07 R195, R197; 10 R283). -/

namespace Sys2Proof.Machine

/-! ### A change of the strand beside a retirement -/

theorem State.count_modMe {s : State} (hr : s.Runs) (n k : Nat) (f : Strand → Strand) :
    (s.count s.cur.1 n k).modMe f = (s.modMe f).count s.cur.1 n k := by
  have hme : (s.count s.cur.1 n k).strand? s.cur.1 s.cur.2 = some s.me := (s.strand?_count ..).trans hr.me
  rw [State.modMe, State.modMe, State.count_cur, State.modStrand_some hme, State.modStrand_some hr.me]
  unfold State.putStrand State.count
  rw [State.modCore_modCore, State.modCore_modCore]
  congr 1
  funext u
  have hslots (l) : Core.counting { u with slots := l } = u.counting := rfl
  cases h : u.counting <;> simp only [hslots, h] <;> rfl

theorem State.modMe_congr {s : State} (hr : s.Runs) {f g : Strand → Strand} (h : f s.me = g s.me) :
    s.modMe f = s.modMe g := by
  rw [State.modMe, State.modMe, State.modStrand_some hr.me, State.modStrand_some hr.me, h]

/-- An instruction that retires and writes no g register. -/
theorem State.Calm.retires {s : State} (hc : s.Calm) (maj fn : Nat) {o : Ops} (ho : o.regsExist s.me.nreg = true) :
    ScalarDone s ((s.modMe fun p => (p.entered maj fn o).retire).count s.cur.1 2 1) o .none 0 := by
  have ho' : { o with d := .none }.regsExist s.me.nreg = true := by
    simp only [Ops.regsExist, Dst.inFile, Bool.and_eq_true] at ho ⊢
    obtain ⟨⟨⟨-, ha⟩, hb⟩, hc⟩ := ho
    exact ⟨⟨⟨trivial, ha⟩, hb⟩, hc⟩
  have hdone := State.instr_putD hc maj fn ho' fun _ => 0
  have hr := State.runs_modMe hc.runs fun p => p.entered maj fn o
  have hq := hc.quiet.modMe hc.runs (f := fun p => p.entered maj fn o) (by simp)
  rw [State.instr_ok hc.runs maj fn ho'] at hdone
  change ScalarDone s ((s.modMe fun p => p.entered maj fn o).putD { o with d := .none } 0) _ _ _ at hdone
  rw [State.putD_quiet hr hq, State.modMe_modMe, State.modMe_cur] at hdone
  exact ⟨hdone.wrote, hdone.retired, hdone.strand, hdone.only, hdone.perf⟩

theorem State.retire_quiet {s : State} (hr : s.Runs) (hq : s.me.stepping = false) :
    s.retire = (s.modMe Strand.retire).count s.cur.1 2 1 := by
  have hsame : s.modMe (fun p => p.retireTo (s.me.pc + toWord s.me.word.bytes)) = s.modMe Strand.retire :=
    State.modMe_congr hr rfl
  rw [State.retire, State.retireTo_quiet hr hq, hsame]

/-- An instruction that also changes the strand: with the change undone it retires and writes no g register. -/
theorem State.Calm.retires_changed {s : State} (hc : s.Calm) (maj fn : Nat) {o : Ops} (ho : o.regsExist s.me.nreg = true)
    {g undo : Strand → Strand} (hstep : (g s.me).stepping = s.me.stepping)
    (hundo : undo (g s.me).retire = (s.me.entered maj fn o).retire) :
    (s.modMe g).retire.me = (g s.me).retire ∧ ScalarDone s ((s.modMe g).retire.modMe undo) o .none 0 := by
  have hr := State.runs_modMe hc.runs g
  have hretire : (s.modMe g).retire = (s.modMe fun p => (g p).retire).count s.cur.1 2 1 := by
    rw [State.retire_quiet hr, State.modMe_modMe, State.modMe_cur]
    rw [State.me_modMe hc.runs, hstep]
    exact hc.quiet.step
  rw [hretire]
  constructor
  · rw [State.me_count, State.me_modMe hc.runs]
  · have hcount := State.count_modMe (State.runs_modMe hc.runs fun p => (g p).retire) 2 1 undo
    have hsame : s.modMe (fun p => undo (g p).retire) = s.modMe fun p => (p.entered maj fn o).retire :=
      State.modMe_congr hc.runs hundo
    rw [State.modMe_cur, State.modMe_modMe, hsame] at hcount
    rw [hcount]
    exact hc.retires maj fn ho

/-! ### Privilege and index -/

/-- WRSYS at an index that the register accepts, by a strand with the privilege it needs: a supervisor register is written
after a commit (04 R103). -/
theorem exec_wrsys_of_indexOf {s : State} {num : BitVec 12} {o : Ops} {i : Nat} (hc : s.Calm)
    (ho : o.regsExist s.me.nreg = true) (hsup : 0x100 ≤ num.toNat → s.me.sup = true) (hi : IndexOf s num o i) :
    exec (.wrsys num o) s = .next (((if 0x100 ≤ num.toNat then (s.modMe fun p => p.entered 0x26 0x00 o).commit
        else s.modMe fun p => p.entered 0x26 0x00 o).writeSys num i (s.val o.b)).retire) := by
  change execWrsys num o s = _
  rw [execWrsys, State.supInstr_of_allowed fun h => hsup (of_decide_eq_true h), State.instr_ok hc.runs _ _ ho,
    (hi.entered hc.runs 0x26 0x00 o).withIndex, State.val_entered hc.runs]

/-! ### FLAGS and RMODE (03 R71, R72) -/

theorem wrsys_flags {s : State} {o : Ops} (hc : s.Calm) (ho : o.regsExist s.me.nreg = true) :
    ∃ t, exec (.wrsys 0x007 o) s = .next t ∧ t.me.flags = (s.val o.b).setWidth 16 &&& 0x7F ∧
      ScalarDone s (t.modMe fun p => { p with flags := s.me.flags }) o .none 0 := by
  have hix : IndexOf s 0x007 o 0 := ⟨_, rfl, .inl ⟨rfl, rfl⟩⟩
  have hexec := exec_wrsys_of_indexOf hc ho (fun h => absurd h (by decide)) hix
  have hflags : (s.me.entered 0x26 0x00 o).flags = s.me.flags := (congrArg Strand.flags (s.me.entered_frame 0x26 0x00 o) :)
  obtain ⟨hme, hdone⟩ := hc.retires_changed 0x26 0x00 ho
    (g := fun p => { p.entered 0x26 0x00 o with flags := (s.val o.b).setWidth 16 &&& 0x7F })
    (undo := fun p => { p with flags := s.me.flags }) (s.me.entered_stepping 0x26 0x00 o) (by rw [← hflags]; rfl)
  rw [if_neg (by decide)] at hexec
  change _ = Host.Outcome.next ((State.modMe (s.modMe _) _).retire) at hexec
  rw [State.modMe_modMe] at hexec
  exact ⟨_, hexec, by rw [hme]; rfl, hdone⟩

theorem wrsys_rmode {s : State} {o : Ops} (hc : s.Calm) (ho : o.regsExist s.me.nreg = true) :
    ∃ t, exec (.wrsys 0x008 o) s = .next t ∧
      t.me.rmode = (if (s.val o.b).toNat ≤ 4 then (s.val o.b).setWidth 3 else s.me.rmode) ∧
      ScalarDone s (t.modMe fun p => { p with rmode := s.me.rmode }) o .none 0 := by
  have hix : IndexOf s 0x008 o 0 := ⟨_, rfl, .inl ⟨rfl, rfl⟩⟩
  have hexec := exec_wrsys_of_indexOf hc ho (fun h => absurd h (by decide)) hix
  have hrmode : (s.me.entered 0x26 0x00 o).rmode = s.me.rmode := (congrArg Strand.rmode (s.me.entered_frame 0x26 0x00 o) :)
  rw [if_neg (by decide)] at hexec
  change _ = Host.Outcome.next ((if s.val o.b ≤ 4 then State.modMe (s.modMe _) _ else s.modMe _).retire) at hexec
  have hle : s.val o.b ≤ 4 ↔ (s.val o.b).toNat ≤ 4 := BitVec.le_def
  by_cases hv : (s.val o.b).toNat ≤ 4
  · obtain ⟨hme, hdone⟩ := hc.retires_changed 0x26 0x00 ho
      (g := fun p => { p.entered 0x26 0x00 o with rmode := (s.val o.b).setWidth 3 })
      (undo := fun p => { p with rmode := s.me.rmode }) (s.me.entered_stepping 0x26 0x00 o) (by rw [← hrmode]; rfl)
    rw [if_pos (hle.mpr hv), State.modMe_modMe] at hexec
    exact ⟨_, hexec, by rw [hme, if_pos hv]; rfl, hdone⟩
  · obtain ⟨hme, hdone⟩ := hc.retires_changed 0x26 0x00 ho (g := fun p => p.entered 0x26 0x00 o)
      (undo := fun p => { p with rmode := s.me.rmode }) (s.me.entered_stepping 0x26 0x00 o) (by rw [← hrmode]; rfl)
    rw [if_neg (mt hle.mp hv)] at hexec
    exact ⟨_, hexec, by rw [hme, if_neg hv]; exact hrmode, hdone⟩

/-! ### Supervisor registers (07 R195, R197; 10 R283) -/

theorem vget_ite_vset {α : Type} {n : Nat} {p : Prop} [Decidable p] (d : α) (w : Vector α n) (i : Nat) (a : α) {j : Nat}
    (hj : j < n) : vget d (if p then vset w i a else w) j = if p ∧ j = i then a else vget d w j := by
  by_cases h : p <;> simp only [h, if_true, if_false, true_and, false_and]
  exact vget_vset_any d w i j a hj

/-- A core with what WRSYS may write of it as another core holds it. -/
def Core.withSupervisor (k j : Core) : Core := { k with cbd := j.cbd, savea := j.savea, fdis := j.fdis }

/-- `x` follows `u` by a write of a supervisor register: of the executing core only what such a write reaches has changed, and
nothing else but the clusters. -/
structure SupervisorWritten (u x : State) : Prop where
  rest : { x with cores := u.cores, clusters := u.clusters } = u
  others : ∀ c, c ≠ u.cur.1 → x.core c = u.core c
  mine : x.myCore.withSupervisor u.myCore = u.myCore

section
variable (u : State) (n i : Nat) (v : Word)

theorem State.modMyCore_myCore (f : Core → Core) : (u.modMyCore f).myCore = f u.myCore := u.modCore_core u.cur.1 f

/-- What a write of a supervisor register makes of the executing core. -/
theorem State.writeNear_myCore : (u.writeNear n i v).myCore = { u.myCore with
    cbd := if n = 0x100 ∧ (u.myCore.cb (i / 4)).claims = (u.myCore.cb (i / 4)).fills then
      vset u.myCore.cbd (i / 4) ((u.myCore.cb (i / 4)).setWord (i % 4) v) else u.myCore.cbd
    savea := if n = 0x103 ∧ u.myCore.ctxv = false ∧ inHbm (wfld v 22 33 * 2 ^ 22) (2 ^ 22) = true then
      toWord (wfld v 22 33 * 2 ^ 22) else u.myCore.savea
    fdis := if n = 0x109 then v.getLsbD 0 else u.myCore.fdis } := by
  unfold State.writeNear
  split
  case h_1 =>
    dsimp only
    split
    · next hidle =>
      simp only [hidle, true_and, reduceIte]
      exact u.modMyCore_myCore _
    · next hclaimed =>
      simp only [hclaimed, and_false, reduceIte]
      rfl
  case h_2 =>
    dsimp only
    have hkeeps : (u.myCore.ctxv || !inHbm (wfld v 22 33 * 2 ^ 22) (2 ^ 22)) = true ↔
        ¬ (u.myCore.ctxv = false ∧ inHbm (wfld v 22 33 * 2 ^ 22) (2 ^ 22) = true) := by
      cases u.myCore.ctxv <;> cases inHbm (wfld v 22 33 * 2 ^ 22) (2 ^ 22) <;> decide
    split
    · next hkept =>
      rw [if_neg fun h => hkeeps.mp hkept h.2]
      rfl
    · next hwritten =>
      rw [if_pos ⟨rfl, not_not.mp (mt hkeeps.mpr hwritten)⟩]
      exact u.modMyCore_myCore _
  case h_3 => exact u.modMyCore_myCore _
  case h_4 => dsimp only; split <;> rfl
  case h_5 h100 h103 h109 _ =>
    rw [if_neg h109, if_neg fun h => h103 h.1, if_neg fun h => h100 h.1]

theorem State.writeNear_clusters : (u.writeNear n i v).clusters =
    if n = 0x201 ∧ (u.clu (coreClu u.cur.1)).mailbox = [] then
      (u.modClu (coreClu u.cur.1) fun k => { k with tree := vset k.tree i (v &&& 0x7FFFF) }).clusters
    else u.clusters := by
  unfold State.writeNear
  split
  case h_1 => dsimp only; split <;> rfl
  case h_2 => dsimp only; split <;> rfl
  case h_3 => rfl
  case h_4 =>
    dsimp only
    split
    · next hempty => rw [if_pos ⟨rfl, List.isEmpty_iff.mp hempty⟩]
    · next hfull => rw [if_neg fun h => hfull (List.isEmpty_iff.mpr h.2)]
  case h_5 h201 => rw [if_neg fun h => h201 h.1]

theorem State.writeNear_cb {j : Nat} (hj : j < 16) : (u.writeNear n i v).myCore.cb j =
    if n = 0x100 ∧ j = i / 4 ∧ (u.myCore.cb j).claims = (u.myCore.cb j).fills then (u.myCore.cb j).setWord (i % 4) v
    else u.myCore.cb j := by
  rw [State.writeNear_myCore]
  refine (vget_ite_vset _ _ _ _ hj).trans ?_
  by_cases hji : j = i / 4
  · subst hji
    simp only [and_true, true_and]
    rfl
  · simp only [hji, false_and, and_false, if_false]
    rfl

theorem State.writeNear_clu : (u.writeNear n i v).clu (coreClu u.cur.1) = { u.clu (coreClu u.cur.1) with
    tree := if n = 0x201 ∧ (u.clu (coreClu u.cur.1)).mailbox = [] then
      vset (u.clu (coreClu u.cur.1)).tree i (v &&& 0x7FFFF) else (u.clu (coreClu u.cur.1)).tree } := by
  rw [State.clu, State.writeNear_clusters]
  split
  · exact u.modClu_clu _ _
  · rfl

theorem State.writeNear_tree {j : Nat} (hj : j < 5) : vget 0 ((u.writeNear n i v).clu (coreClu u.cur.1)).tree j =
    if n = 0x201 ∧ (u.clu (coreClu u.cur.1)).mailbox = [] ∧ j = i then v &&& 0x7FFFF
    else vget 0 (u.clu (coreClu u.cur.1)).tree j := by
  rw [State.writeNear_clu]
  refine (vget_ite_vset _ _ _ _ hj).trans ?_
  simp only [and_assoc]

theorem State.writeNear_clu_ne {k : Nat} (hk : k ≠ coreClu u.cur.1) : (u.writeNear n i v).clu k = u.clu k := by
  rw [State.clu, State.writeNear_clusters]
  split
  · exact u.modClu_clu_ne _ hk
  · rfl

theorem State.writeSys_of_supervisor {num : BitVec 12} (h : 0x100 ≤ num.toNat) :
    u.writeSys num i v = u.writeNear num.toNat i v := by
  unfold State.writeSys
  split
  case h_3 => rfl
  all_goals omega

theorem State.supervisorWritten_writeNear : SupervisorWritten u (u.writeNear n i v) := by
  have hmine : (u.writeNear n i v).myCore.withSupervisor u.myCore = u.myCore := by
    rw [State.writeNear_myCore]
    rfl
  suffices hkept : { u.writeNear n i v with cores := u.cores, clusters := u.clusters } = u ∧
      ∀ c, c ≠ u.cur.1 → (u.writeNear n i v).core c = u.core c from ⟨hkept.1, hkept.2, hmine⟩
  have hcore (f : Core → Core) : { u.modMyCore f with cores := u.cores, clusters := u.clusters } = u ∧
      ∀ c, c ≠ u.cur.1 → (u.modMyCore f).core c = u.core c := ⟨rfl, fun c hc => State.modCore_core_ne u f hc⟩
  have hnone : { u with cores := u.cores, clusters := u.clusters } = u ∧ ∀ c, c ≠ u.cur.1 → u.core c = u.core c :=
    ⟨rfl, fun _ _ => rfl⟩
  unfold State.writeNear
  split
  case h_1 =>
    dsimp only
    split
    · exact hcore _
    · exact hnone
  case h_2 =>
    dsimp only
    split
    · exact hnone
    · exact hcore _
  case h_3 => exact hcore _
  case h_4 =>
    dsimp only
    split
    · exact ⟨rfl, fun _ _ => rfl⟩
    · exact hnone
  case h_5 => exact hnone

end

section
variable {s u x t : State}

theorem SupervisorWritten.cur (h : SupervisorWritten u x) : x.cur = u.cur := (congrArg State.cur h.rest :)

theorem SupervisorWritten.strand? (h : SupervisorWritten u x) (c n : Nat) : x.strand? c n = u.strand? c n := by
  by_cases hc : c = u.cur.1
  · have hslots : x.myCore.slots = u.myCore.slots := (congrArg Core.slots h.mine :)
    rw [State.myCore, State.myCore, h.cur, ← hc] at hslots
    rw [State.strand?, State.strand?, hslots]
  · rw [State.strand?, State.strand?, h.others c hc]

theorem SupervisorWritten.me (h : SupervisorWritten u x) : x.me = u.me := by
  rw [State.me, State.me, State.strandAt, State.strandAt, h.strand?, h.cur]

theorem SupervisorWritten.runs (h : SupervisorWritten u x) (hr : u.Runs) : x.Runs := by
  rw [State.Runs, h.strand?, h.cur]
  exact hr

theorem State.withSupervisor_core (t s : State) (c : Nat) :
    (t.withSupervisor s).core c = (t.modMyCore (·.withSupervisor s.myCore)).core c := rfl

theorem State.withSupervisor_strand? (t s : State) (c n : Nat) : (t.withSupervisor s).strand? c n = t.strand? c n :=
  State.strand?_modCore (s := t) (f := (·.withSupervisor s.myCore)) (fun _ => rfl) c n

theorem State.withSupervisor_me (t s : State) : (t.withSupervisor s).me = t.me := by
  rw [State.me, State.me, State.strandAt, State.strandAt, State.withSupervisor_strand?]
  rfl

/-- With what a write of a supervisor register may reach put back, what follows it changes only the strand. -/
theorem SupervisorWritten.onlyStrand (h : SupervisorWritten u x) (hs : CommitDone s u) (k : OnlyStrand x t) :
    OnlyStrand u (t.withSupervisor s) := by
  have hcur : t.cur = u.cur := k.cur.trans h.cur
  have hclusters : u.clusters = s.clusters := (congrArg State.clusters hs.rest :)
  constructor
  case rest =>
    calc { t.withSupervisor s with cores := u.cores }
        = { { t with cores := x.cores } with cores := u.cores, clusters := s.clusters } := rfl
      _ = u := by rw [k.rest, ← hclusters, h.rest]
  case bytes =>
    have hmem : x.mem = u.mem := (congrArg State.mem h.rest :)
    intro l
    rw [← hmem]
    exact k.bytes l
  case cores =>
    refine ⟨fun c hc => ?_, ?_, fun n hn => ?_⟩
    · rw [State.withSupervisor_core, State.modMyCore, State.modCore_core_ne t _ (hcur ▸ hc), k.cores.others c (h.cur ▸ hc),
        h.others c hc]
    · have hsame (c : Core) : c.withSupervisor s.myCore = c.withSupervisor u.myCore := by
        rw [← hs.cores.mine]
        rfl
      have ht : (t.withSupervisor s).myCore = t.myCore.withSupervisor s.myCore :=
        t.modMyCore_myCore (·.withSupervisor s.myCore)
      rw [ht, hsame]
      calc { t.myCore.withSupervisor u.myCore with slots := u.myCore.slots, perf := u.myCore.perf }
          = { ({ t.myCore with slots := x.myCore.slots, perf := x.myCore.perf } : Core).withSupervisor u.myCore with
              slots := u.myCore.slots, perf := u.myCore.perf } := rfl
        _ = u.myCore := by rw [k.cores.mine, h.mine]
    · rw [State.withSupervisor_strand?, ← h.strand?, ← h.cur, k.cores.slots n (h.cur ▸ hn)]

end

/-! ### WRSYS of a supervisor register -/

/-- The state in which WRSYS writes a supervisor register: its region is committed. -/
def State.committedAt (s : State) (maj fn : Nat) (o : Ops) : State := (s.modMe fun p => p.entered maj fn o).commit

section
variable {s : State} (hr : s.Runs) (hw : s.Unwatched) (maj fn : Nat) (o : Ops)
include hr hw

theorem State.commitDone_committedAt : CommitDone s (s.committedAt maj fn o) :=
  (State.commitDone_commit (State.runs_modMe hr _) ((s.onlyStrand_modMe _).unwatched hw)).of_entered hr maj fn o

theorem State.committedAt_me : (s.committedAt maj fn o).me = (s.me.entered maj fn o).flushed := by
  rw [State.committedAt, State.commit_me_of_unwatched (State.runs_modMe hr _) ((s.onlyStrand_modMe _).unwatched hw),
    State.me_modMe hr]

theorem State.runs_committedAt : (s.committedAt maj fn o).Runs :=
  State.runs_commit_of_unwatched (State.runs_modMe hr _) ((s.onlyStrand_modMe _).unwatched hw)

/-- Retirement after a write of a supervisor register. -/
theorem State.committedAt_writes (hq : s.me.stepping = false) {x : State} (hx : SupervisorWritten (s.committedAt maj fn o) x) :
    OnlyStrand x x.retire ∧ CommittedAnd s (x.retire.withSupervisor s) o := by
  have hdone := State.commitDone_committedAt hr hw maj fn o
  have hume := State.committedAt_me hr hw maj fn o
  have hxr := hx.runs (State.runs_committedAt hr hw maj fn o)
  have hxq : x.me.stepping = false := by
    rw [hx.me, hume]
    exact (s.me.entered_stepping maj fn o).trans hq
  have honly : OnlyStrand x x.retire := by
    rw [State.retire_quiet hxr hxq]
    exact x.onlyStrand_modMe_count _ _ _
  have hme : (x.retire.withSupervisor s).me = (s.me.entered maj fn o).flushed.retire := by
    rw [State.withSupervisor_me, State.retire_quiet hxr hxq, State.me_count, State.me_modMe hxr, hx.me, hume]
  refine ⟨honly, hdone.retired (hx.onlyStrand hdone honly) (by rw [hme, hume]; rfl), fun n _ => ?_, ?_, ?_⟩
  · rw [hme]
    exact congrArg (vget 0 · n) (s.me.entered_g maj fn o)
  · rw [hme]
    change (s.me.entered maj fn o).pc + toWord (s.me.entered maj fn o).word.bytes = _
    rw [Strand.entered_pc, Strand.entered_word, lenCode_bytes]
  · rw [hme]
    rfl

end

/-- FDIS, TLBTREE, SAVEA and CBD take what their tables let them; every other write is discarded. -/
theorem wrsys_supervisor {s : State} {num : BitVec 12} {o : Ops} {i : Nat} (hc : s.Calm) (hw : s.Unwatched)
    (hsup : s.me.sup = true) (hnum : 0x100 ≤ num.toNat) (hi : IndexOf s num o i) (ho : o.regsExist s.me.nreg = true) :
    ∃ t, exec (.wrsys num o) s = .next t ∧ CommittedAnd s (t.withSupervisor s) o ∧
      t.myCore.fdis = (if num = 0x109 then (s.val o.b).getLsbD 0 else s.myCore.fdis) ∧
      (∀ n, n < 5 → vget 0 (t.clu (coreClu s.cur.1)).tree n =
        if num = 0x201 ∧ (s.clu (coreClu s.cur.1)).mailbox = [] ∧ n = i then s.val o.b &&& 0x7FFFF
        else vget 0 (s.clu (coreClu s.cur.1)).tree n) ∧
      { t.clu (coreClu s.cur.1) with tree := (s.clu (coreClu s.cur.1)).tree } = s.clu (coreClu s.cur.1) ∧
      (∀ k, k ≠ coreClu s.cur.1 → t.clu k = s.clu k) ∧
      t.myCore.savea = (if num = 0x103 ∧ s.myCore.ctxv = false ∧ inHbm (wfld (s.val o.b) 22 33 * 2 ^ 22) (2 ^ 22) = true then
        toWord (wfld (s.val o.b) 22 33 * 2 ^ 22) else s.myCore.savea) ∧
      ∀ n, n < 16 → t.myCore.cb n =
        if num = 0x100 ∧ n = i / 4 ∧ (s.myCore.cb n).claims = (s.myCore.cb n).fills then
          (s.myCore.cb n).setWord (i % 4) (s.val o.b)
        else s.myCore.cb n := by
  have hexec := exec_wrsys_of_indexOf hc ho (fun _ => hsup) hi
  rw [if_pos hnum, ← State.committedAt, State.writeSys_of_supervisor _ _ _ hnum] at hexec
  have hdone := State.commitDone_committedAt hc.runs hw 0x26 0x00 o
  obtain ⟨honly, hcommitted⟩ := State.committedAt_writes hc.runs hw 0x26 0x00 o hc.quiet.step
    (State.supervisorWritten_writeNear (s.committedAt 0x26 0x00 o) num.toNat i (s.val o.b))
  generalize s.committedAt 0x26 0x00 o = u at *
  have hcur := hdone.cur
  have hclu : u.clu = s.clu := funext fun k => (congrArg (State.clu · k) hdone.rest :)
  have hctxv : u.myCore.ctxv = s.myCore.ctxv := (congrArg Core.ctxv hdone.cores.mine :)
  have hsavea : u.myCore.savea = s.myCore.savea := (congrArg Core.savea hdone.cores.mine :)
  have hfdis : u.myCore.fdis = s.myCore.fdis := (congrArg Core.fdis hdone.cores.mine :)
  have hcb (n : Nat) : u.myCore.cb n = s.myCore.cb n := (congrArg (Core.cb · n) hdone.cores.mine :)
  have hnumber (k : BitVec 12) : num.toNat = k.toNat ↔ num = k := BitVec.toNat_inj
  have h100 : num.toNat = 0x100 ↔ num = 0x100 := hnumber 0x100
  have h103 : num.toNat = 0x103 ↔ num = 0x103 := hnumber 0x103
  have h109 : num.toNat = 0x109 ↔ num = 0x109 := hnumber 0x109
  have h201 : num.toNat = 0x201 ↔ num = 0x201 := hnumber 0x201
  have hcore := u.writeNear_myCore num.toNat i (s.val o.b)
  generalize hx : u.writeNear num.toNat i (s.val o.b) = x at *
  have htclu (k : Nat) : x.retire.clu k = x.clu k := (congrArg (State.clu · k) honly.rest :)
  have hmine := honly.cores.mine
  refine ⟨_, hexec, hcommitted, ?_, fun n hn => ?_, ?_, fun k hk => ?_, ?_, fun n hn => ?_⟩
  · have ht : x.retire.myCore.fdis = x.myCore.fdis := (congrArg Core.fdis hmine :)
    rw [ht, hcore, ← hfdis]
    simp only [h109]
  · have htree := u.writeNear_tree num.toNat i (s.val o.b) hn
    rw [hx, hcur, hclu] at htree
    rw [htclu, htree]
    simp only [h201]
  · have hxclu := u.writeNear_clu num.toNat i (s.val o.b)
    rw [hx, hcur, hclu] at hxclu
    rw [htclu, hxclu]
  · rw [htclu, ← hx, u.writeNear_clu_ne _ _ _ (hcur ▸ hk), hclu]
  · have ht : x.retire.myCore.savea = x.myCore.savea := (congrArg Core.savea hmine :)
    rw [ht, hcore, ← hsavea, ← hctxv]
    simp only [h103]
  · have ht : x.retire.myCore.cb n = x.myCore.cb n := (congrArg (Core.cb · n) hmine :)
    rw [ht, ← hx, u.writeNear_cb _ _ _ hn, ← hcb]
    simp only [h100]

/-- Settles O7: every access is the instruction's start, the checks of its privilege and index, and one read or write of a
register, after a commit when WRSYS names a supervisor register. -/
theorem systemRegisters : Obligations.SystemRegisters :=
  ⟨fun _ _ _ _ hc hv ho => rdsys_strandReg hc hv ho,
    fun _ _ hc ho hi => rdsys_eseq hc ho hi,
    fun _ _ _ _ hc hsup _ hi ho => rdsys_supervisor hc hsup hi ho,
    fun _ _ _ _ hc hw hsup hnum hi ho => wrsys_supervisor hc hw hsup hnum hi ho,
    fun _ _ hc ho => ⟨wrsys_flags hc ho, wrsys_rmode hc ho⟩,
    fun _ _ _ hc hreg hsup hnum =>
      ⟨⟨_, rfl, hc.supInstr_traps hreg hsup (decide_eq_true hnum) _ _ _ _⟩,
        ⟨_, rfl, hc.supInstr_traps hreg hsup (decide_eq_true hnum) _ _ _ _⟩⟩⟩

end Sys2Proof.Machine
end

section
/-! The elements of a vector register (08 R205), and what a lane-by-lane operation with roundings gives (03 R78). -/

namespace Sys2Proof.Machine

/-! ### Bits of a number with a field replaced -/

theorem bitsOf_congr_mod {x y k i n : Nat} (h : x % 2 ^ k = y % 2 ^ k) (hin : i + n ≤ k) : bitsOf x i n = bitsOf y i n := by
  have field (z : Nat) : bitsOf z i n = z % 2 ^ k % 2 ^ (i + n) / 2 ^ i := by
    rw [Nat.mod_mod_of_dvd _ (pow_dvd_pow 2 hin), pow_add, Nat.mod_mul_right_div_self, bitsOf]
  rw [field, field, h]

theorem bitsOf_mod {x k i n : Nat} (hin : i + n ≤ k) : bitsOf (x % 2 ^ k) i n = bitsOf x i n :=
  bitsOf_congr_mod (Nat.mod_mod _ _) hin

theorem bitsOf_congr_div {x y k i n : Nat} (h : x / 2 ^ k = y / 2 ^ k) (hki : k ≤ i) : bitsOf x i n = bitsOf y i n := by
  have above (z : Nat) : z / 2 ^ i = z / 2 ^ k / 2 ^ (i - k) := by
    rw [Nat.div_div_eq_div_mul, ← pow_add, Nat.add_sub_cancel' hki]
  rw [bitsOf, bitsOf, above, above, h]

/-- A number in three parts: the bits above a field, the field, and the bits below it. -/
theorem eq_above_field_below (x k w : Nat) : x = (x / 2 ^ (k + w) * 2 ^ w + bitsOf x k w) * 2 ^ k + x % 2 ^ k := by
  have hfield : x / 2 ^ (k + w) * 2 ^ w + bitsOf x k w = x / 2 ^ k := by
    rw [bitsOf, pow_add, ← Nat.div_div_eq_div_mul, Nat.div_add_mod']
  rw [hfield, Nat.div_add_mod']

section
variable {h y l k w : Nat}

theorem parts_mod (hl : l < 2 ^ k) : ((h * 2 ^ w + y) * 2 ^ k + l) % 2 ^ k = l := by
  rw [Nat.mul_add_mod_self_right, Nat.mod_eq_of_lt hl]

theorem parts_div (hl : l < 2 ^ k) : ((h * 2 ^ w + y) * 2 ^ k + l) / 2 ^ k = h * 2 ^ w + y := by
  rw [Nat.add_comm, Nat.add_mul_div_right _ _ (by positivity), Nat.div_eq_of_lt hl, Nat.zero_add]

theorem parts_above (hl : l < 2 ^ k) (hy : y < 2 ^ w) : ((h * 2 ^ w + y) * 2 ^ k + l) / 2 ^ (k + w) = h := by
  rw [pow_add, ← Nat.div_div_eq_div_mul, parts_div hl, Nat.add_comm, Nat.add_mul_div_right _ _ (by positivity),
    Nat.div_eq_of_lt hy, Nat.zero_add]

theorem parts_field (hl : l < 2 ^ k) (hy : y < 2 ^ w) : bitsOf ((h * 2 ^ w + y) * 2 ^ k + l) k w = y := by
  rw [bitsOf, parts_div hl, Nat.mul_add_mod_self_right, Nat.mod_eq_of_lt hy]

end

/-! ### Elements and lanes -/

theorem elem_setElem {w e j : Nat} (v : VReg) (x : Nat) (hj : w * j + w ≤ 512) : elem w (setElem w v e x) j =
    bitsOf ((v.toNat / 2 ^ (w * e + w) * 2 ^ w + x % 2 ^ w) * 2 ^ (w * e) + v.toNat % 2 ^ (w * e)) (w * j) w := by
  have hnew : v.toNat - elem w v e * 2 ^ (w * e) + x % 2 ^ w * 2 ^ (w * e) =
      (v.toNat / 2 ^ (w * e + w) * 2 ^ w + x % 2 ^ w) * 2 ^ (w * e) + v.toNat % 2 ^ (w * e) := by
    have hparts := eq_above_field_below v.toNat (w * e) w
    rw [elem]
    rw [Nat.add_mul] at hparts ⊢
    omega
  rw [elem, setElem, hnew, BitVec.toNat_ofNat]
  exact (bitsOf_mod hj :)

theorem elem_setElem_same {w e : Nat} (v : VReg) (x : Nat) (he : w * e + w ≤ 512) :
    elem w (setElem w v e x) e = x % 2 ^ w := by
  rw [elem_setElem v x he]
  exact parts_field (Nat.mod_lt _ (by positivity)) (Nat.mod_lt _ (by positivity))

theorem elem_setElem_ne {w e j : Nat} (v : VReg) (x : Nat) (hj : w * j + w ≤ 512) (hne : j ≠ e) :
    elem w (setElem w v e x) j = elem w v j := by
  have hlow : v.toNat % 2 ^ (w * e) < 2 ^ (w * e) := Nat.mod_lt _ (by positivity)
  rw [elem_setElem v x hj, elem]
  rcases Nat.lt_or_gt_of_ne hne with hlt | hgt
  · exact bitsOf_congr_mod (parts_mod hlow) (by rw [← Nat.mul_succ]; exact Nat.mul_le_mul_left w hlt)
  · exact bitsOf_congr_div (parts_above hlow (Nat.mod_lt _ (by positivity)))
      (by rw [← Nat.mul_succ]; exact Nat.mul_le_mul_left w hgt)

theorem lane_eq_elem (v : VReg) (i : Nat) : lane v i = BitVec.ofNat 32 (elem 32 v i) := by
  apply BitVec.eq_of_toNat_eq
  rw [lane, BitVec.extractLsb'_toNat, Nat.shiftRight_eq_div_pow, elem, bitsOf, BitVec.toNat_ofNat, Nat.mod_mod]

/-! ### Roundings lane by lane (03 R78) -/

/-- The register and the rounding state once the enabled lanes below a number have each given an element, the first of them
element `off`. -/
def elemsBefore (mk : BitVec 16) (w off : Nat) (old : VReg) (f : Nat → FpAcc → Nat × FpAcc) (a : FpAcc) (n : Nat) :
    VReg × FpAcc :=
  (numsWhere n mk.getLsbD).foldl (fun r i => (setElem w r.1 (off + i) (f i r.2).1, (f i r.2).2)) (old, a)

section
variable (mk : BitVec 16) (w off : Nat) (old : VReg) (f : Nat → FpAcc → Nat × FpAcc) (a : FpAcc)

theorem elemsBefore_succ (n : Nat) : elemsBefore mk w off old f a (n + 1) =
    if mk.getLsbD n then
      (setElem w (elemsBefore mk w off old f a n).1 (off + n) (f n (elemsBefore mk w off old f a n).2).1,
        (f n (elemsBefore mk w off old f a n).2).2)
    else elemsBefore mk w off old f a n := by
  unfold elemsBefore numsWhere
  rw [List.range_succ, List.filter_append, List.foldl_append]
  by_cases hn : mk.getLsbD n <;> simp [hn]

theorem elemsBefore_acc (n : Nat) : (elemsBefore mk w off old f a n).2 = lanesBefore mk f a n := by
  induction n with
  | zero => rfl
  | succ n ih =>
    rw [elemsBefore_succ, lanesBefore, ← ih]
    split <;> rfl

theorem elem_elemsBefore {e : Nat} (he : w * e + w ≤ 512) (n : Nat) : elem w (elemsBefore mk w off old f a n).1 e =
    if off ≤ e ∧ e < off + n ∧ mk.getLsbD (e - off) then (f (e - off) (lanesBefore mk f a (e - off))).1 % 2 ^ w
    else elem w old e := by
  induction n with
  | zero =>
    rw [if_neg (by omega)]
    rfl
  | succ n ih =>
    rw [elemsBefore_succ, elemsBefore_acc]
    by_cases hen : e = off + n
    · subst hen
      rw [if_neg (by omega)] at ih
      simp only [Nat.add_sub_cancel_left, Nat.le_add_right, Nat.lt_add_one, Nat.add_lt_add_left, true_and]
      split
      · exact elem_setElem_same _ _ he
      · exact ih
    · have hlt : e < off + (n + 1) ↔ e < off + n := by omega
      simp only [hlt, ← ih]
      split
      · exact elem_setElem_ne _ _ he hen
      · rfl

end

theorem lanesBefore_map {α β : Type} (mk : BitVec 16) (g : α → β) (f : Nat → FpAcc → α × FpAcc) (a : FpAcc) (n : Nat) :
    lanesBefore mk (fun i t => (g (f i t).1, (f i t).2)) a n = lanesBefore mk f a n := by
  induction n with
  | zero => rfl
  | succ n ih => simp only [lanesBefore, ih]

section
variable (mk : BitVec 16) (old : VReg) (f : Nat → FpAcc → BitVec 32 × FpAcc) (a : FpAcc)

theorem fpLanes_eq_elemsBefore :
    fpLanes mk old f a = elemsBefore mk 32 0 old (fun i t => ((f i t).1.toNat, (f i t).2)) a 16 := by
  simp only [fpLanes, elemsBefore, enabled, Nat.zero_add]

theorem fpLanes_acc : (fpLanes mk old f a).2 = lanesBefore mk f a 16 := by
  rw [fpLanes_eq_elemsBefore, elemsBefore_acc, lanesBefore_map mk BitVec.toNat]

theorem lane_fpLanes {i : Nat} (hi : i < 16) : lane (fpLanes mk old f a).1 i =
    if mk.getLsbD i then (f i (lanesBefore mk f a i)).1 else lane old i := by
  rw [fpLanes_eq_elemsBefore, lane_eq_elem, elem_elemsBefore _ _ _ _ _ _ (by omega), lanesBefore_map mk BitVec.toNat,
    lane_eq_elem]
  simp only [Nat.zero_le, Nat.zero_add, Nat.sub_zero, hi, true_and, Nat.mod_eq_of_lt (BitVec.isLt _)]
  split
  · rw [BitVec.ofNat_toNat, BitVec.setWidth_eq]
  · rfl

end

end Sys2Proof.Machine
end

section
/-! What the instructions that write a register of the allotment leave of the state (04 R103; 07 R184, R186; 08 R206, R230):
one rule for each operation on the state. -/

namespace Sys2Proof.Machine

/-! ### Everything but the executing strand, its core's counters and registers, and the hold latches -/

theorem OnlyStrand.vectorCores {s t : State} (h : OnlyStrand s t) : VectorCores s t where
  others := h.cores.others
  mine := by rw [← h.cores.mine]
  slots n hn := by rw [h.cores.slots n hn]

theorem VectorCores.trans {s t u : State} (hcur : t.cur = s.cur) (h : VectorCores s t) (k : VectorCores t u) :
    VectorCores s u where
  others c hc := by rw [k.others c (hcur ▸ hc), h.others c hc]
  mine := by
    calc { u.myCore with slots := s.myCore.slots, perf := s.myCore.perf, vrf := s.myCore.vrf, masks := s.myCore.masks } =
          { { u.myCore with slots := t.myCore.slots, perf := t.myCore.perf, vrf := t.myCore.vrf, masks := t.myCore.masks } with
            slots := s.myCore.slots, perf := s.myCore.perf, vrf := s.myCore.vrf, masks := s.myCore.masks } := rfl
      _ = { t.myCore with
            slots := s.myCore.slots, perf := s.myCore.perf, vrf := s.myCore.vrf, masks := s.myCore.masks } := by rw [k.mine]
      _ = s.myCore := h.mine
  slots n hn := by
    have := k.slots n (hcur ▸ hn)
    rw [hcur] at this
    rw [this, h.slots n hn]

/-- The hold latches of a strand that keep a physical register are empty (07 R186). -/
def Strand.dropLatch (p : Strand) (n : Nat) : Strand :=
  { p with latches := p.latches.map fun x => if x == some n then none else x }

theorem tfind_map {α β : Type} (f : α → β) (n : Nat) : ∀ t : Tbl α,
    tfind (t.map fun e => (e.1, f e.2)) n = (tfind t n).map f
  | [] => rfl
  | (k, v) :: t => by
    simp only [List.map_cons, tfind]
    split
    · rfl
    · exact tfind_map f n t

section
variable (s : State) (n : Nat) (v : VReg)

theorem State.strand?_modMyCore_setV (c sl : Nat) : (s.modMyCore (·.setV n v)).strand? c sl =
    if c = s.cur.1 then (s.strand? c sl).map (·.dropLatch n) else s.strand? c sl := by
  unfold State.strand? State.modMyCore
  split
  · subst_vars
    rw [State.modCore_core]
    exact tfind_map (Strand.dropLatch · n) sl _
  · rw [State.modCore_core_ne s _ ‹_›]

theorem State.modMyCore_setV_myCore : ∃ l, (s.modMyCore (·.setV n v)).myCore =
    { s.myCore with slots := l, vrf := tput s.myCore.vrf n v } :=
  ⟨_, s.modCore_core s.cur.1 _⟩

theorem State.vectorCores_modMyCore_setV : VectorCores s (s.modMyCore (·.setV n v)) where
  others c hc := s.modCore_core_ne _ hc
  mine := by
    obtain ⟨l, hl⟩ := s.modMyCore_setV_myCore n v
    rw [hl]
  slots m _ := by
    rw [s.strand?_modMyCore_setV, if_pos rfl, Option.map_map]
    rfl

end

theorem State.Runs.strand?_modMyCore_setV {s : State} (hr : s.Runs) (n : Nat) (v : VReg) :
    (s.modMyCore (·.setV n v)).strand? s.cur.1 s.cur.2 = some (s.me.dropLatch n) := by
  rw [State.strand?_modMyCore_setV, if_pos rfl, hr.me]
  rfl

/-! ### The rules -/

/-- `t` follows `s` within an instruction with lanes: the executing strand is `p`, the vector registers and the masks of its
core are `vrf` and `masks`, its counters have advanced by `add`, and nothing else but hold latches has changed. -/
structure VectorStep (s t : State) (p : Strand) (vrf : Tbl VReg) (masks : Vector (BitVec 16) 8) (add : List (Nat × Nat)) :
    Prop where
  runs : t.Runs
  me : t.me = p
  vrf : t.myCore.vrf = vrf
  masks : t.myCore.masks = masks
  rest : { t with cores := s.cores } = s
  cores : VectorCores s t
  perf : Counted s.myCore t.myCore add

section
variable {s t u : State} {p q : Strand} {vrf : Tbl VReg} {masks : Vector (BitVec 16) 8} {add l : List (Nat × Nat)}

theorem VectorStep.cur (h : VectorStep s t p vrf masks add) : t.cur = s.cur := (congrArg State.cur h.rest :)

theorem VectorStep.counting (h : VectorStep s t p vrf masks add) : t.myCore.counting = s.myCore.counting :=
  (congrArg Core.counting h.cores.mine :)

theorem VectorStep.quiet (h : VectorStep s t p vrf masks add) (hq : s.Quiet) (hp : p.stepping = s.me.stepping) : t.Quiet where
  watch := by
    have hwp : t.myCore.wp = s.myCore.wp := (congrArg Core.wp h.cores.mine :)
    rw [hwp]
    exact hq.watch
  step := by rw [h.me, hp, hq.step]

/-- What changes only the executing strand and its counters goes on within the instruction. -/
theorem VectorStep.onlyStrand (h : VectorStep s t p vrf masks add) (k : OnlyStrand t u) (hr : u.Runs) (hme : u.me = q)
    (hperf : Counted t.myCore u.myCore l) : VectorStep s u q vrf masks (add ++ l) where
  runs := hr
  me := hme
  vrf := (congrArg Core.vrf k.cores.mine :).trans h.vrf
  masks := (congrArg Core.masks k.cores.mine :).trans h.masks
  rest := by
    calc { u with cores := s.cores } = { { u with cores := t.cores } with cores := s.cores } := rfl
      _ = { t with cores := s.cores } := by rw [k.rest]
      _ = s := h.rest
  cores := h.cores.trans h.cur k.vectorCores
  perf := h.perf.trans hperf h.counting

theorem State.Runs.vectorStep_modMe (hr : s.Runs) (f : Strand → Strand) :
    VectorStep s (s.modMe f) (f s.me) s.myCore.vrf s.myCore.masks [] :=
  have h := s.onlyStrand_modMe f
  { runs := State.runs_modMe hr f
    me := State.me_modMe hr f
    vrf := (congrArg Core.vrf h.cores.mine :)
    masks := (congrArg Core.masks h.cores.mine :)
    rest := h.rest
    cores := h.vectorCores
    perf := s.counted_modMe f }

theorem VectorStep.modMe (h : VectorStep s t p vrf masks add) (f : Strand → Strand) :
    VectorStep s (t.modMe f) (f p) vrf masks add := by
  have := h.onlyStrand (t.onlyStrand_modMe f) (State.runs_modMe h.runs f) (State.me_modMe h.runs f) (t.counted_modMe f)
  rwa [h.me, List.append_nil] at this

theorem VectorStep.count (h : VectorStep s t p vrf masks add) (n k : Nat) :
    VectorStep s (t.count t.cur.1 n k) p vrf masks (add ++ [(n, k)]) := by
  refine h.onlyStrand (t.onlyStrand_count n k) ?_ ((t.me_count _ _ _).trans h.me) (t.counted_count n k)
  unfold State.Runs
  rw [State.count_cur, State.strand?_count]
  exact h.runs

/-- The undo copy of a physical register, made before its first write in the region (04 R103). -/
def Strand.keepV (p : Strand) (n : Nat) (old : VReg) : Strand :=
  { p with ckpt := { p.ckpt with vregs := if (tfind p.ckpt.vregs n).isSome then p.ckpt.vregs else tput p.ckpt.vregs n old } }

theorem VectorStep.undoV (h : VectorStep s t p vrf masks add) (hdue : p.ckptDue = false) (hroom : p.undoCount < 16) (n : Nat) :
    VectorStep s (t.undoV n) (p.keepV n (tget 0 vrf n)) vrf masks add := by
  have hundo : t.undoV n = if (tfind p.ckpt.vregs n).isSome then t
      else t.modMe fun q => { q with ckpt := { q.ckpt with vregs := tput q.ckpt.vregs n (tget 0 vrf n) } } := by
    unfold State.undoV
    simp only [h.me, hdue, Bool.false_or, Nat.not_le.mpr hroom, if_false, Core.vreg, h.vrf]
  rw [hundo, Strand.keepV]
  split
  · exact h
  · exact h.modMe _

theorem VectorStep.setV (h : VectorStep s t p vrf masks add) (hq : t.Quiet) (i : Nat) (bytes : List Nat) (v : VReg) :
    VectorStep s (t.setV i bytes v) ((p.dropLatch (p.phys i)).overBytes i bytes) (tput vrf (p.phys i) v) masks add := by
  have hsome := h.runs.strand?_modMyCore_setV (t.me.phys i) v
  have hruns : (t.modMyCore (·.setV (t.me.phys i) v)).Runs := Option.isSome_of_eq_some hsome
  obtain ⟨l, hl⟩ := t.modMyCore_setV_myCore (t.me.phys i) v
  have hwritten : VectorStep s (t.modMyCore (·.setV (t.me.phys i) v)) (p.dropLatch (p.phys i)) (tput vrf (p.phys i) v) masks add :=
    { runs := hruns
      me := by rw [State.me_of_strand? hsome, h.me]
      vrf := by rw [hl, h.vrf, h.me]
      masks := by rw [hl, h.masks]
      rest := h.rest
      cores := h.cores.trans h.cur (t.vectorCores_modMyCore_setV _ v)
      perf := by rw [hl]; exact h.perf }
  have hover := hwritten.modMe (·.overBytes i bytes)
  have hquiet : (t.modMyCore (·.setV (t.me.phys i) v)).Quiet :=
    ⟨by rw [hl]; exact hq.watch, by rw [State.me_of_strand? hsome]; exact hq.step⟩
  have hwatch := (hquiet.modMe hruns (f := (·.overBytes i bytes)) fun _ => rfl).watchV t.cur.2 (t.me.phys i)
  rw [State.modMe_cur] at hwatch
  rw [← hwatch] at hover
  exact hover

theorem VectorStep.retire (h : VectorStep s t p vrf masks add) (hq : p.stepping = false) :
    VectorStep s t.retire p.retire vrf masks (add ++ [(2, 1)]) := by
  have hretired := (h.modMe Strand.retire).count 2 1
  rwa [State.modMe_cur, ← State.retire_quiet h.runs (by rw [h.me, hq])] at hretired

theorem VectorStep.retireV (h : VectorStep s t p vrf masks add) (hq : p.stepping = false) (o : Ops) :
    VectorStep s (t.retireV o) (p.consume o.vsrcs).retire vrf masks
      (add ++ [(15, (o.vsrcs.filter fun i => (p.stream? i).isSome).length), (2, 1)]) := by
  have hconsumed := (h.modMe (·.consume o.vsrcs)).count 15 (o.vsrcs.filter fun i => (p.stream? i).isSome).length
  have hretired := hconsumed.retire hq
  rw [State.modMe_cur, List.append_assoc] at hretired
  rw [State.retireV, h.me]
  exact hretired

end

end Sys2Proof.Machine
end

section
/-! The start of an instruction with lanes (08 R230; 04 R103), its operands, and what is left once it has written its
destination and retired (08 R206). -/

namespace Sys2Proof.Machine

/-! ### Streams (08 R230, R232) -/

theorem State.streamUse_eq_ready_iff (s : State) (c : Nat) (p : Strand) (l : List Nat) :
    s.streamUse c p l = .ready ↔ ∀ i ∈ l, ∀ b, p.stream? i = some b → b.ahead.isEmpty = false := by
  induction l with
  | nil => simp [State.streamUse]
  | cons i l ih =>
    rw [List.forall_mem_cons, ← ih, State.streamUse]
    cases p.stream? i with
    | none => simp
    | some b =>
      simp only [Option.some.injEq, forall_eq']
      split
      · have hnone : b.ahead.isEmpty ≠ false := by simpa using ‹b.ahead.isEmpty = true›
        split <;> simp only [reduceCtorEq, hnone, false_and]
      · simp only [eq_false_of_ne_true ‹_›, true_and]

/-! ### The operands after the start -/

section
variable {s u : State} (h : Begun s u)
include h

theorem Begun.stream? (i : Nat) : u.me.stream? i = s.me.stream? i := (congrArg (Strand.stream? · i) h.strand :)

theorem Begun.phys (i : Nat) : u.me.phys i = s.me.phys i := (congrArg (Strand.phys · i) h.strand :)

theorem Begun.rmode : u.me.rmode = s.me.rmode := (congrArg Strand.rmode h.strand :)

theorem Begun.vreg (n : Nat) : u.myCore.vreg n = s.myCore.vreg n := (congrArg (Core.vreg · n) h.only.cores.mine :)

theorem Begun.maskOf (o : Ops) : u.maskOf o = s.maskOf o := (congrArg (Core.mask · o.m.toNat) h.only.cores.mine :)

theorem Begun.readV (i : Nat) : u.readV i = s.readV i := by
  simp only [State.readV, h.stream?, h.phys, h.vreg]

theorem Begun.vec (x : Src) : u.vec x = s.vec x := by
  cases x
  case v n => exact h.readV n.toNat
  all_goals exact congrArg (fun w : Word => ofLanes fun _ => w.setWidth 32) (h.val _)

theorem Begun.valF (x : Src) : u.valF x = s.valF x := by
  cases x <;> simp only [State.valF, h.val]

theorem Begun.vecF (x : Src) : u.vecF x = s.vecF x := by
  cases x
  case v n => exact h.readV n.toNat
  all_goals exact congrArg (fun w : BitVec 32 => ofLanes fun _ => w) (h.valF _)

theorem Begun.fpEnv (m : RMode) : u.fpEnv m = s.fpEnv m := by
  have hasid : u.me.asid = s.me.asid := (congrArg Strand.asid h.strand :)
  have hlh : u.me.lh = s.me.lh := (congrArg Strand.lh h.strand :)
  have hsid : u.me.sid = s.me.sid := (congrArg Strand.sid h.strand :)
  have hlaunch (a l : Nat) : u.launch a l = s.launch a l := (congrArg (State.launch · a l) h.only.rest :)
  simp only [State.fpEnv, State.seed, State.launchOf, hasid, hlh, hsid, hlaunch]

theorem Begun.streamsReady {o : Ops} (hs : StreamsReady s o) : StreamsReady u o where
  use := by
    have hready := hs.use
    rw [State.streamUse_eq_ready_iff] at hready ⊢
    simpa only [h.stream?] using hready
  bound n hn := by rw [h.stream?, hs.bound n hn]

end

/-! ### The start -/

theorem StreamsReady.writesBound {s : State} {o : Ops} (h : StreamsReady s o) : s.me.writesBound o.d = false := by
  unfold Strand.writesBound
  split
  · rw [h.bound _ ‹_›]
    rfl
  · rfl

/-- An instruction whose registers exist and whose stream operands are ready goes on to its own effect. -/
theorem State.Calm.vinstr_ready {s : State} (hc : s.Calm) (maj fn : Nat) {o : Ops} (ho : o.regsExist s.me.nreg = true)
    (hs : StreamsReady s o) (wr : Bool) (body : State → State) :
    s.vinstr maj fn o wr body = body (s.modMe fun p => p.entered maj fn o) := by
  have hready := (hc.runs.begun_entered maj fn o).streamsReady hs
  rw [State.vinstr, State.instr_ok hc.runs maj fn ho]
  simp only [hready.writesBound, hready.use, Bool.and_false, Bool.false_eq_true, if_false]

@[simp] theorem Strand.entered_ckptDue (p : Strand) (maj fn : Nat) (o : Ops) : (p.entered maj fn o).ckptDue = false := by
  unfold Strand.entered
  dsimp only
  split
  · rfl
  · exact eq_false_of_ne_true ‹_›

@[simp] theorem Strand.entered_ckpt (p : Strand) (maj fn : Nat) (o : Ops) : (p.entered maj fn o).ckpt = p.openCkpt := by
  unfold Strand.entered Strand.openCkpt
  dsimp only
  split <;> rfl

theorem UndoRoom.undoCount_entered {s : State} (h : UndoRoom s) (maj fn : Nat) (o : Ops) :
    (s.me.entered maj fn o).undoCount < 16 := by
  rw [Strand.undoCount, Strand.entered_ckpt, Strand.openCkpt]
  split
  · exact Nat.zero_lt_succ 15
  · exact h.resolve_left ‹_›

/-! ### The strand between the start and the retirement -/

/-- Of the strand, the start of an instruction with lanes and the writes of its results change only what instructions with
lanes update; the checkpoint has been taken when it was due, and may hold more undo copies. -/
structure WithinLanes (p q : Strand) (o : Ops) : Prop where
  strand : { q with word := p.word, latches := p.latches, ckpt := p.ckpt, ckptDue := p.ckptDue, retired := p.retired,
                    firstStore := p.firstStore, flags := p.flags, amax := p.amax, draw := p.draw, vboard := p.vboard } = p
  ckpt : { q.ckpt with vregs := p.openCkpt.vregs, masks := p.openCkpt.masks } = p.openCkpt
  retired : q.retired = if p.ckptDue then 0 else p.retired
  word : q.word.bytes = o.len.bytes

theorem Strand.withinLanes_entered (p : Strand) (maj fn : Nat) (o : Ops) : WithinLanes p (p.entered maj fn o) o where
  strand := (congrArg (fun r : Strand => { r with flags := p.flags, amax := p.amax, draw := p.draw, vboard := p.vboard })
    (p.entered_frame maj fn o) :)
  ckpt := by rw [Strand.entered_ckpt]
  retired := by
    unfold Strand.entered
    dsimp only
    split <;> rfl
  word := by rw [Strand.entered_word, lenCode_bytes]

/-- The rounding state of a strand. -/
def Strand.setFp (p : Strand) (a : FpAcc) : Strand := { p with draw := a.draw, flags := a.flags, amax := a.amax }

section
variable {p q : Strand} {o : Ops} (h : WithinLanes p q o)
include h

theorem WithinLanes.keepV (n : Nat) (old : VReg) : WithinLanes p (q.keepV n old) o := ⟨h.strand, h.ckpt, h.retired, h.word⟩

theorem WithinLanes.setFp (a : FpAcc) : WithinLanes p (q.setFp a) o := ⟨h.strand, h.ckpt, h.retired, h.word⟩

theorem WithinLanes.dropLatch (n : Nat) : WithinLanes p (q.dropLatch n) o := ⟨h.strand, h.ckpt, h.retired, h.word⟩

theorem WithinLanes.overBytes (i : Nat) (bytes : List Nat) : WithinLanes p (q.overBytes i bytes) o :=
  ⟨h.strand, h.ckpt, h.retired, h.word⟩

theorem WithinLanes.phys (i : Nat) : q.phys i = p.phys i := (congrArg (Strand.phys · i) h.strand :)

theorem WithinLanes.stepping : q.stepping = p.stepping := (congrArg Strand.stepping h.strand :)

theorem WithinLanes.streams : q.streams = p.streams := (congrArg Strand.streams h.strand :)

theorem WithinLanes.meKept : MeKept p
    { (q.consume o.vsrcs).retire with flags := p.flags, amax := p.amax, draw := p.draw } :=
  (congrArg (fun r : Strand =>
    { r with g := p.g, pc := p.pc, st := p.st, nextSeq := p.nextSeq, region := p.region, sdig := p.sdig,
             mustCommit := p.mustCommit, streams := p.streams, heldSince := p.heldSince, acqSeq := p.acqSeq,
             board := p.board }) h.strand :)

theorem WithinLanes.retiredAt : RetiredAt p (q.consume o.vsrcs).retire (p.pc + toWord o.len.bytes) where
  pc := by
    have hpc : q.pc = p.pc := (congrArg Strand.pc h.strand :)
    rw [← hpc, ← h.word]
    rfl
  ready := rfl
  count := by
    rw [← h.retired]
    rfl

end

/-! ### After the retirement -/

theorem Counted.perm {k j : Core} {l l' : List (Nat × Nat)} (h : Counted k j l) (hl : l.Perm l') : Counted k j l' :=
  fun n hn => by rw [h n hn, ((hl.filter _).map _).sum_eq]

section
variable {s t : State} {q : Strand} {o : Ops} {vrf : Tbl VReg} {masks : Vector (BitVec 16) 8}

/-- An instruction with lanes that has retired and writes no g register. -/
theorem VectorStep.vectorKept (h : VectorStep s t (q.consume o.vsrcs).retire vrf masks
      [(15, (o.vsrcs.filter fun i => (q.stream? i).isSome).length), (2, 1)]) (hq : WithinLanes s.me q o) :
    VectorKept s t o .none 0 { draw := q.draw, flags := q.flags, amax := q.amax } where
  g n _ := by
    have hg : q.g = s.me.g := (congrArg Strand.g hq.strand :)
    rw [h.me, Strand.getG, Strand.getG, ← hg]
    rfl
  fp := by
    rw [State.fpAcc, h.me]
    rfl
  strand := by
    rw [h.me]
    exact hq.meKept
  open_ := by
    rw [h.me]
    exact ⟨(congrArg Strand.region hq.strand :), (congrArg Strand.sdig hq.strand :), (congrArg Strand.nextSeq hq.strand :)⟩
  streams := by
    rw [h.me, ← hq.streams]
    rfl
  ckpt := by
    rw [h.me]
    exact hq.ckpt
  retired := by
    rw [h.me]
    exact hq.retiredAt
  rest := h.rest
  bytes l := (congrArg (fun x : State => memGet x.mem l) h.rest :)
  cores := h.cores
  perf := by
    have hperf := h.perf.perm (.swap _ _ _)
    simpa only [Strand.stream?, hq.streams] using hperf

/-- An instruction with lanes has written its destination register. -/
structure VectorWritten (s t : State) (o : Ops) (v : VReg) (fp : FpAcc) : Prop where
  written : t.myCore.vreg (s.me.phys o.d.ix) = v
  others : ∀ n, n ≠ s.me.phys o.d.ix → t.myCore.vreg n = s.myCore.vreg n
  masks : t.myCore.masks = s.myCore.masks
  undo : VectorUndo s t (s.me.phys o.d.ix)
  kept : VectorKept s t o .none 0 fp

end

/-- The strand once an instruction with lanes has started and has the undo copy of its destination (04 R103). -/
def State.openedFor (s : State) (maj fn : Nat) (o : Ops) : Strand :=
  (s.me.entered maj fn o).keepV (s.me.phys o.d.ix) (s.myCore.vreg (s.me.phys o.d.ix))

theorem State.withinLanes_openedFor (s : State) (maj fn : Nat) (o : Ops) : WithinLanes s.me (s.openedFor maj fn o) o :=
  (s.me.withinLanes_entered maj fn o).keepV _ _

/-- A checkpoint holds what an abort of the region gives back to a physical register and to the masks (04 R103). -/
structure UndoneTo (s : State) (k : Checkpoint) (n : Nat) : Prop where
  kept : tfind k.vregs n = some ((tfind s.me.openCkpt.vregs n).getD (s.myCore.vreg n))
  masks : k.masks = s.me.openCkpt.masks

theorem State.undoneTo_openedFor (s : State) (maj fn : Nat) (o : Ops) :
    UndoneTo s (s.openedFor maj fn o).ckpt (s.me.phys o.d.ix) := by
  unfold State.openedFor Strand.keepV
  rw [Strand.entered_ckpt]
  refine ⟨?_, rfl⟩
  cases hold : tfind s.me.openCkpt.vregs (s.me.phys o.d.ix) <;> simp [hold]

theorem State.undoD_eq_undoV {d : Dst} (hd : ∃ n, d = .v n) (s : State) : s.undoD d = s.undoV (s.me.phys d.ix) := by
  obtain ⟨n, rfl⟩ := hd
  rfl

/-- The start, with the undo copy of the destination (04 R103): no more than that has changed. -/
theorem State.Calm.opens {s : State} (hc : s.Calm) (hroom : UndoRoom s) (maj fn : Nat) {o : Ops} (hd : ∃ n, o.d = .v n) :
    VectorStep s ((s.modMe fun p => p.entered maj fn o).undoD o.d) (s.openedFor maj fn o) s.myCore.vrf s.myCore.masks [] := by
  rw [State.undoD_eq_undoV hd, (hc.runs.begun_entered maj fn o).phys]
  exact (hc.runs.vectorStep_modMe fun p => p.entered maj fn o).undoV (s.me.entered_ckptDue maj fn o)
    (hroom.undoCount_entered maj fn o) (s.me.phys o.d.ix)

/-- The write of the destination and the retirement. -/
theorem VectorStep.writes {s x : State} {q : Strand} {o : Ops} (h : VectorStep s x q s.myCore.vrf s.myCore.masks [])
    (hc : s.Calm) (hq : WithinLanes s.me q o)
    (hundo : UndoneTo s q.ckpt (s.me.phys o.d.ix)) (bytes : List Nat) (v : VReg) :
    VectorWritten s ((x.setV o.d.ix bytes v).retireV o) o v { draw := q.draw, flags := q.flags, amax := q.amax } := by
  have hset := h.setV (h.quiet hc.quiet hq.stepping) o.d.ix bytes v
  have hin := (hq.dropLatch (q.phys o.d.ix)).overBytes o.d.ix bytes
  have hretired := hset.retireV (hin.stepping.trans hc.quiet.step) o
  rw [hq.phys] at hin hretired
  exact {
    written := by rw [Core.vreg, hretired.vrf, tget_tput_same]
    others := fun n hn => by rw [Core.vreg, hretired.vrf, tget_tput_ne _ _ _ hn, Core.vreg]
    masks := hretired.masks
    undo := ⟨by rw [hretired.me]; exact hundo.kept, by rw [hretired.me]; exact hundo.masks⟩
    kept := hretired.vectorKept hin }

end Sys2Proof.Machine
end

section
/-! The instructions that round each enabled lane in turn (03 R70 to R84; 08 R217, R219, R220, R223). -/

namespace Sys2Proof.Machine

/-! ### The rounding of one instruction -/

/-- The rounding of each lane by an instruction that rounds, from the state. -/
def roundFn (s : State) (i : Instr) : Nat → FpAcc → BitVec 32 × FpAcc :=
  ((roundRule s i).map (·.2)).getD fun _ a => (0, a)

theorem roundFn_of_roundRule {s : State} {i : Instr} {o : Ops} {f : Nat → FpAcc → BitVec 32 × FpAcc}
    (h : roundRule s i = some (o, f)) : roundFn s i = f := by
  rw [roundFn, h]
  rfl

/-- A rounding sees nothing of what the start of an instruction changes. -/
theorem Begun.roundFn {s u : State} (h : Begun s u) (i : Instr) : roundFn u i = roundFn s i := by
  have hrule : roundRule u i = roundRule s i := by
    unfold roundRule
    simp only [h.vec, h.vecF, h.fpEnv, h.rmode]
  rw [Machine.roundFn, Machine.roundFn, hrule]

/-- BSCALE APPLY chooses the value that it rounds: a NaN that is invalid, or the scaled lane (08 R223). -/
theorem exec_bscaleApply (r : RSel) (o : Ops) (s : State) : exec (.bscaleApply r o) s =
    .next (s.vinstr 0x63 0x03 o true fun u => u.putFpLanes o (roundFn u (.bscaleApply r o))) := by
  have hround (u : State) : (fun i t =>
      if (lane (u.vec o.b) i).toNat % 256 = 0xFF then (u.fpSel r).result (.nan, true) t
      else (u.fpSel r).result
        ((fv32 (lane (u.vec o.a) i)).scale (127 - (((lane (u.vec o.b) i).toNat % 256 : Nat) : Int)), false) t) =
      roundFn u (.bscaleApply r o) := by
    funext i t
    rw [← ite_apply, ← apply_ite]
    rfl
  simp only [← hround]
  rfl

/-- Every instruction that rounds checks its registers and its streams, and puts the roundings of its lanes. -/
theorem exec_of_roundRule {i : Instr} {s : State} {o : Ops} {f : Nat → FpAcc → BitVec 32 × FpAcc}
    (h : roundRule s i = some (o, f)) :
    ∃ maj fn, exec i s = .next (s.vinstr maj fn o true fun u => u.putFpLanes o (roundFn u i)) := by
  unfold roundRule at h
  split at h <;> cases h
  case h_12 => exact ⟨_, _, exec_bscaleApply _ _ s⟩
  all_goals exact ⟨_, _, rfl⟩

/-! ### What it leaves -/

theorem VectorStep.fpAcc_opened {s x : State} {maj fn : Nat} {o : Ops} {vrf : Tbl VReg} {masks : Vector (BitVec 16) 8}
    {add : List (Nat × Nat)} (h : VectorStep s x (s.openedFor maj fn o) vrf masks add) : x.fpAcc = s.fpAcc := by
  rw [State.fpAcc, h.me]
  exact (congrArg (fun p : Strand => ({ draw := p.draw, flags := p.flags, amax := p.amax } : FpAcc))
    (s.me.entered_frame maj fn o) :)

/-- The lanes that an instruction has rounded, with its FLAGS, AMAX and DRAW, once it has started. -/
theorem State.Calm.lanesDone_putFpLanes {s : State} (hc : s.Calm) (hroom : UndoRoom s) (maj fn : Nat) {o : Ops}
    (hd : ∃ n, o.d = .v n) (f : Nat → FpAcc → BitVec 32 × FpAcc) :
    LanesDone s ((s.modMe fun p => p.entered maj fn o).putFpLanes o f) o
      (fun k => (f k (lanesBefore (s.maskOf o) f s.fpAcc k)).1) (lanesBefore (s.maskOf o) f s.fpAcc 16) := by
  have hopen := hc.opens hroom maj fn hd
  have hin := s.withinLanes_openedFor maj fn o
  have hmask := (hc.runs.begun_entered maj fn o).maskOf o
  unfold State.putFpLanes
  dsimp only
  generalize (s.modMe fun p => p.entered maj fn o).undoD o.d = x at *
  have hold : x.myCore.vreg (x.me.phys o.d.ix) = s.myCore.vreg (s.me.phys o.d.ix) := by
    rw [Core.vreg, hopen.vrf, hopen.me, hin.phys]
    rfl
  rw [hmask, hold, hopen.fpAcc_opened]
  have hacc := fpLanes_acc (s.maskOf o) (s.myCore.vreg (s.me.phys o.d.ix)) f s.fpAcc
  have hlanes (k : Nat) (hk : k < 16) := lane_fpLanes (s.maskOf o) (s.myCore.vreg (s.me.phys o.d.ix)) f s.fpAcc hk
  generalize fpLanes (s.maskOf o) (s.myCore.vreg (s.me.phys o.d.ix)) f s.fpAcc = r at *
  have hwritten := (hopen.modMe (·.setFp r.2)).writes hc (hin.setFp r.2) (s.undoneTo_openedFor maj fn o)
    (laneBytes (enabled (s.maskOf o))) r.1
  rw [← hacc]
  exact {
    lanes := fun k hk => (congrArg (lane · k) hwritten.written).trans (hlanes k hk)
    others := hwritten.others
    masks := hwritten.masks
    undo := hwritten.undo
    kept := hwritten.kept }

/-- Settles O12: every rounding instruction is the start of an instruction with lanes and one pass over its enabled lanes,
each rounded from the rounding state that the lanes before it left. -/
theorem roundedLaneResults : Obligations.RoundedLaneResults := by
  unfold Obligations.RoundedLaneResults
  intro i s o f hc hrule ho hd hs hroom
  obtain ⟨maj, fn, hexec⟩ := exec_of_roundRule hrule
  refine ⟨_, hexec, ?_⟩
  rw [hc.vinstr_ready maj fn ho hs, (hc.runs.begun_entered maj fn o).roundFn, roundFn_of_roundRule hrule]
  exact hc.lanesDone_putFpLanes hroom maj fn hd f

end Sys2Proof.Machine
end

section
/-! The end of a context (18 R404): what a debugging facility, a trace and the Spine's completion records leave of the host's
events, and what the end itself leaves. -/

namespace Sys2Proof.Machine

/-! ### What leaves the events to the host and the cores as they were -/

/-- A fold of an operation that leaves a part of the state as it was leaves it so. -/
theorem foldl_keeps {σ α β : Type} (g : σ → β) (f : σ → α → σ) (hf : ∀ s a, g (f s a) = g s) (l : List α) (s : σ) :
    g (l.foldl f s) = g s := by
  induction l generalizing s with
  | nil => rfl
  | cons a l ih => exact (ih _).trans (hf s a)

@[simp] theorem State.poke_events (s : State) (cells : List Host.Cell) : (s.poke cells).events = s.events := rfl

@[simp] theorem State.poke_cores (s : State) (cells : List Host.Cell) : (s.poke cells).cores = s.cores := rfl

@[simp] theorem State.trace_events (s : State) (c : Nat) (r : TraceRec) : (s.trace c r).events = s.events := by
  unfold State.trace
  dsimp only
  split
  · rfl
  · split
    · rw [State.modCtx_events, State.poke_events]
    · rw [State.modCtx_events]

@[simp] theorem State.trace_cores (s : State) (c : Nat) (r : TraceRec) : (s.trace c r).cores = s.cores := by
  unfold State.trace
  dsimp only
  split
  · rfl
  · split
    · rw [State.modCtx_cores, State.poke_cores]
    · rw [State.modCtx_cores]

@[simp] theorem State.stopWhere_events (s : State) (c : Nat) (hit : Option Nat → Strand → Bool) :
    (s.stopWhere c hit).events = s.events :=
  foldl_keeps State.events _ (fun _ _ => State.trace_events _ _ _) _ _

@[simp] theorem State.settleStop_events (s : State) (c : Nat) : (s.settleStop c).events = s.events := by
  unfold State.settleStop
  dsimp only
  split
  · exact State.trace_events _ _ _
  · rfl

@[simp] theorem State.stopOwn_events (s : State) (c own : Nat) : (s.stopOwn c own).events = s.events :=
  (State.settleStop_events _ _).trans (State.stopWhere_events _ _ _)

@[simp] theorem State.stopCore_events (s : State) (c : Nat) : (s.stopCore c).events = s.events := by
  unfold State.stopCore
  dsimp only
  split
  · rfl
  · rw [State.settleStop_events, State.stopWhere_events]
    split <;> rfl

@[simp] theorem State.fire_events (s : State) (c i : Nat) (who : Option (Nat × Nat)) (sid pc : Word) (path : Nat) (what : Word) :
    (s.fire c i who sid pc path what).events = s.events := by
  have htrace : ∀ (t : State) (b : Prop) [Decidable b] (r : TraceRec), (if b then t else t.trace c r).events = t.events := by
    intro t b _ r
    split
    · rfl
    · exact State.trace_events _ _ _
  unfold State.fire
  dsimp only
  split
  · exact (State.stopOwn_events _ _ _).trans (htrace _ _ _)
  · exact (State.stopCore_events _ _).trans (htrace _ _ _)
  · exact htrace _ _ _

@[simp] theorem State.fireAll_events (s : State) (c : Nat) (p : WatchPt → Bool) (who : Option (Nat × Nat)) (sid pc : Word)
    (path : Nat) (what : Word) : (s.fireAll c p who sid pc path what).events = s.events := by
  refine foldl_keeps State.events _ (fun t i => ?_) _ _
  split
  · exact State.fire_events _ _ _ _ _ _ _ _
  · rfl

@[simp] theorem State.watchRange_events (s : State) (wr : Bool) (locs : List Nat) (who : Option (Nat × Nat)) (sid pc : Word)
    (path : Nat) : (s.watchRange wr locs who sid pc path).events = s.events :=
  foldl_keeps State.events _ (fun _ _ => State.fireAll_events _ _ _ _ _ _ _ _) _ _

@[simp] theorem State.replUnits_events (s : State) (agent c : Nat) (owner pc : Word) (reps : BitVec 48)
    (cells : List (Word × Host.Cell)) : (s.replUnits agent c owner pc reps cells).events = s.events := by
  unfold State.replUnits
  refine foldl_keeps State.events _ (fun _ _ => ?_) _ _
  rfl

@[simp] theorem State.spineWrite_events (s : State) (asid : Nat) (va : Word) (n v : Nat) :
    (s.spineWrite asid va n v).events = s.events := by
  unfold State.spineWrite State.ctxWrite State.writeBy
  dsimp only
  rw [State.replUnits_events, State.watchRange_events, State.poke_events]

/-! ### The packets of a context that ends (18 R404, R411) -/

@[simp] theorem State.modQueue_events (s : State) (q : Nat) (f : Queue → Queue) : (s.modQueue q f).events = s.events := by
  unfold State.modQueue
  split <;> rfl

@[simp] theorem State.completePacket_events (s : State) (x : Completion) : (s.completePacket x).events = s.events := by
  unfold State.completePacket
  split
  · rfl
  · dsimp only
    split <;> simp

theorem abandonRing_events (q code n : Nat) (s : State) : (abandonRing q code n s).events = s.events := by
  induction n generalizing s with
  | zero => rfl
  | succ n ih =>
    unfold abandonRing
    dsimp only
    split
    · rfl
    · split
      · rw [ih, State.completePacket_events, State.modQueue_events]
      · rfl

theorem State.abandonQueue_events (s : State) (asid code q : Nat) (x : Queue) :
    (s.abandonQueue asid code q x).events = s.events := by
  unfold State.abandonQueue
  dsimp only
  rw [abandonRing_events]
  exact foldl_keeps State.events _ (fun _ _ => State.completePacket_events _ _) _ _

/-- A context that ends is gone, and the host has its event. -/
theorem State.endContext_ends (s : State) (asid code : Nat) (sid : Word) :
    tfind (s.endContext asid code sid).ctxs asid = none ∧
      HostEvent.contextEnd asid (BitVec.ofNat 8 code) sid ∈ (s.endContext asid code sid).events := by
  refine ⟨tfind_tdel_same _ _, ?_⟩
  have hevents : (s.endContext asid code sid).events =
      s.events ++ [.contextEnd asid (BitVec.ofNat 8 code) sid] := by
    unfold State.endContext
    exact foldl_keeps State.events _ (fun t (e : Nat × Queue) => State.abandonQueue_events t asid code e.1 e.2) _ _
  rw [hevents]
  exact List.mem_append_right _ List.mem_cons_self

end Sys2Proof.Machine
end

section
/-! The strand in a slot (04 R103, R109; 15 R344): what a change of it, the commit of its region and a fault leave of the rest. -/

namespace Sys2Proof.Machine

/-! ### Every slot but one -/

theorem SlotsKept.trans {s u t : State} {c n : Nat} (h : SlotsKept s u c n) (k : SlotsKept u t c n) : SlotsKept s t c n where
  cores d hd := (k.cores d hd).trans (h.cores d hd)
  slots m hm := (k.slots m hm).trans (h.slots m hm)

theorem SlotsKept.of_cores {s t : State} (h : t.cores = s.cores) (c n : Nat) : SlotsKept s t c n where
  cores d _ := congrArg (tget Core.blank · d) h
  slots m _ := congrArg (fun l => tfind (tget Core.blank l c).slots m) h

theorem State.slotsKept_tick (s : State) (c n : Nat) : SlotsKept s s.tick c n := .of_cores s.tick_cores c n

/-- A change of a core that leaves every slot but one. -/
theorem State.slotsKept_modCore (s : State) (c n : Nat) (f : Core → Core)
    (h : ∀ m, m ≠ n → tfind (f (s.core c)).slots m = tfind (s.core c).slots m) : SlotsKept s (s.modCore c f) c n where
  cores _ hd := s.modCore_core_ne f hd
  slots m hm := by
    rw [State.strand?, State.modCore_core]
    exact h m hm

/-- A change of a core that puts a strand into one slot. -/
theorem State.slotsKept_modCore_tput {s : State} {c n : Nat} {f : Core → Core} {q : Strand}
    (h : (f (s.core c)).slots = tput (s.core c).slots n q) : SlotsKept s (s.modCore c f) c n :=
  s.slotsKept_modCore c n f fun _ hm => by rw [h, tfind_tput_ne _ _ hm]

theorem State.strand?_modCore_tput {s : State} {c n : Nat} {f : Core → Core} {q : Strand}
    (h : (f (s.core c)).slots = tput (s.core c).slots n q) : (s.modCore c f).strand? c n = some q := by
  rw [State.strand?, State.modCore_core, h, tfind_tput_same]

/-- A change of a core that leaves its slots. -/
theorem State.slotsKept_modCore_slots {s : State} {c : Nat} {f : Core → Core} (h : (f (s.core c)).slots = (s.core c).slots)
    (n : Nat) : SlotsKept s (s.modCore c f) c n :=
  s.slotsKept_modCore c n f fun _ _ => by rw [h]

theorem State.strand?_modCore_slots {s : State} {c : Nat} {f : Core → Core} (h : (f (s.core c)).slots = (s.core c).slots)
    (n : Nat) : (s.modCore c f).strand? c n = s.strand? c n := by
  rw [State.strand?, State.modCore_core, h]
  rfl

/-! ### The commit of the region of the strand in a slot (04 R103) -/

/-- The strand in a slot has been flushed: of its core only the slots and the counters have changed, its loads keep what the merge
drops, and its stores are writes on their way. -/
structure Flushed (s u : State) (c n : Nat) (p : Strand) : Prop where
  strand : u.strand? c n = some p.flushed
  core : { u.core c with slots := (s.core c).slots, perf := (s.core c).perf } = s.core c
  slots : SlotsKept s u c n
  loads : u.loads = s.keptLoads c p.own p.region
  rest : { u with cores := s.cores, writes := s.writes, loads := s.loads, fresh := s.fresh } = s

/-- The state with the strand in a slot flushed and the commit counted; its stores are not yet handed over. -/
def State.flushSlot (s : State) (c n : Nat) (p : Strand) : State :=
  if p.ckptDue || p.st == .waiting .retry then s.putStrand c n p.flushed else (s.putStrand c n p.flushed).count c 11 1

section
variable {s : State} {c n : Nat} {p : Strand}

theorem Core.counted_eq (k : Core) (v : Vector Word 16) :
    (if k.counting then { k with perf := v } else k) = { k with perf := if k.counting then v else k.perf } := by
  split <;> rfl

theorem State.flushSlot_eq (s : State) (c n : Nat) (p : Strand) :
    ∃ v : Core → Vector Word 16, s.flushSlot c n p =
      s.modCore c fun k => { k with slots := tput k.slots n p.flushed, perf := v k } := by
  unfold State.flushSlot
  split
  · exact ⟨Core.perf, rfl⟩
  · refine ⟨fun k => if k.counting then vset k.perf 11 (vget 0 k.perf 11 + toWord 1) else k.perf, ?_⟩
    rw [State.count, State.putStrand, State.modCore_modCore]
    exact congrArg (s.setCore c) (Core.counted_eq { s.core c with slots := tput (s.core c).slots n p.flushed } _)

/-- A commit flushes the strand, keeps for its loads what the merge drops, and hands the merged stores over. -/
theorem State.flushed_commitRegion (h : s.strand? c n = some p) (hw : s.Unwatched) : Flushed s (s.commitRegion c n) c n p := by
  obtain ⟨v, hflush⟩ := s.flushSlot_eq c n p
  have hcommit : s.commitRegion c n = if p.region.isEmpty then s.flushSlot c n p else
      (mergeRegion p.region).foldl (fun t b => t.handOver c n false b) { s.flushSlot c n p with
        loads := mapWhere (fun l => l.core == c && l.own == p.own) (fun l => l.keepOwn p.region)
          (s.flushSlot c n p).loads } := by
    rw [State.commitRegion, h]
    rfl
  have hunwatched : (s.flushSlot c n p).Unwatched := fun d i hi => by
    rw [hflush]
    by_cases hd : d = c
    · subst hd
      rw [State.modCore_core]
      exact hw d i hi
    · rw [State.modCore_core_ne _ _ hd]
      exact hw d i hi
  obtain ⟨ws, m, heq⟩ : ∃ ws m, s.commitRegion c n = { s.flushSlot c n p with
      loads := s.keptLoads c p.own p.region, writes := s.writes ++ ws, fresh := m } := by
    rw [hcommit, State.keptLoads_eq_mapWhere]
    split
    · exact ⟨[], s.fresh, by rw [hflush, List.append_nil]; rfl⟩
    · obtain ⟨ws, m, hfold, -, -⟩ := State.foldl_handOver_of_unwatched c n false (mergeRegion p.region)
        (s := { s.flushSlot c n p with
          loads := mapWhere (fun l => l.core == c && l.own == p.own) (fun l => l.keepOwn p.region)
            (s.flushSlot c n p).loads }) hunwatched
      exact ⟨ws, m, by rw [hfold, hflush]; rfl⟩
  have hcores : (s.commitRegion c n).cores = (s.flushSlot c n p).cores := by rw [heq]
  have hkept : SlotsKept (s.flushSlot c n p) (s.commitRegion c n) c n := .of_cores hcores c n
  have hcore : (s.commitRegion c n).core c = (s.flushSlot c n p).core c := congrArg (tget Core.blank · c) hcores
  refine ⟨?_, ?_, .trans ?_ hkept, ?_, ?_⟩
  · rw [State.strand?, hcore, hflush]
    exact State.strand?_modCore_tput rfl
  · rw [hcore, hflush, State.modCore_core]
  · rw [hflush]
    exact State.slotsKept_modCore_tput rfl
  · rw [heq]
  · rw [heq, hflush]
    rfl

theorem Flushed.memKept {u : State} (h : Flushed s u c n p) : MemKept s u :=
  fun l => (congrArg (fun t : State => memGet t.mem l) h.rest :)

/-! ### A fault of the strand in a slot (04 R109, R112) -/

/-- A fault with no step to report: the strand is FAULTED, and its slot is the last of those that wait for a holder. -/
theorem State.faultAt_of_strand (h : s.strand? c n = some p) (hq : p.stepping = false) (f : FaultRec) :
    s.faultAt c n f = s.modCore c fun k =>
      { k with slots := tput k.slots n { p with st := .faulted f, walk := none }, faultQ := k.faultQ ++ [n] } := by
  unfold State.faultAt
  rw [State.modStrand_some h, State.putStrand, State.modCore_modCore]
  refine State.reportStep_none fun q hs => ?_
  rw [State.strand?_modCore_tput rfl] at hs
  cases hs
  exact hq

end

end Sys2Proof.Machine
end

section
/-! Taking a fault (04 R109 to R112): which fault of a core is delivered next, the cause word, and the handler strand. -/

namespace Sys2Proof.Machine

/-! ### The cause word (04 Table 04.11) -/

theorem Code.num_lt (c : Code) : c.num < 256 := by cases c <;> decide

theorem FaultRec.cause_toNat (f : FaultRec) : f.cause.toNat = f.word.maj.toNat * 2 ^ 56 + f.word.fn.toNat * 2 ^ 50 +
    f.word.len.toNat * 2 ^ 48 + f.sub.toNat * 2 ^ 32 + f.deferred.toNat * 2 ^ 8 + f.code.num := by
  have hcode := f.code.num_lt
  have hdeferred := f.deferred.toNat_le
  rw [FaultRec.cause, BitVec.toNat_ofNat, Nat.mod_eq_of_lt (by omega)]

theorem FaultRec.cause_code (f : FaultRec) : f.cause.extractLsb' 0 8 = BitVec.ofNat 8 f.code.num := by
  apply BitVec.eq_of_toNat_eq
  rw [BitVec.extractLsb'_toNat, BitVec.toNat_ofNat, f.cause_toNat, Nat.shiftRight_eq_div_pow]
  omega

theorem FaultRec.cause_deferred (f : FaultRec) : f.cause.getLsbD 8 = f.deferred := by
  have hcode := f.code.num_lt
  have hdeferred : f.cause.toNat / 2 ^ 8 % 2 = f.deferred.toNat := by
    have := f.deferred.toNat_le
    rw [f.cause_toNat]
    omega
  rw [← BitVec.testBit_toNat, Nat.testBit_eq_decide_div_mod_eq, hdeferred]
  cases f.deferred <;> rfl

theorem FaultRec.cause_sub (f : FaultRec) : f.cause.extractLsb' 32 8 = f.sub := by
  have hcode := f.code.num_lt
  have hdeferred := f.deferred.toNat_le
  apply BitVec.eq_of_toNat_eq
  rw [BitVec.extractLsb'_toNat, f.cause_toNat, Nat.shiftRight_eq_div_pow]
  omega

theorem FaultRec.cause_word (f : FaultRec) : f.cause.extractLsb' 48 2 = f.word.len ∧ f.cause.extractLsb' 50 6 = f.word.fn ∧
    f.cause.extractLsb' 56 8 = f.word.maj := by
  have hcode := f.code.num_lt
  have hdeferred := f.deferred.toNat_le
  refine ⟨?_, ?_, ?_⟩ <;> apply BitVec.eq_of_toNat_eq <;>
    rw [BitVec.extractLsb'_toNat, f.cause_toNat, Nat.shiftRight_eq_div_pow] <;> omega

/-! ### The handler strand (04 R111, Table 04.10) -/

/-- The registers of the handler strand of a fault of a strand in a slot. -/
def handlerReg (p : Strand) (sl : Nat) (f : FaultRec) (n : Nat) : Word :=
  match n with
  | 0 => p.sid
  | 1 => f.cause
  | 2 => f.pc
  | 3 => f.addr
  | 4 => toWord ((p.fcnt + 1).toNat * 2 ^ 16 + sl)
  | _ => 0

theorem State.handlerStrand_g (s : State) (p : Strand) (sl : Nat) (f : FaultRec) {n : Nat} (hn : n < 16) :
    vget 0 (s.handlerStrand p sl f).g n = handlerReg p sl f n := by
  simp only [State.handlerStrand, Strand.setG, Strand.blank]
  match n with
  | 0 | 1 | 2 | 3 | 4 => simp [vget, vset, handlerReg]
  | n + 5 => simp [vget, vset, handlerReg, hn]

theorem State.handlerOf_handlerStrand (s : State) (p : Strand) (sl : Nat) (f : FaultRec) (own : Nat) :
    HandlerOf s p { s.handlerStrand p sl f with own := own } sl f := by
  have hg {n : Nat} (hn : n < 16) := s.handlerStrand_g p sl f hn
  have hcause : vget 0 (s.handlerStrand p sl f).g 1 = f.cause := hg (by decide)
  constructor
  case pc => rfl
  case sid => exact hg (by decide)
  case code => dsimp only [Strand.getG]; rw [hcause]; exact f.cause_code
  case deferred => dsimp only [Strand.getG]; rw [hcause]; exact f.cause_deferred
  case sub => dsimp only [Strand.getG]; rw [hcause]; exact f.cause_sub
  case word => dsimp only [Strand.getG]; rw [hcause]; exact f.cause_word
  case at_ => exact ⟨hg (n := 2) (by decide), hg (n := 3) (by decide)⟩
  case count => exact hg (n := 4) (by decide)
  case zero =>
    intro n h5 hn
    obtain ⟨m, rfl⟩ := Nat.exists_eq_add_of_le' h5
    exact hg hn
  case own => exact ⟨rfl, rfl, rfl, rfl, rfl, rfl, rfl⟩
  case fresh => exact ⟨rfl, rfl, rfl, rfl, rfl⟩

/-! ### The fault that is delivered next (04 R101, R112; log 28) -/

section
variable {s : State} {c sl : Nat} {p : Strand} {f : FaultRec}

theorem Handled.not_endsContext (h : Handled s p f) : s.endsContext p f = false := by
  have hentry : (s.launchOf p).fault ≠ 0 := h.entry
  simp only [State.endsContext, Bool.or_eq_false_iff, beq_eq_false_iff_ne]
  exact ⟨⟨h.code.2, h.kind⟩, hentry⟩

theorem endsContext_of_not_handled (hcode : f.code ≠ .replayDiverge) (h : ¬ Handled s p f) : s.endsContext p f = true := by
  by_contra hend
  simp only [State.endsContext, State.launchOf, Bool.or_eq_true, beq_iff_eq, not_or] at hend
  obtain ⟨⟨hreach, hkind⟩, hentry⟩ := hend
  exact h ⟨⟨hcode, hreach⟩, hkind, hentry⟩

theorem State.deliverable_of_faulted (hp : s.strand? c sl = some p) (hrun : p.stopped = false) (hst : p.st = .faulted f)
    (q : Strand → FaultRec → Bool) : s.deliverable c q sl = (f.code != .replayDiverge && q p f) := by
  simp [State.deliverable, hp, hrun, hst]

theorem Harmless.not_deliverable {n : Nat} (h : Harmless s c n) : s.deliverable c s.endsContext n = false := by
  unfold State.deliverable
  split
  case h_2 => rfl
  case h_1 q hq =>
    split
    case h_2 => exact Bool.and_false _
    case h_1 g hg =>
      rcases h q g hq hg with hstop | hcode | hhandled
      · simp [hstop]
      · simp [hcode]
      · simp [hhandled.not_endsContext]

/-- Of faults that handlers take, the oldest is next. -/
theorem State.nextFault_of_handled {rest : List Nat} (hq : (s.core c).faultQ = sl :: rest) (hp : s.strand? c sl = some p)
    (hrun : p.stopped = false) (hst : p.st = .faulted f) (h : Handled s p f) (hrest : ∀ n ∈ rest, Harmless s c n) :
    s.nextFault c = some sl := by
  have hnone : (sl :: rest).find? (s.deliverable c s.endsContext) = none := by
    refine List.find?_eq_none.mpr (List.forall_mem_cons.mpr ⟨?_, fun n hn => ?_⟩)
    · rw [State.deliverable_of_faulted hp hrun hst, h.not_endsContext, Bool.and_false]
      exact Bool.false_ne_true
    · rw [(hrest n hn).not_deliverable]
      exact Bool.false_ne_true
  have hhead : s.deliverable c (fun _ _ => true) sl = true := by
    simpa [State.deliverable_of_faulted hp hrun hst] using h.code.1
  rw [State.nextFault, hq]
  simp only [hnone]
  rw [List.find?_cons_of_pos hhead]

/-- A fault that ends its context is next, whatever handlers have still to take. -/
theorem State.nextFault_of_ending {before rest : List Nat} (hq : (s.core c).faultQ = before ++ sl :: rest)
    (hbefore : ∀ n ∈ before, Harmless s c n) (hp : s.strand? c sl = some p) (hrun : p.stopped = false)
    (hst : p.st = .faulted f) (hcode : f.code ≠ .replayDiverge) (hend : s.endsContext p f = true) :
    s.nextFault c = some sl := by
  have hnone : before.find? (s.deliverable c s.endsContext) = none := by
    refine List.find?_eq_none.mpr fun n hn => ?_
    rw [(hbefore n hn).not_deliverable]
    exact Bool.false_ne_true
  have hhere : s.deliverable c s.endsContext sl = true := by
    simpa [State.deliverable_of_faulted hp hrun hst, hend] using hcode
  have hfind : (s.core c).faultQ.find? (s.deliverable c s.endsContext) = some sl := by
    rw [hq, List.find?_append, hnone, Option.none_or, List.find?_cons_of_pos hhere]
  rw [State.nextFault]
  simp only [hfind]

/-! ### Delivery -/

/-- The delivery of a fault to a strand that is no joint member aborts no gang (10 R272). -/
theorem State.faultGangs_of_no_member {own : Nat} (h : ∀ g, g < 4 → ∀ m ∈ (s.gang (coreClu c) g).members, m ≠ (c, own)) :
    s.faultGangs c own = s := by
  refine foldl_same _ _ _ fun g hg => if_neg ?_
  rw [List.any_eq_true]
  rintro ⟨m, hm, heq⟩
  rw [Bool.and_eq_true, beq_iff_eq, beq_iff_eq] at heq
  exact h g (List.mem_range.mp hg) m hm (Prod.ext heq.1 heq.2)

theorem exec_faultDelivery_handled {hd : Nat} (hphase : (s.core c).phase = .run) (hnext : s.nextFault c = some sl)
    (hp : s.strand? c sl = some p) (hst : p.st = .faulted f) (hhandled : Handled s p f)
    (hfree : (s.core c).freeHolder = some hd) (hwrites : ∀ w ∈ s.writes, w.own ≠ p.own) (hloads : ∀ l ∈ s.loads, l.own ≠ p.own)
    (hgang : ∀ g, g < 4 → ∀ m ∈ (s.gang (coreClu c) g).members, m ≠ (c, p.own)) :
    exec (.faultDelivery c) s = .next (s.takeFault c sl hd p f) := by
  have hstores : s.storesDone p.own = true := by simpa [State.storesDone] using hwrites
  have hback : s.loadsBack p.own = true := by simpa [State.loadsBack] using hloads
  have hgangs : (s.takeFault c sl hd p f).faultGangs c p.own = s.takeFault c sl hd p f :=
    State.faultGangs_of_no_member hgang
  show execFaultDelivery c s = _
  simp [execFaultDelivery, hnext, hphase, hp, hst, hhandled.not_endsContext, hstores, hback, hfree, hgangs]

theorem exec_faultDelivery_ending (hphase : (s.core c).phase = .run) (hnext : s.nextFault c = some sl)
    (hp : s.strand? c sl = some p) (hst : p.st = .faulted f) (hend : s.endsContext p f = true) :
    exec (.faultDelivery c) s = .next (s.endContext p.asid.toNat f.code.num p.sid) := by
  show execFaultDelivery c s = _
  simp [execFaultDelivery, hnext, hphase, hp, hst, hend]

/-- Taking a fault changes one slot, a holder and the queue of its core. -/
theorem State.takeFault_frame (s : State) (c sl hd : Nat) (p : Strand) (f : FaultRec) :
    ((s.takeFault c sl hd p f).core c).faultQ = (s.core c).faultQ.filter (fun n => n != sl) ∧
      SlotsKept s (s.takeFault c sl hd p f) c sl ∧
      { s.takeFault c sl hd p f with cores := s.cores, fresh := s.fresh } = s := by
  have hslots : SlotsKept s.tick (s.takeFault c sl hd p f) c sl := by
    unfold State.takeFault
    exact State.slotsKept_modCore_tput rfl
  refine ⟨?_, (s.slotsKept_tick c sl).trans hslots, rfl⟩
  rw [State.takeFault, State.modCore_core]
  rfl

/-! ### A deferred fault (04 R109) -/

/-- A deferred fault is raised at a strand that can take one: its region is committed, and it is FAULTED in its slot. -/
theorem State.takeDeferred_of_slot {d : Deferred} {n : Nat} (hw : s.Unwatched) (hp : s.strand? c n = some p)
    (hq : p.stepping = false) (hd : (s.core c).deferred.find? (fun e => e.own == p.own) = some d) (ht : p.takesDeferred = true) :
    s.takeDeferred c (.slot n) p = (s.commitRegion c n).modCore c fun k =>
      { k with slots := tput k.slots n { p.flushed with st := .faulted d.f, walk := none },
               faultQ := k.faultQ ++ [n], deferred := k.deferred.erase d } := by
  have hflush := State.flushed_commitRegion hp hw
  have hstrand : ((s.commitRegion c n).modCore c fun k => { k with deferred := k.deferred.erase d }).strand? c n =
      some p.flushed := (State.strand?_modCore_slots rfl n).trans hflush.strand
  rw [State.takeDeferred, hd]
  dsimp only
  rw [if_pos ht, State.faultPlace, State.faultAt_of_strand hstrand hq, State.modCore_modCore]

theorem Strand.takesDeferred_of_boundary (hrun : p.stopped = false)
    (hst : p.st = .ready ∧ p.walk = none ∨ ∃ cls x y, p.st = .waiting (.seq cls x y)) : p.takesDeferred = true := by
  rcases hst with ⟨hready, hwalk⟩ | ⟨cls, x, y, hseq⟩
  · simp [Strand.takesDeferred, hready, hwalk, hrun]
  · simp [Strand.takesDeferred, hseq, hrun]

theorem exec_deferredFault_of_slot {n : Nat} (hn : n < 64) (hphase : (s.core c).phase = .run) (hp : s.strand? c n = some p) :
    exec (.deferredFault c n) s = .next (s.takeDeferred c (.slot n) p) := by
  show execDeferredFault c n s = _
  simp [execDeferredFault, placeOf, hn, State.strandIn, hp, hphase]

end

end Sys2Proof.Machine
end

section
/-! Claims on the free slots of a core (07 R178, R190 to R193, R203; 16 R370): parked strands, queued migrations, spilled arrivals
and messages. -/

namespace Sys2Proof.Machine

/-! ### Tables -/

/-- What a table holds after a key has been given a value: the old entries and the new one. -/
theorem mem_of_mem_tput {α : Type} {t : Tbl α} {k : Nat} {v : α} {e : Nat × α} (h : e ∈ tput t k v) : e ∈ t ∨ e = (k, v) := by
  induction t with
  | nil => exact .inr (List.mem_singleton.mp h)
  | cons a t ih =>
    unfold tput at h
    split at h
    · exact (List.mem_cons.mp h).symm
    · split at h
      · rcases List.mem_cons.mp h with h | h
        · exact .inr h
        · exact .inl (List.mem_cons_of_mem _ h)
      · rcases List.mem_cons.mp h with h | h
        · exact .inl (h ▸ List.mem_cons_self)
        · exact (ih h).imp_left (List.mem_cons_of_mem _)

/-- Values given to keys one after another, where no key is given two: each key has its own. -/
theorem tfind_foldl_tput {α : Type} (l : List (Nat × α)) (hl : ∀ x ∈ l, ∀ y ∈ l, x.1 = y.1 → x = y) (t : Tbl α) {x : Nat × α}
    (hx : x ∈ l) : tfind (l.foldl (fun t r => tput t r.1 r.2) t) x.1 = some x.2 := by
  induction l using List.reverseRecOn with
  | nil => exact absurd hx List.not_mem_nil
  | append_singleton l y ih =>
    rw [List.foldl_append, List.foldl_cons, List.foldl_nil]
    by_cases hk : x.1 = y.1
    · obtain rfl := hl x hx y (by simp) hk
      exact tfind_tput_same _ _ _
    · rw [tfind_tput_ne _ _ hk]
      have hmem : x ∈ l := by
        rcases List.mem_append.mp hx with h | h
        · exact h
        · exact absurd (congrArg Prod.fst (List.mem_singleton.mp h)) hk
      exact ih (fun a ha b hb => hl a (by simp [ha]) b (by simp [hb])) hmem

theorem mem_insertBy {α : Type} (le : α → α → Bool) (a b : α) (l : List α) : b ∈ insertBy le a l ↔ b = a ∨ b ∈ l := by
  induction l with
  | nil => simp [insertBy]
  | cons c l ih =>
    unfold insertBy
    split
    · simp
    · simp only [List.mem_cons, ih]
      tauto

theorem mem_sortBy {α : Type} (le : α → α → Bool) (b : α) (l : List α) : b ∈ sortBy le l ↔ b ∈ l := by
  induction l with
  | nil => rfl
  | cons a l ih => exact (mem_insertBy le a b _).trans (by simp [← ih, sortBy])

theorem Core.mem_restorables (k : Core) (e : Nat × ParkEntry) :
    e ∈ k.restorables ↔ e ∈ k.park ∧ e.2.restorable.isSome = true := by
  rw [Core.restorables, mem_sortBy, List.mem_filter]

/-! ### Claims of the first class (07 Table 07.1) -/

section
variable {s : State} {c sl : Nat}

/-- A core that no claim of the first class waits at. -/
theorem NoFirst.firstClaims (h : NoFirst s c) : s.firstClaims c = [] := by
  have hpark : ((s.core c).restorables.filter fun e => e.2.slot.isNone) = [] := by
    refine List.filter_eq_nil_iff.mpr fun e he => ?_
    obtain ⟨hmem, hres⟩ := ((s.core c).mem_restorables e).mp he
    rw [Option.isNone_iff_eq_none, ← Option.not_isSome_iff_eq_none]
    exact not_not.mpr (h.park e hmem hres)
  have hstale : s.returning c = [] := by
    refine List.filter_eq_nil_iff.mpr fun m hm => ?_
    have := h.stale m hm
    simp only [Bool.and_eq_true, beq_iff_eq]
    exact fun hback => this hback.1.1 hback.1.2
  rw [State.firstClaims, hpark, hstale]
  rfl

theorem Core.running_of_run {k : Core} (hphase : k.phase = .run) (hdbg : wfld k.dbg 4 2 = 0) : k.running = true := by
  simp [Core.running, hphase, hdbg]

/-- An arrival takes the lowest free slot of its core. -/
theorem State.slotFor_of_free (hfree : (s.core c).freeSlot = some sl) (asid : BitVec 12) : s.slotFor c asid = (s, some sl) := by
  unfold State.slotFor State.claimSlot
  simp only [hfree, ite_self]

end

/-! ### A strand takes its slot -/

/-- What a strand that takes a slot leaves: it stands there, and of its core only the slot and the queue of faults have
changed. -/
structure Seated (s t : State) (c sl : Nat) (p : Strand) : Prop where
  strand : t.strand? c sl = some (seated s p)
  core : { t.core c with slots := (s.core c).slots, faultQ := (s.core c).faultQ } = s.core c
  slots : SlotsKept s t c sl
  rest : { t with cores := s.cores, fresh := s.fresh } = s

/-- A core that no core stop has met gives a strand its slot as it is (19 R425). -/
theorem State.seated_occupy {s : State} {c : Nat} (hdbg : wfld (s.core c).dbg 4 2 = 0) (sl : Nat) (p : Strand) :
    Seated s (s.occupy c sl p) c sl p := by
  have hput : s.occupy c sl p = match p.st with
      | .faulted _ => (s.tick.putStrand c sl (seated s p)).modCore c fun k => { k with faultQ := k.faultQ ++ [sl] }
      | _ => s.tick.putStrand c sl (seated s p) := by
    unfold State.occupy seated
    simp only [hdbg, bne_self_eq_false, Bool.false_and, Bool.or_false]
    rfl
  have hfault : ∃ q : Core → List Nat, s.occupy c sl p =
      s.tick.modCore c fun k => { k with slots := tput k.slots sl (seated s p), faultQ := q k } := by
    rw [hput]
    split
    · exact ⟨fun k => k.faultQ ++ [sl], State.modCore_modCore _ _ _ _⟩
    · exact ⟨Core.faultQ, rfl⟩
  obtain ⟨q, hq⟩ := hfault
  rw [hq]
  refine ⟨State.strand?_modCore_tput rfl, ?_, ?_, rfl⟩
  · rw [State.modCore_core]
    rfl
  · exact (s.slotsKept_tick c sl).trans (State.slotsKept_modCore_tput rfl)

/-- The trace of an activation changes no core (19 Table 19.4). -/
theorem State.activate_cores (s : State) (c sl : Nat) (m : ActMsg) :
    (s.activate c sl m).cores = (s.occupy c sl (m.strand s.spine.time)).cores := by
  unfold State.activate
  dsimp only
  split
  · exact State.trace_cores _ _ _
  · rfl

/-- The registers of the handler strand of a message (04 Table 04.5). -/
theorem ActMsg.strand_getG (m : ActMsg) (now : Word) :
    (∀ i, i < 6 → (m.strand now).getG i = vget 0 m.payload i) ∧ (m.strand now).getG 6 = m.sid ∧
      (m.strand now).getG 7 = m.sent := by
  have hg : (m.strand now).g = vset (vset ((List.range 6).foldl (fun g i => vset g i (vget 0 m.payload i))
    (Vector.replicate 16 0)) 6 m.sid) 7 m.sent := rfl
  refine ⟨fun i hi => ?_, ?_, ?_⟩
  · rw [Strand.getG, hg, vget_vset_ne _ _ _ (by omega), vget_vset_ne _ _ _ (by omega)]
    match i, hi with
    | 0, _ | 1, _ | 2, _ | 3, _ | 4, _ | 5, _ => simp [List.range_succ, vget, vset]
  · rw [Strand.getG, hg, vget_vset_ne _ _ _ (by decide), vget_vset_same _ _ _ _ (by decide)]
  · rw [Strand.getG, hg, vget_vset_same _ _ _ _ (by decide)]

/-! ### A parked strand comes back (07 R193) -/

/-- Of the cores only one has changed, and of that only the accumulators and the queue of faults; memory has not. -/
structure Cleared (s t : State) (c : Nat) : Prop where
  core : { t.core c with mtx := (s.core c).mtx, faultQ := (s.core c).faultQ } = s.core c
  cores : ∀ k, k ≠ c → t.core k = s.core k
  mem : t.mem = s.mem

theorem Cleared.refl (s : State) (c : Nat) : Cleared s s c := ⟨rfl, fun _ _ => rfl, rfl⟩

theorem Cleared.trans {s u t : State} {c : Nat} (h : Cleared s u c) (k : Cleared u t c) : Cleared s t c where
  core := by
    rw [← h.core, ← k.core]
  cores d hd := (k.cores d hd).trans (h.cores d hd)
  mem := k.mem.trans h.mem

theorem Cleared.slotsKept {s t : State} {c : Nat} (h : Cleared s t c) (n : Nat) : SlotsKept s t c n where
  cores := h.cores
  slots m _ := (congrArg (fun k : Core => tfind k.slots m) h.core :)

theorem State.cleared_modCore {s : State} {c : Nat} {f : Core → Core}
    (h : { f (s.core c) with mtx := (s.core c).mtx, faultQ := (s.core c).faultQ } = s.core c) : Cleared s (s.modCore c f) c where
  core := by rw [State.modCore_core, h]
  cores _ hd := s.modCore_core_ne f hd
  mem := s.modCore_mem c f

theorem State.cleared_clearBlock (s : State) (c : Nat) (x : SpillLoc) : Cleared s (s.clearBlock c x) c := by
  cases x with
  | acc a j =>
    unfold State.clearBlock
    exact State.cleared_modCore rfl
  | area j => exact .refl s c

theorem State.cleared_foldl_clearBlock (c : Nat) (l : List SpillLoc) (s : State) :
    Cleared s (l.foldl (fun s x => s.clearBlock c x) s) c := by
  induction l generalizing s with
  | nil => exact .refl s c
  | cons x l ih => exact (s.cleared_clearBlock c x).trans (ih _)

/-- A parked strand stands in its slot again: its rows are the lowest free ones, and their registers hold its blocks. -/
structure Restored (s t : State) (c sl n : Nat) (e : ParkEntry) : Prop where
  strand : t.strand? c sl = some { e.strand with rows := (s.core c).freeRows.take e.blocks.length }
  park : tfind (t.core c).park n = none
  regs : ∀ (i j : Nat) (x : SpillLoc) (r : Nat), e.blocks[i]? = some x → (s.core c).freeRows[i]? = some r → j < 6 →
    (t.core c).vreg (6 * r + j) = nth 0 (s.blockAt c x) j
  slots : SlotsKept s t c sl
  bytes : MemKept s t

/-- The registers that come back with a strand, each with its content: six for each row and its block. -/
def State.backRegs (s : State) (c : Nat) (e : ParkEntry) : List (Nat × VReg) :=
  (((s.core c).freeRows.take e.blocks.length).zip e.blocks).flatMap fun r => (locsFrom (6 * r.1) 6).zip (s.blockAt c r.2)

theorem State.blockAt_length (s : State) (c : Nat) (x : SpillLoc) : (s.blockAt c x).length = 6 := by
  cases x <;> simp [State.blockAt]

theorem Core.nodup_freeRows (k : Core) : k.freeRows.Nodup := List.nodup_range.filter _

theorem State.mem_backRegs {s : State} {c : Nat} {e : ParkEntry} {y : Nat × VReg} : y ∈ s.backRegs c e ↔
    ∃ (i r j : Nat) (x : SpillLoc), e.blocks[i]? = some x ∧ (s.core c).freeRows[i]? = some r ∧ j < 6 ∧
      y = (6 * r + j, nth 0 (s.blockAt c x) j) := by
  rw [State.backRegs, List.mem_flatMap]
  simp only [List.mem_iff_getElem?, List.getElem?_zip_eq_some]
  constructor
  · rintro ⟨⟨r, x⟩, ⟨i, hr, hx⟩, j, hj, hv⟩
    obtain ⟨hlt, -⟩ := List.getElem?_eq_some_iff.mp hx
    rw [List.getElem?_take_of_lt hlt] at hr
    obtain ⟨hj6, -⟩ := List.getElem?_eq_some_iff.mp hv
    rw [State.blockAt_length] at hj6
    refine ⟨i, r, j, x, hx, hr, hj6, Prod.ext ?_ ?_⟩
    · simpa [locsFrom, hj6] using hj.symm
    · simp [nth, hv]
  · rintro ⟨i, r, j, x, hx, hr, hj6, rfl⟩
    obtain ⟨hlt, -⟩ := List.getElem?_eq_some_iff.mp hx
    refine ⟨(r, x), ⟨i, by rw [List.getElem?_take_of_lt hlt]; exact hr, hx⟩, j, by simp [locsFrom, hj6], ?_⟩
    have hlen : j < (s.blockAt c x).length := by rwa [State.blockAt_length]
    simp [nth, hlen]

/-- No register comes back with two contents. -/
theorem State.backRegs_functional {s : State} {c : Nat} {e : ParkEntry} :
    ∀ y ∈ s.backRegs c e, ∀ z ∈ s.backRegs c e, y.1 = z.1 → y = z := by
  intro y hy z hz hkey
  obtain ⟨i, r, j, x, hx, hr, hj, rfl⟩ := State.mem_backRegs.mp hy
  obtain ⟨i', r', j', x', hx', hr', hj', rfl⟩ := State.mem_backRegs.mp hz
  obtain ⟨rfl, rfl⟩ : r = r' ∧ j = j' := by
    dsimp only at hkey
    omega
  obtain ⟨hlt, -⟩ := List.getElem?_eq_some_iff.mp hr
  obtain rfl : i = i' := (List.getElem?_inj hlt (s.core c).nodup_freeRows).mp (hr.trans hr'.symm)
  rw [hx] at hx'
  cases hx'
  rfl

theorem State.restored_restoreParked (s : State) (c sl n : Nat) (e : ParkEntry) :
    Restored s (s.restoreParked c sl n e) c sl n e := by
  have hback : Cleared (s.modCore c fun k =>
      { k with park := tdel k.park n
               slots := tput k.slots sl { e.strand with rows := (s.core c).freeRows.take e.blocks.length }
               vrf := (s.backRegs c e).foldl (fun t r => tput t r.1 r.2) k.vrf }) (s.restoreParked c sl n e) c := by
    refine .trans (State.cleared_foldl_clearBlock c e.blocks _) ?_
    unfold State.restoreParked
    dsimp only
    split
    · exact State.cleared_modCore rfl
    · exact .refl _ c
  have hcore := hback.core
  rw [State.modCore_core] at hcore
  refine ⟨?_, ?_, fun i j x r hx hr hj => ?_, ?_, fun l => ?_⟩
  · rw [State.strand?, (congrArg Core.slots hcore :), tfind_tput_same]
  · rw [(congrArg Core.park hcore :), tfind_tdel_same]
  · rw [Core.vreg, (congrArg Core.vrf hcore :), tget, tfind_foldl_tput _ State.backRegs_functional _
      (State.mem_backRegs.mpr ⟨i, r, j, x, hx, hr, hj, rfl⟩)]
    rfl
  · exact (State.slotsKept_modCore_tput rfl).trans (hback.slotsKept sl)
  · rw [hback.mem]
    rfl

theorem Restored.unparked {s t : State} {c sl n : Nat} {e : ParkEntry} (h : Restored s t c sl n e)
    (hexec : exec (.parkedRestore c) s = .next t) : Unparked s c sl n e e.strand.age :=
  ⟨t, hexec, h.strand, h.park, h.regs, h.slots, h.bytes⟩

/-! ### PARKED_RESTORE -/

section
variable {s : State} {c sl n : Nat} {e : ParkEntry}

theorem State.slotParked_of_slotted (h : (s.core c).restorables.find? (fun x => x.2.slot.isNone) = none) : s.slotParked c = s := by
  cases hfree : (s.core c).freeSlot <;> simp only [State.slotParked, hfree, h]

/-- The park entry of a strand that has taken a slot: its age starts again (07 R180). -/
def ParkEntry.slotted (e : ParkEntry) (sl : Nat) : ParkEntry :=
  { e with slot := some sl, strand := { e.strand with age := 0 } }

theorem State.slotParked_of_first (hfree : (s.core c).freeSlot = some sl)
    (hfind : (s.core c).restorables.find? (fun x => x.2.slot.isNone) = some (n, e))
    (hfirst : s.firstOf c (e.restorable.getD 0) = true) :
    s.slotParked c = s.modCore c fun k => { k with park := tput k.park n (e.slotted sl) } := by
  simp only [State.slotParked, hfree, hfind]
  exact if_pos hfirst

/-- The first of the restorable strands is granted its rows before the others. -/
theorem Core.fits_head {k : Core} {rest : List (Nat × ParkEntry)} (hres : k.restorables = (n, e) :: rest)
    (hslot : e.slot.isSome = true) (hrows : e.blocks.length ≤ k.freeRows.length) : k.fits (n, e) = true := by
  simp [Core.fits, hres, hslot, rowsNeeded, hrows]

theorem exec_parkedRestore_of_fits {rest : List (Nat × ParkEntry)} (hphase : (s.core c).phase = .run)
    (hsome : (s.core c).restorables ≠ []) (hres : ((s.slotParked c).core c).restorables = (n, e) :: rest)
    (hslot : e.slot = some sl) (hrows : e.blocks.length ≤ ((s.slotParked c).core c).freeRows.length) :
    exec (.parkedRestore c) s = .next ((s.slotParked c).restoreParked c sl n e) := by
  have hfits := Core.fits_head hres (hslot ▸ rfl) hrows
  show execParkedRestore c s = _
  simp [execParkedRestore, hphase, hsome, hres, hfits, hslot]

theorem exec_parkedRestore_of_no_fit (hphase : (s.core c).phase = .run) (hsome : (s.core c).restorables ≠ [])
    (hfits : ∀ x ∈ ((s.slotParked c).core c).restorables, ((s.slotParked c).core c).fits x = false) :
    exec (.parkedRestore c) s = .next ((s.slotParked c).admitMig c) := by
  have hnone : ((s.slotParked c).core c).restorables.find? (fun x => ((s.slotParked c).core c).fits x) = none :=
    List.find?_eq_none.mpr fun x hx => by rw [hfits x hx]; exact Bool.false_ne_true
  show execParkedRestore c s = _
  simp [execParkedRestore, hphase, hsome, hnone]

/-- Every restorable strand has its slot: the first comes back. -/
theorem unparked_of_slotted {rest : List (Nat × ParkEntry)} (hphase : (s.core c).phase = .run)
    (hres : (s.core c).restorables = (n, e) :: rest) (hslots : ∀ x ∈ (s.core c).restorables, x.2.slot.isSome = true)
    (hslot : e.slot = some sl) (hrows : e.blocks.length ≤ (s.core c).freeRows.length) :
    Unparked s c sl n e e.strand.age := by
  have hstay : s.slotParked c = s := State.slotParked_of_slotted <| List.find?_eq_none.mpr fun x hx => by
    rw [Option.isNone_iff_eq_none, ← Option.not_isSome_iff_eq_none]
    exact not_not.mpr (hslots x hx)
  refine (s.restored_restoreParked c sl n e).unparked ?_
  have hexec := exec_parkedRestore_of_fits (s := s) (rest := rest) hphase (by simp [hres]) (by rw [hstay, hres]) hslot
    (by rw [hstay]; exact hrows)
  rwa [hstay] at hexec

/-- A restorable strand without a slot takes the lowest free one and comes back at once, when it is the only one parked. -/
theorem unparked_of_only (hphase : (s.core c).phase = .run) (hpark : (s.core c).park = [(n, e)])
    (hres : e.restorable.isSome = true) (hslot : e.slot = none) (hfirst : s.firstOf c (e.restorable.getD 0) = true)
    (hfree : (s.core c).freeSlot = some sl) (hrows : e.blocks.length ≤ (s.core c).freeRows.length) :
    Unparked s c sl n e 0 := by
  have hrestorables : (s.core c).restorables = [(n, e)] := by
    simp [Core.restorables, hpark, hres, sortBy, insertBy]
  have hfind : (s.core c).restorables.find? (fun x => x.2.slot.isNone) = some (n, e) := by
    rw [hrestorables]
    simp [hslot]
  have htaken := State.slotParked_of_first hfree hfind hfirst
  have hcore : (s.slotParked c).core c = { s.core c with park := [(n, e.slotted sl)] } := by
    rw [htaken, State.modCore_core, hpark]
    simp [tput]
  have hnew : ((s.slotParked c).core c).restorables = [(n, e.slotted sl)] := by
    rw [hcore]
    simp [Core.restorables, ParkEntry.slotted, hres, sortBy, insertBy]
  have hfreeRows : ((s.slotParked c).core c).freeRows = (s.core c).freeRows := by
    rw [hcore]
    rfl
  have hblock (x : SpillLoc) : (s.slotParked c).blockAt c x = s.blockAt c x := by
    cases x with
    | acc a j => simp only [State.blockAt, hcore]
    | area j =>
      simp only [State.blockAt, State.areaLocs, hcore]
      rw [htaken]
      rfl
  have hexec := exec_parkedRestore_of_fits (s := s) hphase (by simp [hrestorables]) hnew rfl
    (hfreeRows.symm ▸ hrows)
  have hback := (s.slotParked c).restored_restoreParked c sl n (e.slotted sl)
  refine ⟨_, hexec, ?_, hback.park, fun i j x r hx hr hj => ?_, ?_, fun l => (hback.bytes l).trans ?_⟩
  · rw [hback.strand, hfreeRows]
    rfl
  · rw [hback.regs i j x r hx (hfreeRows.symm ▸ hr) hj, hblock]
  · refine .trans ?_ hback.slots
    rw [htaken]
    exact State.slotsKept_modCore_slots rfl sl
  · rw [htaken]
    rfl

/-- A restorable strand that takes a slot while its rows are not free stays in the park table. -/
theorem exec_parkedRestore_slot_only (hphase : (s.core c).phase = .run)
    (hfind : (s.core c).restorables.find? (fun x => x.2.slot.isNone) = some (n, e)) (hfree : (s.core c).freeSlot = some sl)
    (hfirst : s.firstOf c (e.restorable.getD 0) = true)
    (hrows : ∀ x ∈ (s.core c).restorables, (s.core c).freeRows.length < x.2.blocks.length) (hmig : (s.core c).migQ = []) :
    exec (.parkedRestore c) s = .next (s.modCore c fun k => { k with park := tput k.park n (e.slotted sl) }) := by
  have htaken := State.slotParked_of_first hfree hfind hfirst
  have hmem := List.mem_of_find?_eq_some hfind
  have hcore : (s.slotParked c).core c = { s.core c with park := tput (s.core c).park n (e.slotted sl) } := by
    rw [htaken, State.modCore_core]
  have hfits : ∀ x ∈ ((s.slotParked c).core c).restorables, ((s.slotParked c).core c).fits x = false := by
    intro x hx
    have hlong : (s.core c).freeRows.length < x.2.blocks.length := by
      rw [hcore] at hx
      obtain ⟨hx, hres⟩ := (Core.mem_restorables _ x).mp hx
      rcases mem_of_mem_tput hx with hold | rfl
      · exact hrows x (((s.core c).mem_restorables x).mpr ⟨hold, hres⟩)
      · exact hrows (n, e) hmem
    have hfreeRows : ((s.slotParked c).core c).freeRows = (s.core c).freeRows := by
      rw [hcore]
      rfl
    have hblocks : x.2.blocks ≠ [] := List.ne_nil_of_length_pos (by omega)
    simp only [Core.fits, hfreeRows, Bool.and_eq_false_iff, Bool.or_eq_false_iff, List.isEmpty_eq_false_iff,
      decide_eq_false_iff_not]
    exact .inr ⟨hblocks, by omega⟩
  rw [exec_parkedRestore_of_no_fit hphase (List.ne_nil_of_mem hmem) hfits]
  have hstay : (s.slotParked c).admitMig c = s.slotParked c := by
    rw [State.admitMig]
    simp only [hcore, hmig]
  rw [hstay, htaken]

end

/-! ### Queued migrations, spilled arrivals and messages (07 R203, Table 07.1; 16 R370) -/

section
variable {s : State} {c sl : Nat}

theorem exec_parkedRestore_migration {p : Strand} {rest : List Strand} (hphase : (s.core c).phase = .run)
    (hfree : (s.core c).freeSlot = some sl) (hfirst : s.firstClaims c = []) (hres : (s.core c).restorables = [])
    (hmig : (s.core c).migQ = p :: rest) (hspill : (s.core c).spillQ = []) :
    exec (.parkedRestore c) s = .next ((s.modCore c fun k => { k with migQ := rest }).occupy c sl p) := by
  show execParkedRestore c s = _
  simp [execParkedRestore, State.admitMig, hphase, hres, hmig, hspill, hfirst, State.slotFor_of_free hfree]

theorem exec_spillQueueRedelivery_migration {p : Strand} {rest : List SpillItem} (hrun : (s.core c).running = true)
    (hfree : (s.core c).freeSlot = some sl) (hfirst : s.firstClaims c = []) (hspill : (s.core c).spillQ = .mig p :: rest) :
    exec (.spillQueueRedelivery c) s = .next ((s.modCore c fun k => { k with spillQ := rest }).occupy c sl p) := by
  show execSpillQueueRedelivery c s = _
  simp [execSpillQueueRedelivery, hrun, hspill, hfirst, State.slotFor_of_free hfree]

theorem exec_spillQueueRedelivery_message {m : ActMsg} {rest : List SpillItem} (hrun : (s.core c).running = true)
    (hfree : (s.core c).freeSlot = some sl) (hfirst : s.firstClaims c = []) (hspill : (s.core c).spillQ = .msg m :: rest) :
    exec (.spillQueueRedelivery c) s = .next ((s.modCore c fun k => { k with spillQ := rest }).activate c sl m) := by
  show execSpillQueueRedelivery c s = _
  simp [execSpillQueueRedelivery, hrun, hspill, hfirst, State.slotFor_of_free hfree]

theorem exec_messageActivation_of_free {m : ActMsg} {rest : List ActMsg} (hrun : (s.core c).running = true)
    (hfree : (s.core c).freeSlot = some sl) (hclaims : NoClaims s c) (hin : (s.core c).inbuf = m :: rest) :
    exec (.messageActivation c) s = .next ((s.modCore c fun k => { k with inbuf := rest }).activate c sl m) := by
  show execMessageActivation c s = _
  simp [execMessageActivation, hrun, hin, hclaims.first.firstClaims, hclaims.migs, hclaims.spill, State.slotFor_of_free hfree]

/-- A strand has taken a slot of its core, whose queues are those that a change leaves. -/
structure TookSlot (s t : State) (c sl : Nat) (f : Core → Core) (p : Strand) : Prop where
  strand : t.strand? c sl = some (seated s p)
  migQ : (t.core c).migQ = (f (s.core c)).migQ
  spillQ : (t.core c).spillQ = (f (s.core c)).spillQ
  inbuf : (t.core c).inbuf = (f (s.core c)).inbuf
  slots : SlotsKept s t c sl

/-- A change of a core leaves its slots, and whether it is stopping. -/
structure QueuesOnly (f : Core → Core) (k : Core) : Prop where
  slots : (f k).slots = k.slots
  dbg : (f k).dbg = k.dbg

theorem State.tookSlot_occupy {f : Core → Core} (hdbg : wfld (s.core c).dbg 4 2 = 0) (hf : QueuesOnly f (s.core c)) (p : Strand) :
    TookSlot s ((s.modCore c f).occupy c sl p) c sl f p ∧ MemKept s ((s.modCore c f).occupy c sl p) := by
  have hseated := State.seated_occupy (s := s.modCore c f) (c := c) (by rwa [State.modCore_core, hf.dbg]) sl p
  have hcore := hseated.core
  rw [State.modCore_core] at hcore
  exact ⟨⟨hseated.strand, (congrArg Core.migQ hcore :), (congrArg Core.spillQ hcore :), (congrArg Core.inbuf hcore :),
    (State.slotsKept_modCore_slots hf.slots sl).trans hseated.slots⟩,
    fun l => (congrArg (fun t : State => memGet t.mem l) hseated.rest :)⟩

theorem TookSlot.of_cores {t u : State} {f : Core → Core} {p : Strand} (h : TookSlot s t c sl f p) (hcores : u.cores = t.cores) :
    TookSlot s u c sl f p := by
  have hcore : u.core c = t.core c := congrArg (tget Core.blank · c) hcores
  exact ⟨(congrArg (fun k : Core => tfind k.slots sl) hcore).trans h.strand, (congrArg Core.migQ hcore).trans h.migQ,
    (congrArg Core.spillQ hcore).trans h.spillQ, (congrArg Core.inbuf hcore).trans h.inbuf, h.slots.trans (.of_cores hcores c sl)⟩

theorem State.tookSlot_activate {f : Core → Core} (hdbg : wfld (s.core c).dbg 4 2 = 0) (hf : QueuesOnly f (s.core c))
    (m : ActMsg) : TookSlot s ((s.modCore c f).activate c sl m) c sl f (m.strand s.spine.time) :=
  (State.tookSlot_occupy hdbg hf _).1.of_cores (State.activate_cores _ c sl m)

end

/-- Settles O34: a fault that ends its context is delivered first, else the oldest; a deferred fault commits its owner's region
and queues; and each claim on a free slot is served once no earlier one waits. -/
theorem faultAndSlotEvents : Obligations.FaultAndSlotEvents := by
  unfold Obligations.FaultAndSlotEvents
  refine ⟨?handled, ?ending, ?deferred, ?parked, ?queues⟩
  case handled =>
    intro c sl hd s p f rest hphase hq hp hrun hst hhandled hrest hfree hwrites hloads hgang
    have hnext := State.nextFault_of_handled hq hp hrun hst hhandled hrest
    have hexec := exec_faultDelivery_handled hphase hnext hp hst hhandled hfree hwrites hloads hgang
    obtain ⟨hhand, hholder, -⟩ := s.takeFault_places c sl hd p f
    obtain ⟨hqueue, hslots, hframe⟩ := s.takeFault_frame c sl hd p f
    refine ⟨_, _, hexec, hhand, s.handlerOf_handlerStrand p sl f _, hholder, ?_, hslots, hframe⟩
    rw [hqueue, hq, List.filter_cons_of_neg (by simp)]
  case ending =>
    intro c sl s p f before rest hphase hq hbefore hp hrun hst hcode hnot
    have hend := endsContext_of_not_handled hcode hnot
    have hnext := State.nextFault_of_ending hq hbefore hp hrun hst hcode hend
    exact ⟨_, exec_faultDelivery_ending hphase hnext hp hst hend, s.endContext_ends _ _ _⟩
  case deferred =>
    intro c n s p d hw hphase hn hp hst hrun hstep hd
    have hexec := exec_deferredFault_of_slot hn hphase hp
    rw [State.takeDeferred_of_slot hw hp hstep hd (Strand.takesDeferred_of_boundary hrun hst)] at hexec
    have hflush := State.flushed_commitRegion hp hw
    refine ⟨_, _, hexec, State.strand?_modCore_tput rfl, rfl, rfl, rfl, rfl, rfl, ?_, ?_,
      hflush.slots.trans (State.slotsKept_modCore_tput rfl), hflush.memKept⟩
    · rw [State.modCore_core, (congrArg Core.deferred hflush.core :)]
    · rw [State.modCore_core, (congrArg Core.faultQ hflush.core :)]
  case parked =>
    intro c sl n s e hphase
    refine ⟨fun rest => unparked_of_slotted hphase, unparked_of_only hphase, fun hfind hfree hfirst hrows hmig => ?_⟩
    refine ⟨_, exec_parkedRestore_slot_only hphase hfind hfree hfirst hrows hmig, ?_, ?_, rfl, fun k hk =>
      s.modCore_core_ne _ hk⟩
    · rw [State.modCore_core, tfind_tput_same]
      rfl
    · rw [State.modCore_core]
  case queues =>
    intro c sl s hphase hfree hdbg hno
    have hrun := Core.running_of_run hphase hdbg
    have hfirst := hno.firstClaims
    refine ⟨fun p rest hres hmig hspill => ?_, fun p rest hspill => ?_, fun m rest hspill => ?_,
      fun m rest hclaims hin _ => ?_⟩
    · obtain ⟨htook, hmem⟩ := State.tookSlot_occupy (sl := sl) hdbg (f := fun k => { k with migQ := rest }) ⟨rfl, rfl⟩ p
      exact ⟨_, exec_parkedRestore_migration hphase hfree hfirst hres hmig hspill, htook.strand,
        htook.migQ, htook.slots, hmem⟩
    · obtain ⟨htook, hmem⟩ := State.tookSlot_occupy (sl := sl) hdbg (f := fun k => { k with spillQ := rest }) ⟨rfl, rfl⟩ p
      exact ⟨_, exec_spillQueueRedelivery_migration hrun hfree hfirst hspill, htook.strand,
        htook.spillQ, htook.slots, hmem⟩
    · have htook := State.tookSlot_activate (sl := sl) hdbg (f := fun k => { k with spillQ := rest }) ⟨rfl, rfl⟩ m
      exact ⟨_, exec_spillQueueRedelivery_message hrun hfree hfirst hspill, htook.strand,
        htook.spillQ, htook.slots⟩
    · have htook := State.tookSlot_activate (sl := sl) hdbg (f := fun k => { k with inbuf := rest }) ⟨rfl, rfl⟩ m
      obtain ⟨hpayload, hsid, hsent⟩ := m.strand_getG s.spine.time
      exact ⟨_, _, exec_messageActivation_of_free hrun hfree hclaims hin, htook.strand, rfl, rfl, hpayload, hsid, hsent, rfl,
        rfl, rfl, htook.inbuf, htook.slots⟩

end Sys2Proof.Machine
end

section
/-! Replies of the pager, stale responses and returned packets (04 R110; 07 R202; 11 R310; 14 R334). -/

namespace Sys2Proof.Machine

/-! ### Pager's replies (04 R110; 07 R202) -/

theorem code_of_replyFault {x : BitVec 8} {code : Code} (h : (x, code) ∈ replyFault) : x ≠ 0 ∧ Code.ofNum x.toNat = code := by
  simp only [replyFault, List.mem_cons, Prod.mk.injEq, List.not_mem_nil, or_false] at h
  rcases h with ⟨rfl, rfl⟩ | ⟨rfl, rfl⟩ | ⟨rfl, rfl⟩ | ⟨rfl, rfl⟩ <;> decide

section
variable {s : State} {c n : Nat} {p : Strand}

theorem State.pageAnswer_zero {w : PageWait} (hp : s.strand? c n = some p) (hst : p.st = .sleeping w) :
    s.pageAnswer c (.slot n) 0 = s.putStrand c n { p with st := .ready } := by
  simp only [State.pageAnswer, State.strandIn, hp, hst]
  exact (if_pos trivial).trans (State.modStrand_some hp _)

theorem State.pageAnswer_fault {w : PageWait} {x : BitVec 8} {code : Code} (hp : s.strand? c n = some p)
    (hst : p.st = .sleeping w) (hq : p.stepping = false) (hcode : (x, code) ∈ replyFault) :
    s.pageAnswer c (.slot n) x = s.modCore c fun k =>
      { k with
        slots := tput k.slots n { p with
          walk := none
          st := .faulted { code := code, sub := 0x70, deferred := false, word := w.word, pc := p.pc, addr := w.va } }
        faultQ := k.faultQ ++ [n] } := by
  obtain ⟨hx, rfl⟩ := code_of_replyFault hcode
  simp only [State.pageAnswer, State.strandIn, hp, hst]
  exact (if_neg hx).trans (State.faultAt_of_strand hp hq _)

/-- Free bytes of the save area: only they have changed. -/
theorem State.putFree_frame (s : State) (savea : Word) (o n : Nat) :
    (∀ l, l ∉ s.areaFrom savea o n → memGet (s.putFree savea o n).mem l = memGet s.mem l) ∧
      { s.putFree savea o n with mem := s.mem, fresh := s.fresh } = s := by
  refine ⟨fun l hl => memGet_memWrite_ne _ _ _ fun x hx => ?_, rfl⟩
  obtain ⟨y, hy, rfl⟩ := List.mem_map.mp hx
  rintro rfl
  exact hl (List.of_mem_zip hy).1

theorem State.replyKept_putReply (s : State) (c : Nat) (r : ReplyItem) : ReplyKept s (s.putReply c r) c r := by
  obtain ⟨hbytes, hrest⟩ := s.putFree_frame (s.core c).savea (0x9000 + 16 * (s.core c).replies.length) 16
  refine ⟨?_, fun k hk => State.modCore_core_ne _ _ hk, hbytes, rfl⟩
  rw [State.putReply, State.modCore_core]
  rfl

theorem exec_pageReply_of_sleeper {r : PageReply} {pl : Place}
    (hfind : s.pageReplies.find? (fun x => x.site == r.site && x.req.tag == r.req.tag) = some r) (hop : r.req.op = none)
    (hsleep : s.cores.findSome? (fun e => (e.2.sleeper r.req).map fun pl => (e.1, pl)) = some (c, pl)) :
    exec (.pageReply r.site r.req.tag) s = .next (
      let u := { s with pageReplies := s.pageReplies.erase r }
      if (s.core c).phase = .run then u.pageAnswer c pl r.code else u.putReply c (.page pl.num r.code)) := by
  show execPageReply r.site r.req.tag s = _
  simp only [execPageReply, hfind, hop, hsleep]
  by_cases hphase : (s.core c).phase = .run
  · rw [if_pos hphase]
    exact congrArg _ (if_pos (beq_iff_eq.mpr hphase))
  · rw [if_neg hphase]
    exact congrArg _ (if_neg (mt beq_iff_eq.mp hphase))

/-! ### STALE at an instruction (11 R310; 04 R103) -/

theorem State.Unwatched.of_cores {u : State} (hw : s.Unwatched) (hcores : u.cores = s.cores) : u.Unwatched := by
  intro d i hi
  have hcore : u.core d = s.core d := congrArg (tget Core.blank · d) hcores
  rw [hcore]
  exact hw d i hi

/-- A strand that has faulted with STALE at an instruction, its region committed; loads that were to deliver to its registers may
have gone. -/
structure StaleStrand (p q : Strand) (pc : Word) (w : WordId) : Prop where
  at_ : q.pc = pc
  region : q.region = []
  sdig : q.sdig = foldStores p.sdig p.region
  due : q.ckptDue = true
  st : q.st = .faulted { code := .stale, sub := 0, deferred := false, word := w, pc := pc, addr := 0 }
  rest : { q with pc := p.pc, region := p.region, sdig := p.sdig, ckptDue := p.ckptDue, retired := p.retired,
                  firstStore := p.firstStore, mustCommit := p.mustCommit, walk := p.walk, st := p.st, board := p.board,
                  vboard := p.vboard, ckpt := p.ckpt } = p
  ckpt : { q.ckpt with board := p.ckpt.board, vboard := p.ckpt.vboard } = p.ckpt

/-- The strand that a STALE fault leaves. -/
def Strand.staleAt (p : Strand) (pc : Word) (w : WordId) : Strand :=
  { p.flushed with
    pc := pc, walk := none, st := .faulted { code := .stale, sub := 0, deferred := false, word := w, pc := pc, addr := 0 } }

theorem Strand.staleStrand_staleAt (p : Strand) (pc : Word) (w : WordId) : StaleStrand p (p.staleAt pc w) pc w :=
  ⟨rfl, rfl, rfl, rfl, rfl, rfl, rfl⟩

theorem StaleStrand.dropLoads {q : Strand} {pc : Word} {w : WordId} (h : StaleStrand p q pc w) (gone : List Nat) :
    StaleStrand p (q.dropLoads gone) pc w :=
  ⟨h.at_, h.region, h.sdig, h.due, h.st, h.rest, h.ckpt⟩

/-- The state once a strand in a slot has committed its region and stands FAULTED as another, at the end of the queue for a
holder. -/
def State.commitFault (u : State) (c n : Nat) (q : Strand) : State :=
  (u.commitRegion c n).modCore c fun k => { k with slots := tput k.slots n q, faultQ := k.faultQ ++ [n] }

theorem State.staleFault_of_slot (hw : s.Unwatched) (hp : s.strand? c n = some p) (hq : p.stepping = false) (pc : Word)
    (w : WordId) : s.staleFault c (.slot n) pc w = s.commitFault c n (p.staleAt pc w) := by
  have hflush := State.flushed_commitRegion hp hw
  have hmove : (s.commitRegion c n).modPlace c (.slot n) (fun p => { p with pc }) =
      (s.commitRegion c n).putStrand c n { p.flushed with pc } := State.modStrand_some hflush.strand _
  have hstrand := (s.commitRegion c n).strand?_putStrand c n { p.flushed with pc }
  rw [State.staleFault, hmove, State.faultPlace, State.faultAt_of_strand hstrand hq, State.putStrand, State.modCore_modCore, State.commitFault]
  refine congrArg (State.modCore _ c) (funext fun k => ?_)
  rw [tput_tput]
  rfl

/-- What a STALE fault leaves of the state before its response was counted. -/
theorem State.staleAt_commitFault {u : State} {q : Strand} {pc : Word} {w : WordId} {v : Stale} (hcores : u.cores = s.cores)
    (hmem : u.mem = s.mem)
    (hcount : (u.chip (coreSite c)).stale = (s.chip (coreSite c)).stale + (if v = .dropped then 1 else 0))
    (hw : s.Unwatched) (hp : s.strand? c n = some p) (hq : StaleStrand p q pc w) :
    StaleAt s (u.commitFault c n q) c n p pc w v := by
  have hcore : u.core c = s.core c := congrArg (tget Core.blank · c) hcores
  have hpu : u.strand? c n = some p := (congrArg (fun k : Core => tfind k.slots n) hcore).trans hp
  have hflush := State.flushed_commitRegion hpu (hw.of_cores hcores)
  have hchip : (u.commitRegion c n).chip (coreSite c) = u.chip (coreSite c) :=
    (congrArg (fun t : State => t.chip (coreSite c)) hflush.rest :)
  refine ⟨⟨q, State.strand?_modCore_tput rfl, hq.at_, hq.region, hq.sdig, hq.due, hq.st, hq.rest, hq.ckpt⟩, ?_, ?_, ?_, fun l => ?_⟩
  · rw [State.commitFault, State.modCore_core, (congrArg Core.faultQ hflush.core :), hcore]
  · exact (congrArg Chiplet.stale hchip).trans hcount
  · exact (SlotsKept.of_cores hcores c n).trans (hflush.slots.trans (State.slotsKept_modCore_tput rfl))
  · exact (hflush.memKept l).trans (by rw [hmem])

/-! ### STALE_RESPONSE -/

theorem State.countDropped_frame (s : State) (k : Nat) (v : Stale) :
    ((s.countDropped k v).chip k).stale = (s.chip k).stale + (if v = .dropped then 1 else 0) ∧
      { s.countDropped k v with chiplets := s.chiplets } = s := by
  cases v with
  | dropped =>
    have hdrop : s.countDropped k .dropped = s.countStale k := if_pos (by decide)
    rw [hdrop]
    exact ⟨congrArg Chiplet.stale (s.modChip_chip k _), rfl⟩
  | no | refused => simp [State.countDropped]

theorem State.countDropped_cores (s : State) (k : Nat) (v : Stale) : (s.countDropped k v).cores = s.cores :=
  (congrArg State.cores (s.countDropped_frame k v).2 :)

theorem State.countDropped_mem (s : State) (k : Nat) (v : Stale) : (s.countDropped k v).mem = s.mem :=
  (congrArg State.mem (s.countDropped_frame k v).2 :)

/-- STALE for an operation that the strand in a slot waits for. -/
theorem State.staleAt_staleOfWait {u : State} {id : Nat} {pc : Word} {w : WordId} {v : Stale} (hcores : u.cores = s.cores)
    (hmem : u.mem = s.mem)
    (hcount : (u.chip (coreSite c)).stale = (s.chip (coreSite c)).stale + (if v = .dropped then 1 else 0))
    (hwait : s.staleWaiter c id = some (.slot n, p)) (hw : s.Unwatched) (hp : s.strand? c n = some p)
    (hq : p.stepping = false) : StaleAt s (u.staleOfWait c id pc w) c n p pc w v ∧
      (u.staleOfWait c id pc w).atoms = u.atoms ∧ (u.staleOfWait c id pc w).sends = u.sends := by
  have hcore : u.core c = s.core c := congrArg (tget Core.blank · c) hcores
  have hpu : u.strand? c n = some p := (congrArg (fun k : Core => tfind k.slots n) hcore).trans hp
  have hwaitu : u.staleWaiter c id = some (.slot n, p) := by
    rw [← hwait, State.staleWaiter, State.staleWaiter, State.waiter, State.waiter, hcore]
  have hflush := State.flushed_commitRegion hpu (hw.of_cores hcores)
  have hfault : u.staleOfWait c id pc w = u.commitFault c n (p.staleAt pc w) := by
    rw [State.staleOfWait, hwaitu]
    exact State.staleFault_of_slot (hw.of_cores hcores) hpu hq pc w
  rw [hfault]
  exact ⟨State.staleAt_commitFault hcores hmem hcount hw hp (p.staleStrand_staleAt pc w), (congrArg State.atoms hflush.rest :),
    (congrArg State.sends hflush.rest :)⟩

theorem State.commitFault_modPlace (u : State) (c n : Nat) (q : Strand) (f : Strand → Strand) :
    (u.commitFault c n q).modPlace c (.slot n) f = u.commitFault c n (f q) := by
  have hstrand : (u.commitFault c n q).strand? c n = some q := State.strand?_modCore_tput rfl
  refine (State.modStrand_some hstrand f).trans ?_
  rw [State.putStrand, State.commitFault, State.modCore_modCore, State.commitFault]
  refine congrArg (State.modCore _ c) (funext fun k => ?_)
  rw [tput_tput]

/-- Whether a load is none of those of the strand of load `l` from `l` on. -/
def LoadOp.before (l m : LoadOp) : Bool := m.own != l.own || decide (m.seq < l.seq)

theorem LoadOp.not_from (l m : LoadOp) : (!(m.own == l.own && decide (l.seq ≤ m.seq))) = l.before m := by
  rw [LoadOp.before, Bool.not_and, ← decide_not]
  simp only [Nat.not_le]
  rfl

theorem State.staleOfLoad_of_slot {l : LoadOp} (hplace : s.loadPlace l = some (.slot l.slot, p)) (htakes : p.takesStale = true)
    (hw : s.Unwatched) (hp : s.strand? l.core l.slot = some p) (hq : p.stepping = false) : ∃ gone,
    s.staleOfLoad l =
      { (s.countDropped (coreSite l.core) (s.staleLoad l)).commitFault l.core l.slot
          ((p.staleAt l.pc l.word).dropLoads gone) with
        loads := (s.keptLoads l.core p.own p.region).filter l.before } := by
  obtain ⟨-, hframe⟩ := s.countDropped_frame (coreSite l.core) (s.staleLoad l)
  have hcores := s.countDropped_cores (coreSite l.core) (s.staleLoad l)
  have hloads : (s.countDropped (coreSite l.core) (s.staleLoad l)).loads = s.loads := (congrArg State.loads hframe :)
  generalize hu : s.countDropped (coreSite l.core) (s.staleLoad l) = u at *
  have hcore : u.core l.core = s.core l.core := congrArg (tget Core.blank · l.core) hcores
  have hpu : u.strand? l.core l.slot = some p := (congrArg (fun k : Core => tfind k.slots l.slot) hcore).trans hp
  have hwu := hw.of_cores hcores
  have hflush := State.flushed_commitRegion hpu hwu
  have hkept : (u.commitRegion l.core l.slot).loads = s.keptLoads l.core p.own p.region := by
    rw [hflush.loads, State.keptLoads, State.keptLoads, hloads]
  refine ⟨(u.loads.filter fun m => m.own == l.own && decide (l.seq ≤ m.seq)).map (·.id), ?_⟩
  rw [← hkept]
  simp only [State.staleOfLoad, hplace, htakes, if_true, hu]
  rw [State.staleFault_of_slot hwu hpu hq, State.commitFault_modPlace]
  simp only [LoadOp.not_from]
  rfl

theorem exec_staleResponse_load {l : LoadOp} (hfind : s.loads.find? (fun m => m.id == l.id) = some l) (hno : s.staleLoad l ≠ .no) :
    exec (.staleResponse l.id) s = .next (s.staleOfLoad l) := by
  show execStaleResponse l.id s = _
  simp [execStaleResponse, hfind, hno]

theorem exec_staleResponse_atom {a : AtomOp} (hloads : ∀ l ∈ s.loads, l.id ≠ a.id) (hfind : s.atom? a.id = some a)
    (hno : s.staleAtom a ≠ .no) : exec (.staleResponse a.id) s = .next
      ({ s.countDropped (coreSite a.core) (s.staleAtom a) with atoms := s.atoms.filter fun b => b.id != a.id
        }.staleOfWait a.core a.id a.pc a.word) := by
  have hnone : s.loads.find? (fun l => l.id == a.id) = none := List.find?_eq_none.mpr fun l hl => by simpa using hloads l hl
  show execStaleResponse a.id s = _
  simp [execStaleResponse, hnone, hfind, hno]

theorem exec_staleResponse_send {m : SendOp} (hloads : ∀ l ∈ s.loads, l.id ≠ m.id) (hatom : s.atom? m.id = none)
    (hfind : s.sends.find? (fun x => x.id == m.id && x.packet.isNone) = some m) (hno : s.staleSend m ≠ .no) :
    exec (.staleResponse m.id) s = .next
      ({ s.countDropped (coreSite m.core) (s.staleSend m) with sends := s.sends.filter fun b => b.id != m.id
        }.staleOfWait m.core m.id m.pc m.word) := by
  have hnone : s.loads.find? (fun l => l.id == m.id) = none := List.find?_eq_none.mpr fun l hl => by simpa using hloads l hl
  show execStaleResponse m.id s = _
  simp only [execStaleResponse, hnone, hatom, hfind]
  exact congrArg _ (if_neg (mt beq_iff_eq.mp hno))

theorem exec_staleResponse_watch {id : Nat} {pl : Place} (hloads : ∀ l ∈ s.loads, l.id ≠ id) (hatom : s.atom? id = none)
    (hsends : ∀ m ∈ s.sends, m.id ≠ id) (hfind : s.staleWatch id = some (c, pl, p)) :
    exec (.staleResponse id) s = .next (s.staleFault c pl p.pc p.word) := by
  have hnone : s.loads.find? (fun l => l.id == id) = none := List.find?_eq_none.mpr fun l hl => by simpa using hloads l hl
  have hsend : s.sends.find? (fun m => m.id == id && m.packet.isNone) = none :=
    List.find?_eq_none.mpr fun m hm => by simp [hsends m hm]
  show execStaleResponse id s = _
  simp only [execStaleResponse, hnone, hatom, hsend, hfind]

end

/-! ### Packets that a router returned (14 R334) -/

theorem mem_mapWhere {α : Type} {p : α → Bool} {f : α → α} {l : List α} {b : α} (h : b ∈ mapWhere p f l) :
    (∃ a ∈ l, p a = true ∧ f a = b) ∨ b ∈ l ∧ p b = false := by
  obtain ⟨a, ha, rfl⟩ := List.mem_map.mp h
  split
  case isTrue hp => exact .inl ⟨a, ha, hp, rfl⟩
  case isFalse hp => exact .inr ⟨ha, Bool.eq_false_iff.mpr hp⟩

theorem mem_mapWhere_of_not {α : Type} {p : α → Bool} {f : α → α} {l : List α} {a : α} (h : a ∈ l) (ha : p a = false) :
    a ∈ mapWhere p f l :=
  List.mem_map.mpr ⟨a, h, by simp [ha]⟩

theorem State.rerouted_reroute (s : State) (id : Nat) (f : Flight) (new : Word) : Rerouted s (s.reroute id f new) id f new := by
  constructor
  case loads =>
    intro l hl hid
    rcases mem_mapWhere hl with ⟨m, -, -, rfl⟩ | ⟨-, hold⟩
    · intro u hu
      obtain ⟨v, -, rfl⟩ := List.mem_map.mp hu
      dsimp only
      split
      case isTrue => exact fun _ _ hne => hne.symm
      case isFalse hv =>
        intro hopen hsite _ hroute
        rw [Bool.and_eq_true, Bool.and_eq_true, beq_iff_eq, beq_iff_eq] at hv
        exact hv ⟨⟨by rw [hopen]; rfl, hroute⟩, hsite⟩
    · exact absurd hid (beq_eq_false_iff_ne.mp hold)
  case writes =>
    intro w hw hid
    rcases mem_mapWhere hw with ⟨v, -, -, rfl⟩ | ⟨-, hold⟩
    · rfl
    · exact absurd hid (beq_eq_false_iff_ne.mp hold)
  case atoms =>
    intro a ha hid hstage
    rcases mem_mapWhere ha with ⟨b, -, -, rfl⟩ | ⟨-, hold⟩
    · rfl
    · rcases hstage with hstage | hstage <;> simp [hid, hstage] at hold
  case sends =>
    intro m hm hid hstage
    rcases mem_mapWhere hm with ⟨b, -, -, rfl⟩ | ⟨-, hold⟩
    · rfl
    · simp [hid, hstage] at hold
  case migs =>
    intro m hm hid
    rcases mem_mapWhere hm with ⟨b, -, -, rfl⟩ | ⟨-, hold⟩
    · rfl
    · exact absurd hid (beq_eq_false_iff_ne.mp hold)
  case others =>
    refine ⟨fun l hl hid => ?_, fun w hw hid => ?_, fun a ha hid => ?_, fun m hm hid => ?_, fun m hm hid => ?_⟩
    · exact mem_mapWhere_of_not hl (beq_eq_false_iff_ne.mpr hid)
    · exact mem_mapWhere_of_not hw (beq_eq_false_iff_ne.mpr hid)
    · exact mem_mapWhere_of_not ha (by simp [hid])
    · exact mem_mapWhere_of_not hm (by simp [hid])
    · exact mem_mapWhere_of_not hm (beq_eq_false_iff_ne.mpr hid)
  case rest => rfl

theorem exec_routedPacketReturn {s : State} {id : Nat} {f : Flight}
    (hfind : (s.flights id).find? (fun f => !s.pathClear f.src f.dst f.route) = some f) :
    exec (.routedPacketReturn id) s = .next (
      if s.routable f.src f.dst then s.reroute id f (s.route f.src f.dst)
      else s.endContext f.asid Code.unreachable.num f.sid) := by
  show execRoutedPacketReturn id s = _
  simp only [execRoutedPacketReturn, hfind]

/-- Settles O40: a pager's reply is one change of its sleeper's slot, STALE is the commit of the region and a fault at the
instruction, and a returned packet is sent again or ends its context. -/
theorem replyEvents : Obligations.ReplyEvents := by
  unfold Obligations.ReplyEvents
  refine ⟨?pager, ⟨?load, ?atom, ?send, ?watch⟩, ?routed⟩
  case pager =>
    intro s r c n p w hfind hop hsleep _ hp hst hq
    have hexec := exec_pageReply_of_sleeper hfind hop hsleep
    generalize hu : { s with pageReplies := s.pageReplies.erase r } = u at hexec ⊢
    have hpu : u.strand? c n = some p := by rw [← hu]; exact hp
    have hslots : SlotsKept s u c n := .of_cores (by rw [← hu]) c n
    refine ⟨fun hphase hcode => ?_, fun code hphase hcode => ?_, fun hphase _ => ?_⟩
    · rw [if_pos hphase, hcode, State.pageAnswer_zero hpu hst] at hexec
      refine ⟨_, hexec, u.strand?_putStrand c n _, hslots.trans (State.slotsKept_modCore_tput rfl), ?_, ?_⟩
      · rw [← hu]
        rfl
      · rw [← hu]
        rfl
    · rw [if_pos hphase, State.pageAnswer_fault hpu hst hq hcode] at hexec
      refine ⟨_, hexec, State.strand?_modCore_tput rfl, ?_, hslots.trans (State.slotsKept_modCore_tput rfl), ?_⟩
      · rw [State.modCore_core, ← hu]
        rfl
      · rw [← hu]
        rfl
    · rw [if_neg hphase] at hexec
      exact ⟨_, hexec, u.replyKept_putReply c _⟩
  case load =>
    intro s l p hw hfind hno hplace hst hp hq
    have htakes : p.takesStale = true := by
      rcases hst with hst | hst <;> simp [Strand.takesStale, hst]
    obtain ⟨gone, hgone⟩ := State.staleOfLoad_of_slot hplace htakes hw hp hq
    obtain ⟨hcount, -⟩ := s.countDropped_frame (coreSite l.core) (s.staleLoad l)
    have hstale := State.staleAt_commitFault (s.countDropped_cores _ _) (s.countDropped_mem _ _) hcount hw hp
      ((p.staleStrand_staleAt l.pc l.word).dropLoads gone)
    refine ⟨_, hgone ▸ exec_staleResponse_load hfind hno, ?_, rfl⟩
    exact ⟨hstale.strand, hstale.queue, hstale.count, ⟨hstale.slots.cores, hstale.slots.slots⟩, hstale.bytes⟩
  case atom =>
    intro s a p hw hloads hfind hno hwait hp hq
    obtain ⟨hcount, -⟩ := s.countDropped_frame (coreSite a.core) (s.staleAtom a)
    obtain ⟨hstale, hatoms, -⟩ := State.staleAt_staleOfWait (pc := a.pc) (w := a.word)
      (u := { s.countDropped (coreSite a.core) (s.staleAtom a) with atoms := s.atoms.filter fun b => b.id != a.id })
      (s.countDropped_cores _ _) (s.countDropped_mem _ _) hcount hwait hw hp hq
    exact ⟨_, exec_staleResponse_atom hloads hfind hno, hstale, hatoms⟩
  case send =>
    intro s m p hw hloads hatom hfind hno hwait hp hq
    obtain ⟨hcount, -⟩ := s.countDropped_frame (coreSite m.core) (s.staleSend m)
    obtain ⟨hstale, -, hsends⟩ := State.staleAt_staleOfWait (pc := m.pc) (w := m.word)
      (u := { s.countDropped (coreSite m.core) (s.staleSend m) with sends := s.sends.filter fun b => b.id != m.id })
      (s.countDropped_cores _ _) (s.countDropped_mem _ _) hcount hwait hw hp hq
    exact ⟨_, exec_staleResponse_send hloads hatom hfind hno, hstale, hsends⟩
  case watch =>
    intro s id c n p hw hloads hatom hsends hfind hp hq
    have hexec := exec_staleResponse_watch hloads hatom hsends hfind
    rw [State.staleFault_of_slot hw hp hq] at hexec
    exact ⟨_, hexec, State.staleAt_commitFault rfl rfl (by simp) hw hp (p.staleStrand_staleAt _ _)⟩
  case routed =>
    intro s id f hfind
    have hexec := exec_routedPacketReturn hfind
    refine ⟨fun hroute => ?_, fun hroute => ?_⟩
    · rw [if_pos hroute] at hexec
      exact ⟨_, hexec, s.rerouted_reroute id f _⟩
    · rw [if_neg (Bool.eq_false_iff.mp hroute)] at hexec
      exact ⟨_, hexec, s.endContext_ends _ _ _⟩

end Sys2Proof.Machine
end

section
/-! Instructions that write one value to a g register and retire: what they give, from any state that follows their start. -/

namespace Sys2Proof.Machine

theorem Begun.valZ {s u : State} (h : Begun s u) (x : Src) : u.valZ x = s.valZ x := by
  cases x <;> simp only [State.valZ, h.val]

theorem Begun.getG {s u : State} (h : Begun s u) (n : Nat) : u.me.getG n = s.me.getG n :=
  (congrArg (Strand.getG · n) h.strand :)

/-- An instruction that writes a value and retires: the value is that of any state that follows its start. -/
theorem State.Calm.puts {i : Instr} {s : State} {o : Ops} {v : Word} {maj fn : Nat} {f : State → Word} (hc : s.Calm)
    (ho : o.regsExist s.me.nreg = true) (hexec : exec i s = .next (s.instr maj fn o fun u => u.putD o (f u)))
    (hv : ∀ u, Begun s u → f u = v) : ∃ t, exec i s = .next t ∧ ScalarDone s t o o.d v := by
  have hdone := State.instr_putD hc maj fn ho f
  rw [hv _ (hc.runs.begun_entered maj fn o)] at hdone
  exact ⟨_, hexec, hdone⟩

end Sys2Proof.Machine
end

section
/-! The results of the integer instructions over the numbers that their operands stand for (05 R119, R121). -/

namespace Sys2Proof.Machine

/-! ### Operands of a form's width -/

section
variable (w : Bool) (a b : Word)

theorem signedVal_eq_toInt : signedVal w a = (a.setWidth (formBits w)).toInt := by
  cases w <;> simp [signedVal, formBits]

theorem unsignedVal_eq_toNat : unsignedVal w a = (a.setWidth (formBits w)).toNat :=
  (BitVec.toNat_setWidth ..).symm

theorem shiftBy_eq_amount : shiftBy w b = amount (formBits w) (b.setWidth (formBits w)) := by
  rw [shiftBy, amount, BitVec.toNat_setWidth, Nat.mod_mod_of_dvd]
  cases w <;> decide

/-- An operation whose result is known modulo its width, whatever that is. -/
theorem alu_eq_register {f : (n : Nat) → BitVec n → BitVec n → BitVec n} {r : Nat → Int}
    (h : ∀ n, 0 < n → f n (a.setWidth n) (b.setWidth n) = BitVec.ofInt n (r n)) : alu w f a b = register w (r (formBits w)) := by
  cases w
  case false =>
    have hfull := h 64 (by decide)
    rw [BitVec.setWidth_eq, BitVec.setWidth_eq] at hfull
    simpa only [alu, register, formBits, Bool.false_eq_true, if_false] using hfull
  case true =>
    simpa only [alu, register, formBits, if_true] using congrArg (BitVec.signExtend 64) (h 32 (by decide))

theorem alu_signed {f : (n : Nat) → BitVec n → BitVec n → BitVec n} (F : Int → Int → Int)
    (h : ∀ {n} (x y : BitVec n), f n x y = BitVec.ofInt n (F x.toInt y.toInt)) :
    alu w f a b = register w (F (signedVal w a) (signedVal w b)) := by
  rw [signedVal_eq_toInt, signedVal_eq_toInt]
  exact alu_eq_register w a b (r := fun n => F (a.setWidth n).toInt (b.setWidth n).toInt) fun _ _ => h _ _

theorem alu_unsigned {f : (n : Nat) → BitVec n → BitVec n → BitVec n} (F : Nat → Nat → Int)
    (h : ∀ {n} (x y : BitVec n), f n x y = BitVec.ofInt n (F x.toNat y.toNat)) :
    alu w f a b = register w (F (unsignedVal w a) (unsignedVal w b)) := by
  rw [unsignedVal_eq_toNat, unsignedVal_eq_toNat]
  exact alu_eq_register w a b (r := fun n => F (a.setWidth n).toNat (b.setWidth n).toNat) fun _ _ => h _ _

/-- A shift or a rotation, by an amount that its form takes from the operand (05 Table 05.2). -/
theorem alu_shift {f : (n : Nat) → BitVec n → Nat → BitVec n} (F : (n : Nat) → BitVec n → Nat → Int)
    (h : ∀ {n} (x : BitVec n) (k : Nat), k < n → f n x k = BitVec.ofInt n (F n x k)) :
    alu w (fun n x y => f n x (amount n y)) a b =
      register w (F (formBits w) (a.setWidth (formBits w)) (shiftBy w b)) := by
  rw [shiftBy_eq_amount]
  exact alu_eq_register w a b (r := fun n => F n (a.setWidth n) (amount n (b.setWidth n)))
    fun _ hn => h _ _ (Nat.mod_lt _ hn)

/-- A bitwise operation may be taken on 64 bits. -/
theorem alu_eq_registerOf {f : (n : Nat) → BitVec n → BitVec n → BitVec n}
    (h : f 32 (a.setWidth 32) (b.setWidth 32) = (f 64 a b).setWidth 32) : alu w f a b = registerOf w (f 64 a b) := by
  cases w
  case false => simp only [alu, registerOf, Bool.false_eq_true, if_false]
  case true => simp only [alu, registerOf, if_true, h]

end

/-! ### Operations of any width as operations on numbers -/

section
variable {n : Nat} (x y : BitVec n) (k : Nat)

theorem add_eq_ofInt : x + y = BitVec.ofInt n (x.toInt + y.toInt) := by
  rw [BitVec.ofInt_add, BitVec.ofInt_toInt, BitVec.ofInt_toInt]

theorem sub_eq_ofInt : x - y = BitVec.ofInt n (x.toInt - y.toInt) := by
  apply BitVec.eq_of_toInt_eq
  rw [BitVec.toInt_sub, BitVec.toInt_ofInt]

theorem shiftLeft_eq_ofInt : x <<< k = BitVec.ofInt n ((x.toNat : Int) * 2 ^ k) := by
  have hcast : (x.toNat : Int) * 2 ^ k = ((x.toNat * 2 ^ k : Nat) : Int) := by push_cast; rfl
  apply BitVec.eq_of_toNat_eq
  rw [hcast, BitVec.ofInt_natCast, BitVec.toNat_ofNat, BitVec.toNat_shiftLeft, Nat.shiftLeft_eq]

theorem ushiftRight_eq_ofInt : x >>> k = BitVec.ofInt n ((x.toNat : Int) / 2 ^ k) := by
  have hcast : (x.toNat : Int) / 2 ^ k = ((x.toNat / 2 ^ k : Nat) : Int) := by push_cast; rfl
  apply BitVec.eq_of_toNat_eq
  rw [hcast, BitVec.ofInt_natCast, BitVec.toNat_ofNat, BitVec.toNat_ushiftRight, Nat.shiftRight_eq_div_pow,
    Nat.mod_eq_of_lt (Nat.lt_of_le_of_lt (Nat.div_le_self _ _) x.isLt)]

theorem sshiftRight_eq_ofInt : x.sshiftRight k = BitVec.ofInt n (x.toInt / 2 ^ k) := by
  rw [← BitVec.ofInt_toInt (x := x.sshiftRight k), BitVec.toInt_sshiftRight, Int.shiftRight_eq_div_pow]
  push_cast
  rfl

/-- A rotation moves the bits that leave at the top to the bottom. -/
theorem rotateLeft_eq_ofInt (hk : k < n) :
    x.rotateLeft k = BitVec.ofInt n ((x.toNat : Int) * 2 ^ k + (x.toNat : Int) / 2 ^ (n - k)) := by
  have hcast : (x.toNat : Int) * 2 ^ k + (x.toNat : Int) / 2 ^ (n - k) =
      ((x.toNat * 2 ^ k + x.toNat / 2 ^ (n - k) : Nat) : Int) := by push_cast; rfl
  have hpow : 2 ^ n = 2 ^ k * 2 ^ (n - k) := by rw [← pow_add, Nat.add_sub_cancel' hk.le]
  have hlow : x.toNat / 2 ^ (n - k) < 2 ^ k := Nat.div_lt_of_lt_mul (by rw [mul_comm, ← hpow]; exact x.isLt)
  have hhigh : x.toNat * 2 ^ k % 2 ^ n = 2 ^ k * (x.toNat % 2 ^ (n - k)) := by
    rw [mul_comm, hpow, Nat.mul_mod_mul_left]
  apply BitVec.eq_of_toNat_eq
  have hsum : 2 ^ k * (x.toNat % 2 ^ (n - k)) + x.toNat / 2 ^ (n - k) < 2 ^ n :=
    calc 2 ^ k * (x.toNat % 2 ^ (n - k)) + x.toNat / 2 ^ (n - k)
        < 2 ^ k * (x.toNat % 2 ^ (n - k) + 1) := by rw [mul_add_one]; omega
      _ ≤ 2 ^ n := by rw [hpow]; exact Nat.mul_le_mul_left _ (Nat.mod_lt _ (by positivity))
  calc (x.rotateLeft k).toNat
      = x.toNat * 2 ^ k % 2 ^ n ||| x.toNat / 2 ^ (n - k) := by
        rw [BitVec.toNat_rotateLeft, Nat.mod_eq_of_lt hk, Nat.shiftLeft_eq, Nat.shiftRight_eq_div_pow]
    _ = 2 ^ k * (x.toNat % 2 ^ (n - k)) + x.toNat / 2 ^ (n - k) := by rw [hhigh, Nat.two_pow_add_eq_or_of_lt hlow]
    _ = (x.toNat * 2 ^ k + x.toNat / 2 ^ (n - k)) % 2 ^ n := by
        rw [← Nat.mod_add_mod, hhigh, Nat.mod_eq_of_lt hsum]
    _ = (BitVec.ofInt n _).toNat := by rw [hcast, BitVec.ofInt_natCast, BitVec.toNat_ofNat]

theorem minS_eq_ofInt : minS n x y = BitVec.ofInt n (min x.toInt y.toInt) := by
  by_cases h : x.toInt < y.toInt
  · rw [minS, if_pos (BitVec.slt_iff_toInt_lt.mpr h), min_eq_left h.le, BitVec.ofInt_toInt]
  · rw [minS, if_neg (mt BitVec.slt_iff_toInt_lt.mp h), min_eq_right (not_lt.mp h), BitVec.ofInt_toInt]

theorem maxS_eq_ofInt : maxS n x y = BitVec.ofInt n (max x.toInt y.toInt) := by
  by_cases h : x.toInt < y.toInt
  · rw [maxS, if_pos (BitVec.slt_iff_toInt_lt.mpr h), max_eq_right h.le, BitVec.ofInt_toInt]
  · rw [maxS, if_neg (mt BitVec.slt_iff_toInt_lt.mp h), max_eq_left (not_lt.mp h), BitVec.ofInt_toInt]

theorem minU_eq_ofInt : minU n x y = BitVec.ofInt n (min x.toNat y.toNat) := by
  rw [← Nat.cast_min, BitVec.ofInt_natCast]
  by_cases h : x.toNat < y.toNat
  · rw [minU, if_pos (BitVec.ult_iff_lt.mpr h), min_eq_left h.le, BitVec.ofNat_toNat, BitVec.setWidth_eq]
  · rw [minU, if_neg (mt BitVec.ult_iff_lt.mp h), min_eq_right (not_lt.mp h), BitVec.ofNat_toNat, BitVec.setWidth_eq]

theorem maxU_eq_ofInt : maxU n x y = BitVec.ofInt n (max x.toNat y.toNat) := by
  rw [← Nat.cast_max, BitVec.ofInt_natCast]
  by_cases h : x.toNat < y.toNat
  · rw [maxU, if_pos (BitVec.ult_iff_lt.mpr h), max_eq_right h.le, BitVec.ofNat_toNat, BitVec.setWidth_eq]
  · rw [maxU, if_neg (mt BitVec.ult_iff_lt.mp h), max_eq_left (not_lt.mp h), BitVec.ofNat_toNat, BitVec.setWidth_eq]

end

/-! ### IMUL (05 R121) -/

section
variable (w : Bool) (a b : Word)

theorem narrow_eq_register (r : Int) : narrow w r = register w r := rfl

theorem mulS_eq_register (f : Int → Int → Int) : mulS w f a b = register w (f (signedVal w a) (signedVal w b)) := by
  cases w <;> simp [mulS, narrow_eq_register, signedOf, wBits, signedVal]

theorem mulU_eq_register (f : Nat → Nat → Nat) :
    mulU w f a b = register w (f (unsignedVal w a) (unsignedVal w b) : Nat) := rfl

/-- The quotient of the least number by −1 wraps to the least number. -/
theorem register_quot (x y : Int) : register w (quot x y) = register w (divRule w x y) := by
  unfold quot divRule
  split
  · rfl
  split
  next h =>
    obtain ⟨rfl, rfl⟩ := h
    cases w <;> decide
  next => rfl

theorem remn_eq_remRule (x y : Int) : remn x y = remRule w x y := by
  unfold remn remRule
  split
  · rfl
  split
  next h =>
    obtain ⟨rfl, rfl⟩ := h
    cases w <;> decide
  next => rw [Int.tmod_def, mul_comm]

theorem register_quotU (x y : Nat) :
    register w (quotU x y : Nat) = register w (if y = 0 then -1 else (x : Int) / y) := by
  unfold quotU
  by_cases h : y = 0
  · rw [if_pos h, if_pos h]
    cases w <;> decide
  · simp [h]

theorem remU_eq_emod (x y : Nat) : ((remU x y : Nat) : Int) = if y = 0 then (x : Int) else (x : Int) % y := by
  unfold remU
  by_cases h : y = 0 <;> simp [h]

end

/-! ### The results -/

section
variable {i : Instr} {s : State} {o p : Ops} {v x : Word} {maj fn : Nat} {f : Word → Word → Word}

/-- An instruction that computes a value of two operands. -/
theorem State.Calm.puts_val (hc : s.Calm) (ho : o.regsExist s.me.nreg = true) (hi : some (p, x) = some (o, v))
    (hexec : exec i s = .next (s.instr maj fn p fun u => u.putD p (f (u.val p.a) (u.val p.b))))
    (hx : f (s.val p.a) (s.val p.b) = x) : ∃ t, exec i s = .next t ∧ ScalarDone s t o o.d v := by
  obtain ⟨rfl, rfl⟩ := Prod.mk.inj (Option.some.inj hi)
  exact hc.puts ho hexec fun u hu => by rw [hu.val, hu.val, hx]

/-- The same with literals zero-extended (05 R119). -/
theorem State.Calm.puts_valZ (hc : s.Calm) (ho : o.regsExist s.me.nreg = true) (hi : some (p, x) = some (o, v))
    (hexec : exec i s = .next (s.instr maj fn p fun u => u.putD p (f (u.valZ p.a) (u.valZ p.b))))
    (hx : f (s.valZ p.a) (s.valZ p.b) = x) : ∃ t, exec i s = .next t ∧ ScalarDone s t o o.d v := by
  obtain ⟨rfl, rfl⟩ := Prod.mk.inj (Option.some.inj hi)
  exact hc.puts ho hexec fun u hu => by rw [hu.valZ, hu.valZ, hx]

/-- Every integer instruction writes the result of its operation and retires. -/
theorem integer_done (hc : s.Calm) (hi : integerRule s i = some (o, v)) (ho : o.regsExist s.me.nreg = true) :
    ∃ t, exec i s = .next t ∧ ScalarDone s t o o.d v := by
  cases i
  case add => exact hc.puts_val ho hi rfl (alu_signed _ _ _ (· + ·) add_eq_ofInt)
  case sub => exact hc.puts_val ho hi rfl (alu_signed _ _ _ (· - ·) sub_eq_ofInt)
  case and => exact hc.puts_valZ ho hi rfl (alu_eq_registerOf _ _ _ BitVec.setWidth_and.symm)
  case or => exact hc.puts_valZ ho hi rfl (alu_eq_registerOf _ _ _ BitVec.setWidth_or.symm)
  case xor => exact hc.puts_valZ ho hi rfl (alu_eq_registerOf _ _ _ BitVec.setWidth_xor.symm)
  case andn => exact hc.puts_valZ ho hi rfl (alu_eq_registerOf _ _ _ (by simp [BitVec.setWidth_not]))
  case shl =>
    refine hc.puts_val ho hi rfl ?_
    rw [unsignedVal_eq_toNat]
    exact alu_shift _ _ _ (fun _ x k => (x.toNat : Int) * 2 ^ k) fun x k _ => shiftLeft_eq_ofInt x k
  case shr =>
    refine hc.puts_val ho hi rfl ?_
    rw [unsignedVal_eq_toNat]
    exact alu_shift _ _ _ (fun _ x k => (x.toNat : Int) / 2 ^ k) fun x k _ => ushiftRight_eq_ofInt x k
  case sar =>
    refine hc.puts_val ho hi rfl ?_
    rw [signedVal_eq_toInt]
    exact alu_shift _ _ _ (fun _ x k => x.toInt / 2 ^ k) fun x k _ => sshiftRight_eq_ofInt x k
  case rol =>
    refine hc.puts_val ho hi rfl ?_
    rw [unsignedVal_eq_toNat]
    exact alu_shift _ _ _ (fun n x k => (x.toNat : Int) * 2 ^ k + (x.toNat : Int) / 2 ^ (n - k)) rotateLeft_eq_ofInt
  case min => exact hc.puts_val ho hi rfl (alu_signed _ _ _ min minS_eq_ofInt)
  case max => exact hc.puts_val ho hi rfl (alu_signed _ _ _ max maxS_eq_ofInt)
  case minu => exact hc.puts_val ho hi rfl (alu_unsigned _ _ _ (fun x y => min (x : Int) y) minU_eq_ofInt)
  case maxu => exact hc.puts_val ho hi rfl (alu_unsigned _ _ _ (fun x y => max (x : Int) y) maxU_eq_ofInt)
  case mul => exact hc.puts_val ho hi rfl (mulS_eq_register _ _ _ _)
  case mulh w _ => exact hc.puts_val ho hi rfl (mulS_eq_register w _ _ fun x y => x * y / 2 ^ formBits w)
  case mulhu w _ =>
    refine hc.puts_val ho hi rfl ((mulU_eq_register w _ _ _).trans ?_)
    push_cast
    rfl
  case div => exact hc.puts_val ho hi rfl ((mulS_eq_register _ _ _ _).trans (register_quot _ _ _))
  case divu => exact hc.puts_val ho hi rfl ((mulU_eq_register _ _ _ _).trans (register_quotU _ _ _))
  case rem => exact hc.puts_val ho hi rfl ((mulS_eq_register _ _ _ _).trans (congrArg _ (remn_eq_remRule _ _ _)))
  case remu => exact hc.puts_val ho hi rfl ((mulU_eq_register _ _ _ _).trans (congrArg _ (remU_eq_emod _ _)))
  all_goals exact nomatch hi

end

/-- Settles O1: each operation on a form's width is an operation on the numbers that its operands stand for. -/
theorem integerResults : Obligations.IntegerResults := fun _ _ _ _ hc hi ho => integer_done hc hi ho

end Sys2Proof.Machine
end

section
/-! The results of the bit instructions, bit by bit or by what they count (05 Table 05.4). -/

namespace Sys2Proof.Machine

/-! ### Counts -/

/-- The first number below a bound at which a predicate holds, else the bound. -/
theorem find?_range_getD (p : Nat → Bool) (n : Nat) : ((List.range n).find? p).getD n ≤ n ∧
    (∀ i, i < ((List.range n).find? p).getD n → p i = false) ∧
    (((List.range n).find? p).getD n < n → p (((List.range n).find? p).getD n) = true) := by
  cases h : (List.range n).find? p with
  | none =>
    rw [List.find?_range_eq_none] at h
    exact ⟨le_rfl, fun i hi => by simpa using h i hi, fun hn => absurd hn (lt_irrefl n)⟩
  | some k =>
    obtain ⟨hp, hk, hbefore⟩ := List.find?_range_eq_some.mp h
    exact ⟨(List.mem_range.mp hk).le, fun i hi => by simpa using hbefore i hi, fun _ => hp⟩

theorem toNat_toWord_of_le {n : Nat} (h : n ≤ 64) : (toWord n).toNat = n := by
  rw [BitVec.toNat_ofNat, Nat.mod_eq_of_lt (by omega)]

theorem bitCount_eq_length (n x : Nat) : bitCount n x = ((List.range n).filter fun i => x.testBit i).length := by
  induction n generalizing x with
  | zero => rfl
  | succ n ih =>
    have hsucc : (fun i => x.testBit i) ∘ Nat.succ = fun i => (x / 2).testBit i := funext fun i => Nat.testBit_succ x i
    rw [bitCount, ih, List.range_succ_eq_map, List.filter_cons, List.filter_map, hsucc]
    by_cases h : x.testBit 0
    · have hodd : x % 2 = 1 := by simpa [Nat.testBit_zero] using h
      rw [if_pos h, List.length_cons, List.length_map, hodd, add_comm]
    · have heven : x % 2 = 0 := by simpa [Nat.testBit_zero] using h
      rw [if_neg h, List.length_map, heven, zero_add]

theorem popc_le (a : Word) : popc a ≤ 64 := by
  rw [popc, bitCount_eq_length]
  exact (List.length_filter_le ..).trans (List.length_range ..).le

/-! ### Bits -/

/-- A number given by its bits, the highest first. -/
theorem testBit_sum_rev (n : Nat) (c : Nat → Bool) :
    let x := ((List.range n).map fun i => if c i then 2 ^ (n - 1 - i) else 0).sum
    x < 2 ^ n ∧ ∀ j, j < n → x.testBit j = c (n - 1 - j) := by
  induction n generalizing c with
  | zero => simp
  | succ n ih =>
    obtain ⟨hlt, hbit⟩ := ih (c ∘ Nat.succ)
    have htail : (fun i => if c i then 2 ^ (n + 1 - 1 - i) else 0) ∘ Nat.succ =
        fun i => if (c ∘ Nat.succ) i then 2 ^ (n - 1 - i) else 0 := by
      funext i
      simp only [Function.comp_apply, Nat.add_sub_cancel]
      congr 2
      omega
    have hhead : (if c 0 then 2 ^ (n + 1 - 1 - 0) else 0) = 2 ^ n * (c 0).toNat := by
      cases c 0 <;> simp
    dsimp only at hlt hbit ⊢
    rw [List.range_succ_eq_map, List.map_cons, List.map_map, htail, List.sum_cons, hhead]
    generalize ((List.range n).map fun i => if (c ∘ Nat.succ) i then 2 ^ (n - 1 - i) else 0).sum = y at hlt hbit ⊢
    refine ⟨?_, fun j hj => ?_⟩
    · have hone : (c 0).toNat ≤ 1 := Bool.toNat_le _
      rw [pow_succ]
      nlinarith
    · rw [Nat.testBit_two_pow_mul_add _ hlt]
      split
      · next hjn =>
        rw [hbit j hjn]
        exact congrArg c (by omega)
      · next hjn =>
        obtain rfl : j = n := by omega
        cases h : c 0 <;> simp [h]

theorem getLsbD_brev (a : Word) {i : Nat} (hi : i < 64) : (brev a).getLsbD i = a.getLsbD (63 - i) := by
  obtain ⟨-, hbit⟩ := testBit_sum_rev 64 a.getLsbD
  rw [brev, BitVec.getLsbD_ofNat, hbit i hi]
  simp [hi]

theorem testBit_leNat (l : List Byte) (i : Nat) : (leNat l).testBit i = ((l[i / 8]?).getD 0).getLsbD (i % 8) := by
  induction l generalizing i with
  | nil => simp [leNat]
  | cons b l ih =>
    rw [leNat, add_comm, show 256 = 2 ^ 8 from rfl, Nat.testBit_two_pow_mul_add _ b.isLt]
    split
    · next h =>
      rw [Nat.div_eq_of_lt h, Nat.mod_eq_of_lt h]
      rfl
    · next h =>
      have hdiv : i / 8 = (i - 8) / 8 + 1 := by omega
      have hmod : i % 8 = (i - 8) % 8 := by omega
      rw [ih, hdiv, hmod]
      rfl

theorem getElem?_leBytes (n x k : Nat) (h : k < n) : (leBytes n x)[k]? = some (BitVec.ofNat 8 (x / 256 ^ k)) := by
  induction n generalizing x k with
  | zero => omega
  | succ n ih =>
    cases k with
    | zero => simp [leBytes]
    | succ k =>
      rw [leBytes, List.getElem?_cons_succ, ih _ _ (by omega), Nat.div_div_eq_div_mul, pow_succ']

theorem getLsbD_bswap (a : Word) {i : Nat} (hi : i < 64) : (bswap a).getLsbD i = a.getLsbD (8 * (7 - i / 8) + i % 8) := by
  have hbyte : (leBytes 8 a.toNat).reverse[i / 8]? = some (BitVec.ofNat 8 (a.toNat / 256 ^ (7 - i / 8))) := by
    rw [List.getElem?_reverse (by rw [leBytes_length]; omega), leBytes_length, getElem?_leBytes _ _ _ (by omega)]
  have hpow : 256 ^ (7 - i / 8) = 2 ^ (8 * (7 - i / 8)) := by rw [pow_mul]; rfl
  rw [bswap, BitVec.getLsbD_ofNat, testBit_leNat, hbyte, Option.getD_some, BitVec.getLsbD_ofNat, hpow, Nat.testBit_div_two_pow]
  simp [hi, Nat.mod_lt, BitVec.getLsbD, add_comm]

theorem getLsbD_sextFrom (a : Word) {p i : Nat} (hi : i < 64) : (sextFrom a p).getLsbD i = a.getLsbD (min i p) := by
  change ((BitVec.ofNat (p + 1) a.toNat).signExtend 64).getLsbD i = _
  rw [BitVec.getLsbD_signExtend, BitVec.msb_eq_getLsbD_last, BitVec.getLsbD_ofNat, BitVec.getLsbD_ofNat]
  by_cases h : i < p + 1
  · rw [if_pos h, min_eq_left (by omega)]
    simp [hi, h, BitVec.getLsbD]
  · rw [if_neg h, min_eq_right (by omega)]
    simp [hi, BitVec.getLsbD]

theorem getLsbD_extb (a : Word) (p n : Nat) {i : Nat} (hi : i < 64) :
    (extb a p n).getLsbD i = (decide (i < n) && a.getLsbD (p + i)) := by
  rw [extb, bitsOf, BitVec.getLsbD_ofNat, Nat.testBit_mod_two_pow, Nat.testBit_div_two_pow, add_comm]
  simp [hi, BitVec.getLsbD]

theorem getLsbD_insb (d a : Word) (p n : Nat) {i : Nat} (hi : i < 64) :
    (insb d a p n).getLsbD i = if p ≤ i ∧ i < p + n then a.getLsbD (i - p) else d.getLsbD i := by
  have hfield : (toWord ((2 ^ n - 1) * 2 ^ p)).getLsbD i = decide (p ≤ i ∧ i < p + n) := by
    rw [BitVec.getLsbD_ofNat, Nat.testBit_mul_two_pow, Nat.testBit_two_pow_sub_one, decide_eq_true hi, Bool.true_and,
      ← Bool.decide_and, decide_eq_decide]
    exact and_congr_right fun hle => Nat.sub_lt_iff_lt_add' hle
  unfold insb
  dsimp only
  rw [BitVec.getLsbD_or, BitVec.getLsbD_and, BitVec.getLsbD_and, BitVec.getLsbD_not, hfield, BitVec.getLsbD_shiftLeft]
  by_cases h : p ≤ i ∧ i < p + n
  · simp [hi, h]
  · simp [hi, h]

/-! ### The results -/

section
variable {i : Instr} {s : State} {o p : Ops} {P Q : Word → Prop} {maj fn : Nat} {f : State → Word}

/-- An instruction that computes a value of which a rule says what it is. -/
theorem State.Calm.puts_such (hc : s.Calm) (ho : o.regsExist s.me.nreg = true) (hi : some (p, Q) = some (o, P)) (v : Word)
    (hexec : exec i s = .next (s.instr maj fn p fun u => u.putD p (f u))) (hv : ∀ u, Begun s u → f u = v) (hQ : Q v) :
    ∃ t v, exec i s = .next t ∧ P v ∧ ScalarDone s t o o.d v := by
  obtain ⟨rfl, rfl⟩ := Prod.mk.inj (Option.some.inj hi)
  obtain ⟨t, ht, hdone⟩ := hc.puts ho hexec hv
  exact ⟨t, v, ht, hQ, hdone⟩

theorem wfld_eq_mod (x : Word) (n : Nat) : wfld x 0 n = x.toNat % 2 ^ n := by
  rw [wfld, bitsOf, pow_zero, Nat.div_one]

theorem fieldLen_eq (x : Word) : fieldLen x = if x.toNat % 64 = 0 then 64 else x.toNat % 64 := by
  rw [fieldLen, wfld_eq_mod]
  rfl

/-- Every bit instruction writes what its rule says and retires. -/
theorem bit_done (hc : s.Calm) (hi : bitRule s i = some (o, P)) (ho : o.regsExist s.me.nreg = true) :
    ∃ t v, exec i s = .next t ∧ P v ∧ ScalarDone s t o o.d v := by
  cases i
  case clz p =>
    have hfirst := find?_range_getD (fun i => (s.val p.a).getLsbD (63 - i)) 64
    refine hc.puts_such ho hi (toWord (clz (s.val p.a))) rfl (fun u hu => by rw [hu.val]) ?_
    rw [toNat_toWord_of_le (n := clz (s.val p.a)) hfirst.1]
    exact hfirst
  case ctz p =>
    have hfirst := find?_range_getD (s.val p.a).getLsbD 64
    refine hc.puts_such ho hi (toWord (ctz (s.val p.a))) rfl (fun u hu => by rw [hu.val]) ?_
    rw [toNat_toWord_of_le (n := ctz (s.val p.a)) hfirst.1]
    exact hfirst
  case popc p =>
    refine hc.puts_such ho hi (toWord (popc (s.val p.a))) rfl (fun u hu => by rw [hu.val]) ?_
    rw [toNat_toWord_of_le (popc_le _)]
    exact bitCount_eq_length _ _
  case brev => exact hc.puts_such ho hi _ rfl (fun u hu => by rw [hu.val]) fun _ => getLsbD_brev _
  case bswap => exact hc.puts_such ho hi _ rfl (fun u hu => by rw [hu.val]) fun _ => getLsbD_bswap _
  case sext p =>
    refine hc.puts_such ho hi _ rfl (fun u hu => by rw [hu.val, hu.val]) fun _ hlt => ?_
    rw [wfld_eq_mod]
    exact getLsbD_sextFrom _ hlt
  case extb p =>
    refine hc.puts_such ho hi _ rfl (fun u hu => by rw [hu.val, hu.val, hu.val]) fun _ hlt => ?_
    rw [wfld_eq_mod, fieldLen_eq]
    exact getLsbD_extb _ _ _ hlt
  case insb p =>
    refine hc.puts_such ho hi _ rfl (fun u hu => by rw [hu.getG, hu.val, hu.val, hu.val]) fun _ hlt => ?_
    rw [wfld_eq_mod, fieldLen_eq]
    exact getLsbD_insb _ _ _ _ hlt
  all_goals exact nomatch hi

end

end Sys2Proof.Machine
end

section
/-! The results of compares, selects, moves, address formation and RDTIME (05 R124, R125, R140). -/

namespace Sys2Proof.Machine

theorem boolWord_eq_ite (p : Prop) [Decidable p] {b : Bool} (h : b = true ↔ p) : boolWord b = if p then 1 else 0 := by
  unfold boolWord
  exact if_congr h rfl rfl

theorem boolWord_not (p : Prop) [Decidable p] {b : Bool} (h : b = true ↔ p) : boolWord (!b) = if p then 0 else 1 := by
  by_cases hp : p
  · rw [h.mpr hp, if_pos hp]
    rfl
  · rw [eq_false_of_ne_true (mt h.mp hp), if_neg hp]
    rfl

/-- MOVI.H: a high half and a low half. -/
theorem append_halves (a d : Word) : (a.setWidth 32 ++ d.setWidth 32 : BitVec 64) =
    BitVec.ofNat 64 (a.toNat % 2 ^ 32 * 2 ^ 32 + d.toNat % 2 ^ 32) := by
  have hlow : d.toNat % 2 ^ 32 < 2 ^ 32 := Nat.mod_lt _ (by decide)
  apply BitVec.eq_of_toNat_eq
  rw [BitVec.toNat_append, BitVec.toNat_setWidth, BitVec.toNat_setWidth, BitVec.toNat_ofNat, Nat.shiftLeft_eq, mul_comm,
    ← Nat.two_pow_add_eq_or_of_lt hlow]
  omega

section
variable {i : Instr} {s : State} {o p : Ops} {v x : Word} {maj fn : Nat} {f : State → Word}

/-- An instruction that computes the value of its rule. -/
theorem State.Calm.puts_rule (hc : s.Calm) (ho : o.regsExist s.me.nreg = true) (hi : some (p, x) = some (o, v))
    (hexec : exec i s = .next (s.instr maj fn p fun u => u.putD p (f u))) (hv : ∀ u, Begun s u → f u = x) :
    ∃ t, exec i s = .next t ∧ ScalarDone s t o o.d v := by
  obtain ⟨rfl, rfl⟩ := Prod.mk.inj (Option.some.inj hi)
  exact hc.puts ho hexec hv

/-- Every compare, select, move, address and time instruction writes the value of its rule and retires. -/
theorem move_done (hc : s.Calm) (hi : moveRule s i = some (o, v)) (ho : o.regsExist s.me.nreg = true) :
    ∃ t, exec i s = .next t ∧ ScalarDone s t o o.d v := by
  cases i
  case cmpEq => exact hc.puts_rule ho hi rfl fun u hu => by rw [hu.val, hu.val]; exact boolWord_eq_ite _ beq_iff_eq
  case cmpNe => exact hc.puts_rule ho hi rfl fun u hu => by rw [hu.val, hu.val]; exact boolWord_not _ beq_iff_eq
  case cmpLt => exact hc.puts_rule ho hi rfl fun u hu => by rw [hu.val, hu.val]; exact boolWord_eq_ite _ BitVec.slt_iff_toInt_lt
  case cmpGe => exact hc.puts_rule ho hi rfl fun u hu => by rw [hu.val, hu.val]; exact boolWord_not _ BitVec.slt_iff_toInt_lt
  case cmpLtu => exact hc.puts_rule ho hi rfl fun u hu => by rw [hu.val, hu.val]; exact boolWord_eq_ite _ BitVec.ult_iff_lt
  case cmpGeu => exact hc.puts_rule ho hi rfl fun u hu => by rw [hu.val, hu.val]; exact boolWord_not _ BitVec.ult_iff_lt
  case sel =>
    refine hc.puts_rule ho hi rfl fun u hu => ?_
    rw [hu.val, hu.val, hu.val]
    simp only [bne_iff_ne, ite_not]
  case mov => exact hc.puts_rule ho hi rfl fun u hu => hu.val _
  case movi => exact hc.puts_rule ho hi rfl fun u hu => hu.val _
  case moviH =>
    refine hc.puts_rule ho hi rfl fun u hu => ?_
    rw [hu.val, hu.getG]
    exact append_halves _ _
  case lea => exact hc.puts_rule ho hi rfl fun u hu => hu.ea _ _
  case addpc => exact hc.puts_rule ho hi rfl fun u hu => by rw [hu.pc, hu.val]
  case rdtime => exact hc.puts_rule ho hi rfl fun u hu => (congrArg (fun t : State => t.spine.time) hu.only.rest :)
  case rdtimeCc => exact hc.puts_rule ho hi rfl fun u hu => (congrArg Core.cc hu.only.cores.mine :)
  all_goals exact nomatch hi

end

/-- Settles O2: each instruction writes the value of its operands, whose bits, counts or numbers the rule gives. -/
theorem bitAndMoveResults : Obligations.BitAndMoveResults :=
  ⟨fun _ _ _ _ hc hi ho => bit_done hc hi ho, fun _ _ _ _ hc hi ho => move_done hc hi ho⟩

end Sys2Proof.Machine
end

section
/-! What an instruction of which only the strand, its g registers and the counters of its core change leaves: one rule for each
operation on the state. -/

namespace Sys2Proof.Machine

/-- Of a strand, the write of its g destination (01 R24). -/
def Strand.setD (p : Strand) (d : Dst) (v : Word) : Strand :=
  match d with
  | .g n => p.setG n.toNat v
  | _ => p

@[simp] theorem Strand.setD_pc (p : Strand) (d : Dst) (v : Word) : (p.setD d v).pc = p.pc := by cases d <;> rfl
@[simp] theorem Strand.setD_stepping (p : Strand) (d : Dst) (v : Word) : (p.setD d v).stepping = p.stepping := by
  cases d <;> rfl
@[simp] theorem Strand.setD_word (p : Strand) (d : Dst) (v : Word) : (p.setD d v).word = p.word := by cases d <;> rfl

theorem Strand.wrote_eq (p : Strand) (d : Dst) (v : Word) : p.wrote d v = (p.setD d v).retire := by cases d <;> rfl

theorem Strand.wrote_setD (p : Strand) (d : Dst) (v : Word) : p.Wrote (p.setD d v) d v := fun n hn => by
  cases d
  case g m => exact (vget_vset_any 0 p.g m.toNat n v hn).trans (if_congr eq_comm rfl rfl)
  all_goals rfl

/-- A write speaks of nothing but the g registers. -/
theorem Strand.Wrote.of_g {p p' q q' : Strand} {d : Dst} {v : Word} (h : p.Wrote q d v) (hp : p'.g = p.g) (hq : q'.g = q.g) :
    p'.Wrote q' d v := fun n hn => by
  have hn := h n hn
  unfold Strand.getG at hn ⊢
  rw [hp, hq, hn]

/-- `t` follows `s` within an instruction that changes only the executing strand, which is now `p`, and the counters of its core,
of which some have advanced. -/
structure StrandStep (s t : State) (p : Strand) (add : List (Nat × Nat)) : Prop where
  runs : t.Runs
  me : t.me = p
  only : OnlyStrand s t
  perf : Counted s.myCore t.myCore add

section
variable {s t : State} {p : Strand} {add : List (Nat × Nat)}

theorem StrandStep.refl (hr : s.Runs) : StrandStep s s s.me [] :=
  ⟨hr, rfl, ⟨rfl, fun _ => rfl, fun _ _ => rfl, rfl, fun _ _ => rfl⟩, Counted.refl _⟩

theorem State.Runs.strandStep_modMe (hr : s.Runs) (f : Strand → Strand) : StrandStep s (s.modMe f) (f s.me) [] :=
  ⟨State.runs_modMe hr f, State.me_modMe hr f, s.onlyStrand_modMe f, s.counted_modMe f⟩

theorem StrandStep.modMe (h : StrandStep s t p add) (f : Strand → Strand) : StrandStep s (t.modMe f) (f p) add where
  runs := State.runs_modMe h.runs f
  me := by rw [State.me_modMe h.runs, h.me]
  only := h.only.trans (t.onlyStrand_modMe f)
  perf := by
    have hperf := h.perf.trans (t.counted_modMe f) h.only.counting
    rwa [List.append_nil] at hperf

theorem StrandStep.count (h : StrandStep s t p add) (n k : Nat) :
    StrandStep s (t.count t.cur.1 n k) p (add ++ [(n, k)]) where
  runs := by
    rw [State.Runs, State.count_cur, State.strand?_count]
    exact h.runs
  me := (t.me_count _ n k).trans h.me
  only := h.only.trans (t.onlyStrand_count n k)
  perf := h.perf.trans (t.counted_count n k) h.only.counting

theorem StrandStep.quiet (h : StrandStep s t p add) (hq : s.Quiet) (hp : p.stepping = s.me.stepping) : t.Quiet where
  watch i hi := by
    have hwp : t.myCore.wp = s.myCore.wp := (congrArg Core.wp h.only.cores.mine :)
    rw [hwp]
    exact hq.watch i hi
  step := by rw [h.me, hp, hq.step]

theorem StrandStep.setD (h : StrandStep s t p add) (hq : t.Quiet) (d : Dst) (v : Word) :
    StrandStep s (t.setD d v) (p.setD d v) add := by
  cases d
  case g n =>
    have hwatch := (hq.modMe h.runs (f := fun q => q.setG n.toNat v) fun _ => rfl).watchG t.cur.2 n.toNat
    rw [State.modMe_cur] at hwatch
    have hset : t.setD (.g n) v = t.modMe fun q => q.setG n.toNat v := hwatch
    rw [hset]
    exact h.modMe _
  all_goals exact h

theorem StrandStep.retireTo (h : StrandStep s t p add) (hq : p.stepping = false) (pc : Word) :
    StrandStep s (t.retireTo pc) (p.retireTo pc) (add ++ [(2, 1)]) := by
  have hretired := (h.modMe (·.retireTo pc)).count 2 1
  rw [State.modMe_cur] at hretired
  rwa [State.retireTo_quiet h.runs (by rw [h.me, hq])]

theorem StrandStep.retire (h : StrandStep s t p add) (hq : p.stepping = false) :
    StrandStep s t.retire p.retire (add ++ [(2, 1)]) := by
  have hretired := h.retireTo hq (p.pc + toWord p.word.bytes)
  rw [← h.me] at hretired ⊢
  exact hretired

end

/-- The start of an instruction whose registers exist. -/
theorem State.Calm.strandStep_entered {s : State} (hc : s.Calm) (maj fn : Nat) (o : Ops) :
    StrandStep s (s.modMe fun p => p.entered maj fn o) (s.me.entered maj fn o) [] :=
  hc.runs.strandStep_modMe fun p => p.entered maj fn o

end Sys2Proof.Machine
end

section
/-! Transfers of control (05 R126 to R129). -/

namespace Sys2Proof.Machine

/-! ### The state that a transfer leads to -/

/-- The g destination that a transfer writes. -/
def Transfer.dst (x : Transfer) : Dst := if x.link.isSome then x.ops.d else .none

/-- What a transfer does to the state after its start: its link, and the jump or the retirement. -/
def Transfer.apply (x : Transfer) (u : State) : State :=
  if x.taken then (u.setD x.dst (x.link.getD 0)).jump x.ret x.dest else (u.setD x.dst (x.link.getD 0)).retire

/-- The mark of the last transfer taken (05 R128). -/
def Strand.marked (p : Strand) (ret : Bool) : Strand := { p with lastRet := ret }

/-- The strand after a transfer. -/
def Transfer.strand (x : Transfer) (p : Strand) : Strand :=
  if x.taken then ((p.setD x.dst (x.link.getD 0)).marked x.ret).retireTo x.dest else (p.setD x.dst (x.link.getD 0)).retire

section
variable {s t : State} {p : Strand} {add : List (Nat × Nat)}

theorem StrandStep.jump (h : StrandStep s t p add) (hq : p.stepping = false) (ret : Bool) (dest : Word) :
    StrandStep s (t.jump ret dest) ((p.marked ret).retireTo dest)
      (add ++ [(9, 1)] ++ (if ret then [(10, 1)] else []) ++ [(2, 1)]) := by
  have hmarked := (h.modMe (·.marked ret)).count 9 1
  have hstep : (p.marked ret).stepping = false := hq
  cases ret
  · rw [if_neg Bool.false_ne_true, List.append_nil]
    exact hmarked.retireTo hstep dest
  · exact (hmarked.count 10 1).retireTo hstep dest

theorem StrandStep.transfer (h : StrandStep s t p []) (hq : t.Quiet) (x : Transfer) :
    StrandStep s (x.apply t) (x.strand p)
      ((if x.taken then [(9, 1)] else []) ++ (if x.taken && x.ret then [(10, 1)] else []) ++ [(2, 1)]) := by
  have hset := h.setD hq x.dst (x.link.getD 0)
  have hstep : (p.setD x.dst (x.link.getD 0)).stepping = false := by rw [Strand.setD_stepping, ← h.me, hq.step]
  unfold Transfer.apply Transfer.strand
  cases x.taken
  · exact hset.retire hstep
  · exact hset.jump hstep x.ret x.dest

end

/-! ### What a transfer leaves -/

/-- The strand at a PC and with a mark of its last transfer. -/
def Strand.movedTo (p : Strand) (pc : Word) (ret : Bool) : Strand := { p with pc, lastRet := ret }

/-- But for its PC and its mark, the strand is that of an instruction which writes a register and retires. -/
theorem Transfer.strand_eq (x : Transfer) (p : Strand) : x.strand p = (p.wrote x.dst (x.link.getD 0)).movedTo
    (if x.taken then x.dest else p.pc + toWord p.word.bytes) (if x.taken then x.ret else p.lastRet) := by
  have hlast : (p.setD x.dst (x.link.getD 0)).lastRet = p.lastRet := by cases x.dst <;> rfl
  have hpc := p.setD_pc x.dst (x.link.getD 0)
  have hword := p.setD_word x.dst (x.link.getD 0)
  rw [Strand.wrote_eq, ← hlast, ← hpc, ← hword]
  unfold Transfer.strand
  split <;> rfl

/-- The PC and the mark are none of what an instruction that writes a register leaves. -/
theorem StrandKept.movedTo {p q : Strand} (h : StrandKept p q) (pc : Word) : StrandKept p (q.movedTo pc p.lastRet) :=
  ⟨(congrArg (fun r : Strand => { r with lastRet := p.lastRet }) h.rest :), h.board, h.due, h.ckpt, h.first⟩

theorem Transfer.done {s : State} (hc : s.Calm) (maj fn : Nat) (x : Transfer) :
    TransferDone s (x.apply (s.modMe fun p => p.entered maj fn x.ops)) x := by
  have hentered := hc.strandStep_entered maj fn x.ops
  have hstep := hentered.transfer (hentered.quiet hc.quiet (s.me.entered_stepping maj fn x.ops)) x
  have hme := hstep.me
  have hlast : (s.me.entered maj fn x.ops).lastRet = s.me.lastRet :=
    (congrArg Strand.lastRet (s.me.entered_frame maj fn x.ops) :)
  rw [Transfer.strand_eq, Strand.entered_pc, Strand.entered_word, lenCode_bytes, hlast] at hme
  constructor
  case wrote =>
    refine ((s.me.entered maj fn x.ops).wrote_setD _ _).of_g (s.me.entered_g maj fn x.ops).symm ?_
    rw [hme, Strand.wrote_eq]
    rfl
  case retired =>
    rw [hme]
    refine ⟨rfl, Strand.wrote_st (s.me.entered maj fn x.ops) x.dst (x.link.getD 0), ?_⟩
    rw [← (s.me.withinLanes_entered maj fn x.ops).retired]
    cases x.dst <;> rfl
  case strand =>
    rw [hme]
    exact (s.me.kept_wrote maj fn x.ops x.dst (x.link.getD 0)).movedTo _
  case mark =>
    rw [hme]
    rfl
  case only => exact hstep.only
  case perf => exact hstep.perf.perm List.perm_append_comm

/-! ### The instructions -/

section
variable {s u : State}

/-- The target of a PC-relative transfer (01 R36). -/
theorem Begun.target (h : Begun s u) (off : BitVec 32) : u.target off = pcRelative s off := by
  have hfour : off.signExtend 64 * 4 = BitVec.ofInt 64 (off.toInt * 4) := by
    rw [BitVec.ofInt_mul]
    rfl
  rw [State.target, pcRelative, h.pc, hfour]

theorem Begun.quiet (h : Begun s u) (hq : s.Quiet) : u.Quiet where
  watch i hi := by
    have hwp : u.myCore.wp = s.myCore.wp := (congrArg Core.wp h.only.cores.mine :)
    rw [hwp]
    exact hq.watch i hi
  step := h.stepping.trans hq.step

theorem State.target_setD (hr : u.Runs) (hq : u.Quiet) (d : Dst) (v : Word) (off : BitVec 32) :
    (u.setD d v).target off = u.target off := by
  rw [State.target, State.target, ((StrandStep.refl hr).setD hq d v).me, Strand.setD_pc]

/-- A branch that writes no link. -/
theorem Transfer.apply_unlinked {o : Ops} {off : BitVec 32} {b taken : Bool} {dest : Word} (hdest : u.target off = dest)
    (hb : b = taken) : u.branch off b = (⟨o, dest, taken, none, false⟩ : Transfer).apply u := by
  subst hdest hb
  cases b <;> rfl

/-- A branch, with the link that precedes it. -/
theorem Transfer.apply_linked (hr : u.Runs) (hq : u.Quiet) {o : Ops} {off : BitVec 32} {b taken : Bool} {dest v : Word}
    (hdest : u.target off = dest) (hb : b = taken) :
    (u.setD o.d v).branch off b = (⟨o, dest, taken, some v, false⟩ : Transfer).apply u := by
  rw [State.branch, State.target_setD hr hq]
  subst hdest hb
  cases b <;> rfl

theorem State.indirect_of_aligned {ret : Bool} {t : Word} (ht : t.toNat % 4 = 0) (link : State → State) :
    u.indirect ret t link = (link u).jump ret t := if_neg (not_not_intro ht)

variable {i : Instr} {x y : Transfer} {maj fn : Nat} {body : State → State}

/-- An instruction whose effect, from any state that follows its start, is a transfer. -/
theorem State.Calm.transfers (hc : s.Calm) (ho : x.ops.regsExist s.me.nreg = true) (hi : some y = some x)
    (hexec : exec i s = .next (s.instr maj fn y.ops body)) (hbody : ∀ u, Begun s u → body u = y.apply u) :
    ∃ t, exec i s = .next t ∧ TransferDone s t x := by
  obtain rfl := Option.some.inj hi
  refine ⟨_, hexec, ?_⟩
  rw [State.instr_ok hc.runs maj fn ho, hbody _ (hc.runs.begun_entered maj fn y.ops)]
  exact y.done hc maj fn

/-- A conditional branch without a link. -/
theorem State.Calm.branches {off : BitVec 32} {o : Ops} {p : Prop} [Decidable p] {b : State → Bool} (hc : s.Calm)
    (ho : x.ops.regsExist s.me.nreg = true) (hi : some ⟨o, pcRelative s off, decide p, none, false⟩ = some x)
    (hexec : exec i s = .next (s.instr maj fn o fun u => u.branch off (b u))) (hb : ∀ u, Begun s u → (b u = true ↔ p)) :
    ∃ t, exec i s = .next t ∧ TransferDone s t x :=
  hc.transfers ho hi hexec fun u hu => Transfer.apply_unlinked (hu.target off)
    (Bool.eq_iff_iff.mpr ((hb u hu).trans decide_eq_true_iff.symm))

theorem not_slt_iff {a b : Word} : (!a.slt b) = true ↔ b.toInt ≤ a.toInt := by
  rw [Bool.not_eq_true', ← Bool.not_eq_true, BitVec.slt_iff_toInt_lt, not_lt]

theorem not_ult_iff {a b : Word} : (!a.ult b) = true ↔ b.toNat ≤ a.toNat := by
  rw [Bool.not_eq_true', ← Bool.not_eq_true, BitVec.ult_iff_lt, BitVec.lt_def, not_lt]

/-- Every transfer goes where its rule says. -/
theorem transfer_done (hc : s.Calm) (hi : transferRule s i = some x) (ho : x.ops.regsExist s.me.nreg = true)
    (hal : (indirectFn i).isSome = true → x.dest.toNat % 4 = 0) : ∃ t, exec i s = .next t ∧ TransferDone s t x := by
  cases i
  case bccEq => exact hc.branches ho hi rfl fun u hu => by rw [hu.val, hu.val, beq_iff_eq]
  case bccNe => exact hc.branches ho hi rfl fun u hu => by rw [hu.val, hu.val, bne_iff_ne]
  case bccLt => exact hc.branches ho hi rfl fun u hu => by rw [hu.val, hu.val, BitVec.slt_iff_toInt_lt]
  case bccGe => exact hc.branches ho hi rfl fun u hu => by rw [hu.val, hu.val, not_slt_iff]
  case bccLtu => exact hc.branches ho hi rfl fun u hu => by rw [hu.val, hu.val, BitVec.ult_iff_lt, BitVec.lt_def]
  case bccGeu => exact hc.branches ho hi rfl fun u hu => by rw [hu.val, hu.val, not_ult_iff]
  case bccZ => exact hc.branches ho hi rfl fun u hu => by rw [hu.val, beq_iff_eq]
  case bccNz => exact hc.branches ho hi rfl fun u hu => by rw [hu.val, bne_iff_ne]
  case jmp off o =>
    refine hc.transfers ho hi rfl fun u hu => ?_
    rw [hu.target]
    rfl
  case jmpi o =>
    obtain rfl := Option.some.inj hi
    have haligned : (s.val o.a).toNat % 4 = 0 := hal rfl
    refine hc.transfers ho rfl rfl fun u hu => ?_
    rw [hu.val, State.indirect_of_aligned haligned]
    rfl
  case call off o =>
    refine hc.transfers ho hi rfl fun u hu => ?_
    rw [hu.target, hu.pc]
    rfl
  case calli o =>
    obtain rfl := Option.some.inj hi
    have haligned : (s.val o.a).toNat % 4 = 0 := hal rfl
    refine hc.transfers ho rfl rfl fun u hu => ?_
    rw [hu.val, State.indirect_of_aligned haligned, hu.pc]
    rfl
  case ret o =>
    obtain rfl := Option.some.inj hi
    have haligned : (s.val o.a).toNat % 4 = 0 := hal rfl
    refine hc.transfers ho rfl rfl fun u hu => ?_
    rw [hu.val, State.indirect_of_aligned haligned]
    rfl
  case loop off o =>
    refine hc.transfers ho hi rfl fun u hu => ?_
    rw [hu.getG]
    refine Transfer.apply_linked hu.runs (hu.quiet hc.quiet) (hu.target off) ?_
    rw [Bool.eq_iff_iff, bne_iff_ne, sub_ne_zero, decide_eq_true_iff]
  all_goals exact nomatch hi

end

/-- Settles O3: each transfer is its link and a jump or a retirement. -/
theorem transferResults : Obligations.TransferResults := fun _ _ _ hc hi ho hal => transfer_done hc hi ho hal

end Sys2Proof.Machine
end

section
/-! Time, attestation and the firmware's register writes (05 R141; 18 R403, R418, R419; 14 R343). -/

namespace Sys2Proof.Machine

/-! ### Time -/

/-- Only while no context lives does the discipline step TIME. -/
theorem timeDiscipline_eq (s : State) (delta : Int) :
    (s.ctxs = [] →
      exec (.timeDiscipline delta) s =
        .next { s with spine := { s.spine with time := s.spine.time + BitVec.ofInt 64 delta, slew := 0 } }) ∧
    (s.ctxs ≠ [] → exec (.timeDiscipline delta) s = .next { s with spine := { s.spine with slew := delta } }) := by
  constructor
  · intro hnone
    exact congrArg (fun z => Host.Outcome.next { s with spine := z }) (if_pos (List.isEmpty_iff.mpr hnone))
  · intro hlive
    exact congrArg (fun z => Host.Outcome.next { s with spine := z }) (if_neg (mt List.isEmpty_iff.mp hlive))

/-- What the time unit corrects while some ns pass: no more than half of them, either way. -/
def Spine.correction (z : Spine) (ns : Nat) : Int := max (-(ns / 2 : Int)) (min z.slew (ns / 2 : Int))

theorem Spine.advance_eq (z : Spine) (ns : Nat) :
    z.advance ns = { z with time := z.time + toWord (ns + z.correction ns).toNat, slew := z.slew - z.correction ns } := rfl

theorem Spine.correction_le (z : Spine) (ns : Nat) : z.correction ns ≤ (ns / 2 : Nat) :=
  max_le (by omega) (min_le_right _ _)

theorem Spine.neg_le_correction (z : Spine) (ns : Nat) : -((ns / 2 : Nat) : Int) ≤ z.correction ns := le_max_left _ _

/-- TIME never steps and never runs backwards: it advances by at least half of the time that passes. -/
theorem Spine.advance_slews (z : Spine) (ns : Nat) :
    ∃ k, ns - ns / 2 ≤ k ∧ k ≤ ns + ns / 2 ∧ (z.advance ns).time = z.time + BitVec.ofNat 64 k ∧
      (z.advance ns).slew = z.slew - ((k : Int) - ns) := by
  have hhigh := z.correction_le ns
  have hlow := z.neg_le_correction ns
  have hk : ((ns + z.correction ns).toNat : Int) = ns + z.correction ns := Int.toNat_of_nonneg (by omega)
  refine ⟨(ns + z.correction ns).toNat, by omega, by omega, rfl, ?_⟩
  rw [hk, add_sub_cancel_left, Spine.advance_eq]

/-! ### Attestation -/

/-- The bits of a report (18 Table 18.5). -/
def State.reportBits (s : State) (f : FwImage) (nonce : BitVec 512) : BitVec 2304 :=
  Config.serial () ++ (0 : BitVec 48) ++ f.version ++ s.spine.time ++ Config.measurement s.partsMeasured ++
    Config.measurement s.routesMeasured ++ Config.measurement (fwMeasured f) ++ nonce

/-- The four fields of 512 bits stand lowest: the nonce and the three measurements. -/
theorem State.reportOf_reportBits (s : State) (f : FwImage) (nonce : BitVec 512) :
    ReportOf s f nonce (s.reportBits f nonce) := by
  constructor <;> unfold State.reportBits
  case nonce => exact BitVec.extractLsb'_append_eq_right
  case time =>
    iterate 4 rw [BitVec.extractLsb'_append_eq_of_le (by decide)]
    exact BitVec.extractLsb'_append_eq_right
  case version =>
    iterate 5 rw [BitVec.extractLsb'_append_eq_of_le (by decide)]
    exact BitVec.extractLsb'_append_eq_right
  case reserved =>
    iterate 6 rw [BitVec.extractLsb'_append_eq_of_le (by decide)]
    exact BitVec.extractLsb'_append_eq_right

theorem attestation_eq {s : State} {f : FwImage} (hrec : s.spine.recovery = false) (hfw : s.spine.fw = some f)
    (nonce : BitVec 512) :
    exec (.attestation nonce) s = .next (State.tick
      { s with events := s.events ++ [.report (s.reportBits f nonce) (Config.signature s.fresh)] }) := by
  show execAttestation nonce s = _
  unfold execAttestation
  rw [hrec, hfw]
  rfl

theorem attestation_recovery {s : State} (hrec : s.spine.recovery = true) (nonce : BitVec 512) :
    exec (.attestation nonce) s = .next s := by
  show execAttestation nonce s = _
  unfold execAttestation
  rw [hrec]

/-! ### Firmware's register writes -/

theorem firmwareRegisterWrite_recovery {s : State} (hrec : s.spine.recovery = true) (num : BitVec 12) (unit idx : Nat) (v : Word) :
    exec (.firmwareRegisterWrite num unit idx v) s = .next s := congrArg Host.Outcome.next (if_pos hrec)

theorem State.chip_modChip_ne (s : State) {unit n : Nat} (f : Chiplet → Chiplet) (h : n ≠ unit) : (s.modChip unit f).chip n = s.chip n :=
  tget_tput_ne _ _ _ h

/-- The bits that ASIDROOT holds (14 Table 14.7). -/
theorem getLsbD_rootMask : ∀ i, i < 64 → rootMask.getLsbD i = (decide (i < 2) || (decide (16 ≤ i) && decide (i < 55))) := by
  decide

section
variable {s : State} (hrec : s.spine.recovery = false) (unit idx : Nat) (v : Word)
include hrec

theorem firmwareRegisterWrite_colTmo : exec (.firmwareRegisterWrite 0x413 unit idx v) s =
    .next { s with spine := { s.spine with colTmo := v.setWidth 24 } } :=
  congrArg Host.Outcome.next (if_neg (ne_true_of_eq_false hrec))

theorem firmwareRegisterWrite_world (hidx : idx < 36864) : exec (.firmwareRegisterWrite 0x423 unit idx v) s =
    .next (s.modSpine fun z => { z with worlds := tput z.worlds idx v }) :=
  congrArg Host.Outcome.next ((if_neg (ne_true_of_eq_false hrec)).trans (if_pos hidx))

theorem firmwareRegisterWrite_pagerCore : exec (.firmwareRegisterWrite 0x300 unit idx v) s =
    .next (s.modChip unit fun h => { h with pagerCore := v.setWidth 16 }) :=
  congrArg Host.Outcome.next (if_neg (ne_true_of_eq_false hrec))

theorem firmwareRegisterWrite_root (hunit : unit < 4096) : exec (.firmwareRegisterWrite 0x404 unit idx v) s =
    .next (s.modSpine fun z => { z with asidRoot := tput z.asidRoot unit (v &&& rootMask) }) :=
  congrArg Host.Outcome.next ((if_neg (ne_true_of_eq_false hrec)).trans (if_pos hunit))

theorem firmwareRegisterWrite_readOnly : exec (.firmwareRegisterWrite 0x400 unit idx v) s = .next s :=
  congrArg Host.Outcome.next (if_neg (ne_true_of_eq_false hrec))

end

/-- Settles O49: each event of the Spine is an equation of its own, and the rest is reading what was written. -/
theorem moduleEvents : Obligations.ModuleEvents := by
  refine ⟨timeDiscipline_eq, Spine.advance_slews, fun s nonce => ⟨fun f hrec hfw => ?report, fun hrec => ?recovery⟩,
    fun s num unit idx v hrec => firmwareRegisterWrite_recovery hrec num unit idx v,
    fun s unit idx v hrec => ⟨firmwareRegisterWrite_colTmo hrec unit idx v, fun hidx => ?world, ?pager, fun hunit => ?root,
      firmwareRegisterWrite_readOnly hrec unit idx v⟩⟩
  case report => exact ⟨_, _, _, attestation_eq hrec hfw nonce, rfl, s.reportOf_reportBits f nonce, rfl⟩
  case recovery => exact attestation_recovery hrec nonce
  case world =>
    exact ⟨_, firmwareRegisterWrite_world hrec unit idx v hidx, tget_tput_same .., fun _ hi => tget_tput_ne _ _ _ hi, rfl⟩
  case pager =>
    exact ⟨_, firmwareRegisterWrite_pagerCore hrec unit idx v, s.modChip_chip .., fun _ hn => s.chip_modChip_ne _ hn, rfl⟩
  case root =>
    refine ⟨_, firmwareRegisterWrite_root hrec unit idx v hunit, fun i hi => ?_, fun _ ha => tget_tput_ne _ _ _ ha⟩
    rw [← getLsbD_rootMask i hi, ← BitVec.getLsbD_and]
    exact congrArg (·.getLsbD i) (tget_tput_same 0 s.spine.asidRoot unit (v &&& rootMask))

end Sys2Proof.Machine
end

section
/-! RET beside JMPI (05 R128). -/

namespace Sys2Proof.Machine

/-- The indirect jump that links nothing. -/
def indirectJump (s : State) (o : Ops) (ret : Bool) : Transfer := ⟨o, s.val o.a, true, none, ret⟩

theorem State.Calm.indirectJump {s : State} {o : Ops} (hc : s.Calm) (ho : o.regsExist s.me.nreg = true)
    (hal : (s.val o.a).toNat % 4 = 0) (fn : Nat) (ret : Bool) :
    StrandStep s (s.instr 0x21 fn o fun u => u.indirect ret (u.val o.a) id)
      ((Machine.indirectJump s o ret).strand (s.me.entered 0x21 fn o))
      ([(9, 1)] ++ (if ret then [(10, 1)] else []) ++ [(2, 1)]) := by
  have hbegun := hc.runs.begun_entered 0x21 fn o
  rw [State.instr_ok hc.runs 0x21 fn ho, hbegun.val, State.indirect_of_aligned hal]
  exact (hc.strandStep_entered 0x21 fn o).transfer (hbegun.quiet hc.quiet) (Machine.indirectJump s o ret)

/-- The function code stands in the word of the strand alone. -/
theorem Strand.entered_fn (p : Strand) (maj fn fn' : Nat) (o : Ops) :
    { p.entered maj fn o with word := (p.entered maj fn' o).word } = p.entered maj fn' o := by
  unfold Strand.entered
  dsimp only
  split <;> rfl

/-- A return counts on counter 10 beside what a jump counts. -/
theorem Counted.ret {k j m : Core} (hj : Counted k j ([(9, 1)] ++ [(10, 1)] ++ [(2, 1)]))
    (hm : Counted k m ([(9, 1)] ++ [] ++ [(2, 1)])) (n : Nat) (hn : n < 16) :
    vget 0 j.perf n = vget 0 m.perf n + if n = 10 ∧ k.counting = true then 1 else 0 := by
  rw [hj n hn, hm n hn]
  cases hk : k.counting
  · simp
  · by_cases hten : n = 10
    · subst hten
      simp [toWord]
    · simp [hten, List.filter_cons, beq_eq_false_iff_ne.mpr (Ne.symm hten)]

/-- Settles O5: both are the same jump, of which the return is marked and counted. -/
theorem returnIsJump : Obligations.ReturnIsJump := fun s o hc ho hal => by
  have hret := hc.indirectJump ho hal 0x04 true
  have hjmp := hc.indirectJump ho hal 0x01 false
  refine ⟨_, _, rfl, rfl, ?_, ?_, ?_, hret.only, hjmp.only, Counted.ret hret.perf hjmp.perf⟩
  · rw [hret.me, hjmp.me]
    have hword : ((indirectJump s o false).strand (s.me.entered 0x21 0x01 o)).word = (s.me.entered 0x21 0x01 o).word := rfl
    rw [hword, ← s.me.entered_fn 0x21 0x04 0x01 o]
    rfl
  · rw [hret.me]
    rfl
  · rw [hjmp.me]
    rfl

end Sys2Proof.Machine
end

section
/-! What a commit does to the strands, where watchpoints may stop some of them (04 R103; 19 R424, R425, R432). -/

namespace Sys2Proof.Machine

/-- The strand, stopped or not. -/
def Strand.stoppedAs (b : Bool) (p : Strand) : Strand := { p with stopped := b }

theorem Strand.ite_stopped (p : Strand) (b : Bool) :
    (if b then { p with stopped := true } else p) = p.stoppedAs (b || p.stopped) := by
  cases b <;> rfl

/-- But for stops, every strand in a slot is as it was, and the same one executes. -/
structure StopsOnly (s t : State) : Prop where
  cur : t.cur = s.cur
  strands : ∀ c n, ∃ b, t.strand? c n = (s.strand? c n).map (Strand.stoppedAs b)

theorem exists_map_stoppedAs : ∀ o : Option Strand, ∃ b, o = o.map (Strand.stoppedAs b)
  | none => ⟨false, rfl⟩
  | some p => ⟨p.stopped, rfl⟩

theorem tfind_map_key {α β : Type} (f : Nat → α → β) (n : Nat) : ∀ t : Tbl α,
    tfind (t.map fun e => (e.1, f e.1 e.2)) n = (tfind t n).map (f n)
  | [] => rfl
  | (k, v) :: t => by
    simp only [List.map_cons, tfind]
    split
    case isTrue h => rw [h]; rfl
    case isFalse => exact tfind_map_key f n t

section
variable {s t u : State}

theorem StopsOnly.of_strands (hcur : t.cur = s.cur) (h : ∀ c n, t.strand? c n = s.strand? c n) : StopsOnly s t :=
  ⟨hcur, fun c n => (h c n) ▸ exists_map_stoppedAs (s.strand? c n)⟩

theorem StopsOnly.of_cores (hcur : t.cur = s.cur) (h : t.cores = s.cores) : StopsOnly s t :=
  .of_strands hcur fun c n => by rw [State.strand?, State.strand?, State.core, State.core, h]

theorem StopsOnly.refl (s : State) : StopsOnly s s := .of_cores rfl rfl

theorem StopsOnly.trans (h : StopsOnly s t) (h' : StopsOnly t u) : StopsOnly s u where
  cur := h'.cur.trans h.cur
  strands c n := by
    obtain ⟨b, hb⟩ := h.strands c n
    obtain ⟨b', hb'⟩ := h'.strands c n
    refine ⟨b', ?_⟩
    rw [hb', hb, Option.map_map]
    rfl

theorem StopsOnly.foldl {α : Type} {f : State → α → State} (hf : ∀ s a, StopsOnly s (f s a)) :
    ∀ (l : List α) (s : State), StopsOnly s (l.foldl f s)
  | [], s => .refl s
  | a :: l, s => (hf s a).trans (StopsOnly.foldl hf l (f s a))

theorem StopsOnly.ite {p : Prop} [Decidable p] (h : StopsOnly s t) (h' : StopsOnly s u) :
    StopsOnly s (if p then t else u) := by
  split
  · exact h
  · exact h'

/-- The core is written, but not its slots. -/
theorem State.stopsOnly_modCore (s : State) (c : Nat) {f : Core → Core} (hf : ∀ k, (f k).slots = k.slots) :
    StopsOnly s (s.modCore c f) := .of_strands rfl fun d n => State.strand?_modCore hf d n

theorem State.stopsOnly_setDst (s : State) (c d : Nat) : StopsOnly s (s.setCore c ((s.core c).setDst d)) :=
  s.stopsOnly_modCore c (f := (·.setDst d)) fun _ => rfl

theorem State.poke_cur (s : State) (cells : List Host.Cell) : (s.poke cells).cur = s.cur := rfl

theorem State.stopsOnly_trace (s : State) (c : Nat) (r : TraceRec) : StopsOnly s (s.trace c r) := by
  refine .of_cores ?_ (s.trace_cores c r)
  unfold State.trace
  dsimp only
  split
  · rfl
  · split
    · rw [State.modCtx_cur, State.poke_cur]
    · rw [State.modCtx_cur]

/-- The stop that a predicate asks of a strand. -/
theorem State.stopsOnly_mapStrands (s : State) (c : Nat) (hit : Option Nat → Strand → Bool) :
    StopsOnly s (s.modCore c fun k => k.mapStrands fun n p => if hit n p then { p with stopped := true } else p) := by
  refine ⟨rfl, fun d n => ?_⟩
  unfold State.strand?
  by_cases hd : d = c
  · subst hd
    rw [State.modCore_core]
    refine (tfind_map_key (fun n p => if hit (some n) p then { p with stopped := true } else p) n _).symm ▸ ?_
    cases tfind (s.core d).slots n with
    | none => exact ⟨false, rfl⟩
    | some p =>
      exact ⟨hit (some n) p || p.stopped, congrArg some (p.ite_stopped _)⟩
  · rw [State.modCore_core_ne s _ hd]
    exact exists_map_stoppedAs _

theorem State.stopsOnly_stopWhere (s : State) (c : Nat) (hit : Option Nat → Strand → Bool) : StopsOnly s (s.stopWhere c hit) :=
  (s.stopsOnly_mapStrands c hit).trans (.foldl (fun _ _ => State.stopsOnly_trace _ _ _) _ _)

theorem State.stopsOnly_settleStop (s : State) (c : Nat) : StopsOnly s (s.settleStop c) :=
  .ite ((s.stopsOnly_setDst c 2).trans (State.stopsOnly_trace _ _ _)) (.refl s)

theorem State.stopsOnly_stopOwn (s : State) (c own : Nat) : StopsOnly s (s.stopOwn c own) :=
  (s.stopsOnly_stopWhere c _).trans (State.stopsOnly_settleStop _ _)

theorem State.stopsOnly_stopCore (s : State) (c : Nat) : StopsOnly s (s.stopCore c) := by
  refine .ite (s.stopsOnly_modCore c fun _ => rfl) ?_
  exact ((StopsOnly.ite (s.stopsOnly_setDst c 1) (.refl s)).trans (State.stopsOnly_stopWhere _ _ _)).trans
    (State.stopsOnly_settleStop _ _)

theorem State.stopsOnly_fire (s : State) (c i : Nat) (who : Option (Nat × Nat)) (sid pc : Word) (path : Nat) (what : Word) :
    StopsOnly s (s.fire c i who sid pc path what) := by
  have hcount := s.stopsOnly_modCore c
    (f := fun k => { k with wp := vset k.wp i { vget { ctl := 0, val := 0, hit := 0 } (s.core c).wp i with
      hit := (vget { ctl := 0, val := 0, hit := 0 } (s.core c).wp i).hit + 1 } }) fun _ => rfl
  have htraced : ∀ (b : Prop) [Decidable b] (r : TraceRec) (t : State), StopsOnly s t →
      StopsOnly s (if b then t else t.trace c r) :=
    fun _ _ r t ht => .ite ht (ht.trans (t.stopsOnly_trace c r))
  unfold State.fire
  dsimp only
  split
  · exact (htraced _ _ _ hcount).trans (State.stopsOnly_stopOwn _ _ _)
  · exact (htraced _ _ _ hcount).trans (State.stopsOnly_stopCore _ _)
  · exact htraced _ _ _ hcount

theorem State.stopsOnly_watchRange (s : State) (wr : Bool) (locs : List Nat) (who : Option (Nat × Nat)) (sid pc : Word)
    (path : Nat) : StopsOnly s (s.watchRange wr locs who sid pc path) := by
  refine .foldl (fun t c => ?_) _ s
  refine .foldl (fun u i => ?_) _ t
  exact .ite (u.stopsOnly_fire _ _ _ _ _ _ _) (.refl u)

theorem State.stopsOnly_handOver (s : State) (c sl : Nat) (rel : Bool) (b : BufStore) : StopsOnly s (s.handOver c sl rel b) := by
  refine .ite (.refl s) ?_
  refine StopsOnly.trans ?_ (State.stopsOnly_watchRange _ _ _ _ _ _ _)
  exact .of_cores rfl rfl

theorem State.stopsOnly_count (s : State) (c n k : Nat) : StopsOnly s (s.count c n k) :=
  .of_strands rfl fun d sl => s.strand?_count c n k d sl

/-- A commit puts back its strand, and is but for that a matter of stops. -/
theorem State.stopsOnly_commitRegion {p : Strand} {c n : Nat} (hp : s.strand? c n = some p) :
    StopsOnly (s.putStrand c n p.flushed) (s.commitRegion c n) := by
  have hcount : StopsOnly (s.putStrand c n p.flushed) (if p.ckptDue || p.st == .waiting .retry then s.putStrand c n p.flushed
      else (s.putStrand c n p.flushed).count c 11 1) := .ite (.refl _) (State.stopsOnly_count _ _ _ _)
  unfold State.commitRegion
  rw [hp]
  refine .ite hcount ?_
  refine (hcount.trans (.of_cores ?_ ?_)).trans (.foldl (fun u b => u.stopsOnly_handOver c n false b) _ _) <;> rfl

/-- The strand that executes after its commit. -/
theorem State.Runs.commit_me (hr : s.Runs) : ∃ b, s.commit.strand? s.cur.1 s.cur.2 = some (s.me.flushed.stoppedAs b) := by
  obtain ⟨b, hb⟩ := (State.stopsOnly_commitRegion hr.me).strands s.cur.1 s.cur.2
  rw [State.strand?_putStrand] at hb
  exact ⟨b, hb⟩

theorem State.Runs.commit_cur (hr : s.Runs) : s.commit.cur = s.cur := (State.stopsOnly_commitRegion hr.me).cur

theorem Strand.flushed_faulted (p : Strand) (b : Bool) (f : FaultRec) :
    ((p.flushed.stoppedAs b).faulted f).st = .faulted f ∧ ((p.flushed.stoppedAs b).faulted f).pc = p.pc ∧
      ((p.flushed.stoppedAs b).faulted f).g = p.g := ⟨rfl, rfl, rfl⟩

/-- A fault of a strand leaves it as a commit does, whatever its region holds. -/
theorem State.Runs.raise_me (hr : s.Runs) (hstep : s.me.stepping = false) (code : Code) (sub : Nat) (addr : Word) :
    ∃ b, (s.raise code sub addr).me = (s.me.flushed.stoppedAs b).faulted
      { code, sub := BitVec.ofNat 8 sub, deferred := false, word := s.me.word, pc := s.me.pc, addr } := by
  obtain ⟨b, hb⟩ := hr.commit_me
  have hcommit : s.commit.strand? s.commit.cur.1 s.commit.cur.2 = some (s.me.flushed.stoppedAs b) := by
    rwa [hr.commit_cur]
  have hruns : s.commit.Runs := Option.isSome_of_eq_some hcommit
  have hme := State.me_of_strand? hcommit
  have hpc : s.commit.me.pc = s.me.pc := by rw [hme]; rfl
  have hquiet : s.commit.me.stepping = false := by rw [hme]; exact hstep
  refine ⟨b, ?_⟩
  rw [← hme, ← hpc]
  exact (congrArg State.me (State.faultAt_eq_faultMe hruns hquiet _)).trans (State.faultMe_me hruns _)

end

end Sys2Proof.Machine
end

section
/-! SRESUME and SKILL of a strand that is no fault handler (05 R136). -/

namespace Sys2Proof.Machine

theorem Begun.g {s u : State} (h : Begun s u) : u.me.g = s.me.g := (congrArg Strand.g h.strand :)
theorem Begun.kind {s u : State} (h : Begun s u) : u.me.kind = s.me.kind := (congrArg Strand.kind h.strand :)

/-- A fault after the start of an instruction keeps the PC and the g registers, whatever the region holds. -/
theorem Begun.raise_keeps {s u : State} (h : Begun s u) (hstep : s.me.stepping = false) (code : Code) (sub : Nat) (addr : Word) :
    (u.raise code sub addr).me.st =
        .faulted { code, sub := BitVec.ofNat 8 sub, deferred := false, word := u.me.word, pc := s.me.pc, addr } ∧
      (u.raise code sub addr).me.pc = s.me.pc ∧ (u.raise code sub addr).me.g = s.me.g := by
  obtain ⟨b, hme⟩ := h.runs.raise_me (h.stepping.trans hstep) code sub addr
  rw [hme, ← h.pc, ← h.g]
  exact u.me.flushed_faulted b _

/-- An instruction whose effect is a fault, whatever the region holds. -/
theorem State.Calm.instr_faults {s : State} (hc : s.Calm) (maj fn : Nat) {o : Ops} (ho : o.regsExist s.me.nreg = true)
    {body : State → State} {code : Code} {sub : Nat} {addr : Word}
    (hbody : ∀ u, Begun s u → body u = u.raise code sub addr) :
    (s.instr maj fn o body).me.st = .faulted (s.faultHere maj fn o code sub addr) ∧
      (s.instr maj fn o body).me.pc = s.me.pc ∧ (s.instr maj fn o body).me.g = s.me.g ∧
      (s.me.region = [] → Trapped s (s.instr maj fn o body) (s.faultHere maj fn o code sub addr)) := by
  have hu := hc.runs.begun_entered maj fn o
  have hword : (s.modMe fun p => p.entered maj fn o).me.word =
      { maj := BitVec.ofNat 8 maj, fn := BitVec.ofNat 6 fn, len := lenCode o.len } := by
    rw [State.me_modMe hc.runs, Strand.entered_word]
  obtain ⟨hst, hpc, hg⟩ := hu.raise_keeps hc.quiet.step code sub addr
  rw [← hbody _ hu, ← State.instr_ok hc.runs maj fn ho body] at hst hpc hg
  rw [hword] at hst
  exact ⟨hst, hpc, hg, fun hreg => hc.instr_traps hreg maj fn ho hbody⟩

/-- Settles O23: the kind of the strand is the first thing that either instruction asks. -/
theorem handlerOnly : Obligations.HandlerOnly := by
  rintro i o s f hc hkind ho (⟨rfl, rfl⟩ | ⟨rfl, rfl⟩)
  · exact ⟨_, rfl, hc.instr_faults 0x24 0x06 ho fun u hu => if_pos (by rw [hu.kind]; exact bne_iff_ne.mpr hkind)⟩
  · exact ⟨_, rfl, hc.instr_faults 0x24 0x07 ho fun u hu => if_pos (by rw [hu.kind]; exact bne_iff_ne.mpr hkind)⟩

end Sys2Proof.Machine
end

section
/-! NOP, and the instructions that commit the open region and retire or wait (05 R131 to R133; 06 R157, R161, R162). -/

namespace Sys2Proof.Machine

/-! ### The commit that opens them -/

section
variable {s : State}

/-- A commit counts, but for one that goes on after a wait or follows another commit. -/
theorem State.counted_flushMe (s : State) : Counted s.myCore s.flushMe.myCore (if s.me.ckptDue then [] else s.commits) := by
  have hmove := s.counted_modMe Strand.flushed
  have hcount := (s.modMe Strand.flushed).counted_count 11 1
  rw [State.modMe_cur] at hcount
  unfold State.flushMe State.commits
  cases s.me.ckptDue
  · by_cases hwait : s.me.st = .waiting .retry
    · simpa [hwait] using hmove
    · simpa [hwait] using hmove.trans hcount (s.onlyStrand_modMe _).counting
  · simpa using hmove

theorem State.counted_committedAt (hr : s.Runs) (hw : s.Unwatched) (maj fn : Nat) (o : Ops) :
    Counted s.myCore (s.committedAt maj fn o).myCore s.commits := by
  have honly := s.onlyStrand_modMe fun p => p.entered maj fn o
  have hentered := s.counted_modMe fun p => p.entered maj fn o
  have hme := State.me_modMe hr fun p => p.entered maj fn o
  have hdue := s.me.entered_ckptDue maj fn o
  have hst : (s.me.entered maj fn o).st = s.me.st := (congrArg Strand.st (s.me.entered_frame maj fn o) :)
  rw [← hme] at hdue hst
  obtain ⟨ws, n, hcommit, -⟩ := State.commit_of_unwatched (State.runs_modMe hr _) (honly.unwatched hw)
  rw [State.committedAt, hcommit]
  have hflush := (s.modMe fun p => p.entered maj fn o).counted_flushMe
  rw [State.commits, hst, ← State.commits, hdue] at hflush
  exact hentered.trans hflush honly.counting

end

/-! ### What may follow it -/

/-- After a commit nothing changes but the strand, and of that nothing but its PC, its state and its holds. -/
theorem CommitDone.follows {s u t : State} (h : CommitDone s u) (k : OnlyStrand u t)
    (hme : { t.me with pc := u.me.pc, st := u.me.st, retired := u.me.retired, waitNo := u.me.waitNo,
                       pauseUntil := u.me.pauseUntil, yielding := u.me.yielding, heldSince := u.me.heldSince } = u.me) :
    CommitDone s t where
  region := (congrArg Strand.region hme :).trans h.region
  sdig := (congrArg Strand.sdig hme :).trans h.sdig
  due := (congrArg Strand.ckptDue hme :).trans h.due
  writes := (congrArg State.writes k.rest :) ▸ h.writes
  loads := (congrArg State.loads k.rest :).trans h.loads
  strand := by
    have hstrand := h.strand
    rw [← hme] at hstrand
    exact hstrand
  rest :=
    calc { t with cores := s.cores, writes := s.writes, loads := s.loads, fresh := s.fresh }
        = { { t with cores := u.cores } with cores := s.cores, writes := s.writes, loads := s.loads, fresh := s.fresh } := rfl
      _ = s := by rw [k.rest, h.rest]
  bytes l := (k.bytes l).trans (h.bytes l)
  cores := h.cores.trans h.cur k.cores

theorem CommitDone.tick {s t : State} (h : CommitDone s t) : CommitDone s t.tick :=
  ⟨h.region, h.sdig, h.due, h.writes, h.loads, h.strand, h.rest, h.bytes,
    ⟨h.cores.others, h.cores.mine, h.cores.slots⟩⟩

/-- The strand with its holds (05 R132, R133). -/
def Strand.held (p : Strand) (pause : Option Word) (yld : Option YieldHold) : Strand :=
  { p with pauseUntil := pause, yielding := yld }

section
variable {s : State} {i : Instr} {o : Ops} {maj fn : Nat}

/-- The retirement of an instruction that has committed, with the holds that it sets. -/
theorem State.Calm.commitRetired {x : State} {pause : Option Word} {yld : Option YieldHold} (hc : s.Calm) (hw : s.Unwatched)
    (hx : StrandStep (s.committedAt maj fn o) x ((s.committedAt maj fn o).me.held pause yld) []) :
    CommitRetired s x.retire o pause yld := by
  have hdone := State.commitDone_committedAt hc.runs hw maj fn o
  have hme := State.committedAt_me hc.runs hw maj fn o
  have hperf := State.counted_committedAt hc.runs hw maj fn o
  have hpc := s.me.entered_pc maj fn o
  have hword := s.me.entered_word maj fn o
  have hquiet := (s.me.entered_stepping maj fn o).trans hc.quiet.step
  generalize s.me.entered maj fn o = q at hme hpc hword hquiet
  generalize s.committedAt maj fn o = u at *
  have hstep := hx.retire (by rw [hme]; exact hquiet)
  have ht := hstep.me
  constructor
  case done =>
    refine hdone.follows hstep.only ?_
    rw [ht]
    rfl
  case pc =>
    rw [ht, hme]
    change q.pc + toWord q.word.bytes = _
    rw [hpc, hword, lenCode_bytes]
  case ready => rw [ht]; rfl
  case pause => rw [ht]; rfl
  case yielding => rw [ht]; rfl
  case perf =>
    have hcount := hperf.trans hstep.perf ?_
    · exact hcount.perm List.perm_append_comm
    · exact (congrArg Core.counting hdone.cores.mine :)

/-- An instruction that commits, sets its holds and retires. -/
theorem State.Calm.commits_retire {body : State → State} {x : State} {pause : Option Word} {yld : Option YieldHold} (hc : s.Calm)
    (hw : s.Unwatched) (maj fn : Nat) (ho : o.regsExist s.me.nreg = true) (hexec : exec i s = .next (s.instr maj fn o body))
    (hbody : body (s.modMe fun p => p.entered maj fn o) = x.retire)
    (hx : StrandStep (s.committedAt maj fn o) x ((s.committedAt maj fn o).me.held pause yld) []) :
    ∃ t, exec i s = .next t ∧ CommitRetired s t o pause yld := by
  refine ⟨_, hexec, ?_⟩
  rw [State.instr_ok hc.runs maj fn ho, hbody]
  exact hc.commitRetired hw hx

/-! The holds that an instruction finds when it has committed are those that it began with. -/

theorem State.Calm.committedAt_pauseUntil (hc : s.Calm) (hw : s.Unwatched) (maj fn : Nat) (o : Ops) :
    (s.committedAt maj fn o).me.pauseUntil = s.me.pauseUntil := by
  rw [State.committedAt_me hc.runs hw]
  exact (congrArg Strand.pauseUntil (s.me.entered_frame maj fn o) :)

theorem State.Calm.committedAt_yielding (hc : s.Calm) (hw : s.Unwatched) (maj fn : Nat) (o : Ops) :
    (s.committedAt maj fn o).me.yielding = s.me.yielding := by
  rw [State.committedAt_me hc.runs hw]
  exact (congrArg Strand.yielding (s.me.entered_frame maj fn o) :)

end

/-! ### The strands that a YIELD steps back for -/

theorem filter_tput {α : Type} {p : Nat × α → Bool} {n : Nat} (hp : ∀ v, p (n, v) = false) (v : α) : ∀ t : Tbl α,
    (tput t n v).filter p = t.filter p
  | [] => by simp [tput, hp]
  | (k, w) :: t => by
    unfold tput
    split
    · exact List.filter_cons_of_neg (by simp [hp])
    · split
      case isTrue hk => subst hk; simp [hp]
      case isFalse => rw [List.filter_cons, List.filter_cons, filter_tput hp v t]

/-- The strand that executes is none of those that wait beside it. -/
theorem State.readyOthers_modMe (s : State) (f : Strand → Strand) :
    (s.modMe f).myCore.readyOthers s.cur.2 = s.myCore.readyOthers s.cur.2 := by
  unfold State.modMe State.modStrand
  split
  · unfold State.putStrand State.myCore Core.readyOthers
    rw [State.modCore_cur, State.modCore_core]
    exact congrArg (List.map _) (filter_tput (fun _ => by simp) _ _)
  · rfl

/-- The members of the fused group that issue on a core. -/
theorem contains_issuing (l : List (Nat × Nat)) (c n : Nat) :
    ((l.filter fun e => e.1 == c).map (·.2)).contains n = l.contains (c, n) := by
  rw [Bool.eq_iff_iff, List.contains_iff_mem, List.contains_iff_mem]
  simp

theorem State.filter_readyOthers (s : State) :
    (s.myCore.readyOthers s.cur.2).filter (fun n => !((s.issuing.filter fun e => e.1 == s.cur.1).map (·.2)).contains n) =
      (s.myCore.slots.filter fun e => e.1 ≠ s.cur.2 && (e.2.st == .ready || e.2.st == .issuing) &&
        e.2.pauseUntil.isNone && e.2.yielding.isNone && !s.issuing.contains (s.cur.1, e.1)).map (·.1) := by
  simp only [contains_issuing, Core.readyOthers, List.filter_map, List.filter_filter]
  refine congrArg (List.map _) (List.filter_congr fun e _ => ?_)
  have hne : (e.1 != s.cur.2) = decide (e.1 ≠ s.cur.2) := by rw [bne, beq_eq_decide, decide_not]
  rw [hne]
  exact Bool.and_comm _ _

/-! ### The instructions that retire -/

section
variable {s : State} {i : Instr} {o p : Ops}

theorem nop_done (hc : s.Calm) (ho : o.regsExist s.me.nreg = true) : ∃ t, exec (.nop o) s = .next t ∧ ScalarDone s t o .none 0 := by
  refine ⟨_, rfl, ?_⟩
  have hquiet := (hc.runs.begun_entered 0x24 0x03 o).stepping.trans hc.quiet.step
  rw [State.instr_ok hc.runs 0x24 0x03 ho, State.retire_quiet (State.runs_modMe hc.runs _) hquiet, State.modMe_modMe,
    State.modMe_cur]
  exact hc.retires 0x24 0x03 ho

theorem commit_retired {pause : Option Word} {yld : Option YieldHold} (hc : s.Calm) (hw : s.Unwatched)
    (hi : commitRule s i = some (o, pause, yld)) (ho : o.regsExist s.me.nreg = true) :
    ∃ t, exec i s = .next t ∧ CommitRetired s t o pause yld := by
  cases i
  case rcommit =>
    obtain ⟨rfl, rfl, rfl⟩ := Option.some.inj hi
    refine hc.commits_retire hw 0x34 0x00 ho rfl rfl ?_
    rw [← hc.committedAt_pauseUntil hw 0x34 0x00 o, ← hc.committedAt_yielding hw 0x34 0x00 o]
    exact .refl (State.runs_committedAt hc.runs hw 0x34 0x00 o)
  case pause =>
    obtain ⟨rfl, rfl, rfl⟩ := Option.some.inj hi
    refine hc.commits_retire hw 0x24 0x04 ho rfl rfl ?_
    have hcc : (s.modMe fun p => p.entered 0x24 0x04 o).myCore.cc = s.myCore.cc :=
      (congrArg Core.cc (s.onlyStrand_modMe _).cores.mine :)
    rw [← hc.committedAt_yielding hw 0x24 0x04 o, ← hcc]
    exact (State.runs_committedAt hc.runs hw 0x24 0x04 o).strandStep_modMe _
  case yield =>
    obtain ⟨rfl, rfl, rfl⟩ := Option.some.inj hi
    refine hc.commits_retire hw 0x24 0x05 ho rfl rfl ?_
    have hcur : (s.modMe fun p => p.entered 0x24 0x05 o).cur = s.cur := s.modMe_cur _
    have hissuing : (s.modMe fun p => p.entered 0x24 0x05 o).issuing = s.issuing :=
      (congrArg State.issuing (s.onlyStrand_modMe _).rest :)
    rw [← hc.committedAt_pauseUntil hw 0x24 0x05 o, ← State.filter_readyOthers, ← s.readyOthers_modMe fun p => p.entered 0x24 0x05 o,
      ← hcur, ← hissuing]
    exact (State.runs_committedAt hc.runs hw 0x24 0x05 o).strandStep_modMe _
  all_goals exact nomatch hi

end

/-! ### What the fences wait for -/

/-- Two states agree on the accesses and operations that a fence of a core may wait for. -/
structure SameAccesses (c : Nat) (s t : State) : Prop where
  loads : t.loads = s.loads
  writes : t.writes = s.writes
  ops : t.ops = s.ops
  queue : (t.core c).mtx.queue = (s.core c).mtx.queue

theorem OnlyStrand.sameAccesses {s t : State} (h : OnlyStrand s t) (c : Nat) : SameAccesses c s t :=
  ⟨(congrArg State.loads h.rest :), (congrArg State.writes h.rest :), (congrArg State.ops h.rest :),
    (congrArg (fun k => k.mtx.queue) (h.core c) :)⟩

section
variable {s t : State} {c : Nat}

theorem SameAccesses.strandPerformed_iff (h : SameAccesses c s t) (order : MemOrder) (own : Nat) :
    strandPerformed t order own ↔ strandPerformed s order own := by
  unfold strandPerformed
  rw [h.loads, h.writes]

theorem SameAccesses.pathsPerformed_iff (h : SameAccesses c s t) (order : MemOrder) (paths : BitVec 6) (own : Nat) :
    pathsPerformed t order paths c own ↔ pathsPerformed s order paths c own := by
  unfold pathsPerformed classPerformed
  rw [h.loads, h.writes, h.ops, h.queue]

theorem State.loadsRead_iff (s : State) (own : Nat) : s.loadsRead own = true ↔ ∀ l ∈ s.loads, l.own = own → l.done = true := by
  simp [State.loadsRead]

theorem State.storesDone_iff (s : State) (own : Nat) : s.storesDone own = true ↔ ∀ w ∈ s.writes, w.own ≠ own := by
  simp [State.storesDone]

theorem State.fenceDone_iff (s : State) (order : MemOrder) (own : Nat) :
    s.fenceDone order own = true ↔ strandPerformed s order own := by
  cases order
  case rlx => exact iff_of_true rfl trivial
  case acq => exact s.loadsRead_iff own
  all_goals exact Bool.and_eq_true_iff.trans (and_congr (s.loadsRead_iff own) (s.storesDone_iff own))

theorem ordReads_iff (order : MemOrder) : ordReads order = true ↔ fenceReads order := by
  cases order <;> simp [ordReads, fenceReads]

theorem ordWrites_iff (order : MemOrder) : ordWrites order = true ↔ fenceWrites order := by
  cases order <;> simp [ordWrites, fenceWrites]

theorem EngOp.readsDone_iff (e : EngOp) : e.readsDone = true ↔ SentWrite e := by
  have hbody : (match e.body with | .rma .write .. => true | _ => false) = true ↔
      ∃ a off key qp len sy fe, e.body = .rma .write a off key qp len sy fe := by
    cases e.body
    case rma op _ _ _ _ _ _ _ => cases op <;> simp
    all_goals simp
  exact Bool.and_eq_true_iff.trans (and_congr Option.isSome_iff_ne_none hbody)

/-- An operation of which an order waits for nothing more. -/
theorem EngOp.settled_iff (e : EngOp) (order : MemOrder) (ws : List WriteUnit) :
    ((e.st != .ended && (ordWrites order || !e.readsDone)) || (ordWrites order && ws.any fun w => w.agent == some e.id)) = false ↔
      (e.st = .ended ∨ (¬ fenceWrites order ∧ SentWrite e)) ∧ (fenceWrites order → ∀ w ∈ ws, w.agent ≠ some e.id) := by
  rw [← EngOp.readsDone_iff, ← ordWrites_iff, Bool.or_eq_false_iff]
  refine and_congr ?_ ?_
  · cases ordWrites order <;> cases e.readsDone <;> simp
  · cases ordWrites order <;> simp

theorem State.engineBusy_iff (s : State) (order : MemOrder) (c cls own : Nat) :
    ¬ s.engineBusy order c cls own = true ↔ classPerformed s order c cls own := by
  simp only [State.engineBusy, classPerformed, Bool.not_eq_true, List.any_eq_false, ← EngOp.settled_iff,
    Bool.and_eq_true, beq_iff_eq, not_and, and_imp]

theorem MBody.orderedBy_iff (b : MBody) (order : MemOrder) :
    b.orderedBy order = true ↔ (fenceReads order ∧ b.touches false) ∨ (fenceWrites order ∧ b.touches true) := by
  cases b <;> simp [MBody.orderedBy, MBody.touches, ordReads_iff, ordWrites_iff]

theorem Core.matrixBusy_iff (k : Core) (order : MemOrder) (own : Nat) :
    ¬ k.matrixBusy order own = true ↔ ∀ e ∈ k.mtx.queue, e.own = own →
      (fenceReads order ∧ e.body.touches false) ∨ (fenceWrites order ∧ e.body.touches true) →
      e.st ≠ .queued ∧ e.st ≠ .running := by
  simp [Core.matrixBusy, MBody.orderedBy_iff]

theorem State.pathsDone_iff (s : State) (order : MemOrder) (paths : BitVec 6) (c own : Nat) :
    s.pathsDone order paths c own = true ↔ pathsPerformed s order paths c own := by
  simp only [State.pathsDone, pathsPerformed, Bool.and_eq_true, Bool.or_eq_true, Bool.not_eq_true', ← Bool.not_eq_true, ← imp_iff_not_or,
    ordReads_iff, ordWrites_iff, State.loadsRead_iff, State.storesDone_iff, State.engineBusy_iff, Core.matrixBusy_iff, and_assoc]

end

/-! ### The fences -/

/-- The strand in a wait, under the number of the wait. -/
def Strand.awaits (p : Strand) (w : Wait) (n : Nat) : Strand := { p with st := .waiting w, waitNo := n }

section
variable {s : State} {i : Instr} {o : Ops}

theorem State.Calm.committedAt_retire (hc : s.Calm) (hw : s.Unwatched) (maj fn : Nat) (o : Ops) :
    SameAccesses s.cur.1 (s.committedAt maj fn o) (s.committedAt maj fn o).retire ∧
      CommitRetired s (s.committedAt maj fn o).retire o (s.committedAt maj fn o).me.pauseUntil (s.committedAt maj fn o).me.yielding := by
  have hrefl := StrandStep.refl (State.runs_committedAt hc.runs hw maj fn o)
  have hquiet : (s.committedAt maj fn o).me.stepping = false := by
    rw [State.committedAt_me hc.runs hw]
    exact (s.me.entered_stepping maj fn o).trans hc.quiet.step
  exact ⟨(hrefl.retire hquiet).only.sameAccesses _, hc.commitRetired hw hrefl⟩

theorem State.Calm.committedAt_await (hc : s.Calm) (hw : s.Unwatched) (maj fn : Nat) (o : Ops) :
    SameAccesses s.cur.1 (s.committedAt maj fn o) ((s.committedAt maj fn o).await .retry) ∧
      CommitDone s ((s.committedAt maj fn o).await .retry) ∧ ((s.committedAt maj fn o).await .retry).me.pc = s.me.pc ∧
      ((s.committedAt maj fn o).await .retry).me.st = .waiting .retry := by
  have hdone := State.commitDone_committedAt hc.runs hw maj fn o
  have hpc : (s.committedAt maj fn o).me.pc = s.me.pc := by
    rw [State.committedAt_me hc.runs hw]
    exact s.me.entered_pc maj fn o
  have hruns := State.runs_committedAt hc.runs hw maj fn o
  generalize s.committedAt maj fn o = u at *
  have hstep := hruns.strandStep_modMe (·.awaits .retry u.fresh)
  have hsame := hstep.only.sameAccesses s.cur.1
  have hme : (u.await .retry).me = u.me.awaits .retry u.fresh := hstep.me
  refine ⟨⟨hsame.loads, hsame.writes, hsame.ops, hsame.queue⟩, (hdone.follows hstep.only ?_).tick, ?_, ?_⟩
  · rw [hstep.me]
    rfl
  · rw [hme]
    exact hpc
  · rw [hme]
    rfl

/-- A fence commits, and retires or issues again. -/
theorem State.Calm.fences {maj fn : Nat} {P : State → Prop} {b : State → Bool} (hc : s.Calm) (hw : s.Unwatched)
    (ho : o.regsExist s.me.nreg = true)
    (hexec : exec i s = .next (s.instr maj fn o fun u => if b u.commit then u.commit.retire else u.commit.await .retry))
    (hb : ∀ u t, CommitDone s u → u.me.own = s.me.own → SameAccesses s.cur.1 u t → (P t ↔ b u = true)) :
    ∃ t, exec i s = .next t ∧ CommitDone s t ∧ (P t → t.me.pc = s.me.pc + toWord o.len.bytes ∧ t.me.st = .ready) ∧
      (¬ P t → t.me.pc = s.me.pc ∧ t.me.st = .waiting .retry) := by
  have hdone := State.commitDone_committedAt hc.runs hw maj fn o
  have hown : (s.committedAt maj fn o).me.own = s.me.own := (congrArg Strand.own hdone.strand :)
  obtain ⟨hsame, hretired⟩ := hc.committedAt_retire hw maj fn o
  obtain ⟨hsame', hwaits, hpc, hst⟩ := hc.committedAt_await hw maj fn o
  have hnext := hexec.trans (congrArg Host.Outcome.next (State.instr_ok hc.runs maj fn ho _))
  rw [← State.committedAt] at hnext
  generalize s.committedAt maj fn o = u at *
  by_cases hready : b u = true
  case pos =>
    rw [if_pos hready] at hnext
    have hP := (hb u _ hdone hown hsame).mpr hready
    exact ⟨_, hnext, hretired.done, fun _ => ⟨hretired.pc, hretired.ready⟩, fun hnot => absurd hP hnot⟩
  case neg =>
    rw [if_neg hready] at hnext
    have hP := mt (hb u _ hdone hown hsame').mp hready
    exact ⟨_, hnext, hwaits, fun h => absurd h hP, fun _ => ⟨hpc, hst⟩⟩

theorem fence_done {P : State → Prop} (hc : s.Calm) (hw : s.Unwatched) (hi : ∀ t, fenceRule s t i = some (o, P t))
    (ho : o.regsExist s.me.nreg = true) :
    ∃ t, exec i s = .next t ∧ CommitDone s t ∧ (P t → t.me.pc = s.me.pc + toWord o.len.bytes ∧ t.me.st = .ready) ∧
      (¬ P t → t.me.pc = s.me.pc ∧ t.me.st = .waiting .retry) := by
  cases i
  case fence scope order o' =>
    obtain rfl : o' = o := (Prod.mk.inj (Option.some.inj (hi s))).1
    have hP : ∀ t, P t = strandPerformed t order s.me.own := fun t => (Prod.mk.inj (Option.some.inj (hi t))).2.symm
    refine hc.fences (b := fun u => u.fenceDone order u.me.own) hw ho rfl fun u t hu hown h => ?_
    rw [hP, h.strandPerformed_iff, State.fenceDone_iff, hown]
  case fencep scope order paths o' =>
    obtain rfl : o' = o := (Prod.mk.inj (Option.some.inj (hi s))).1
    have hP : ∀ t, P t = pathsPerformed t order paths s.cur.1 s.me.own := fun t => (Prod.mk.inj (Option.some.inj (hi t))).2.symm
    refine hc.fences (b := fun u => u.pathsDone order paths u.cur.1 u.me.own) hw ho rfl fun u t hu hown h => ?_
    rw [hP, h.pathsPerformed_iff, State.pathsDone_iff, hown, hu.cur]
  all_goals exact nomatch hi s

end

/-- Settles O6: all but NOP commit first, and then the strand alone changes. -/
theorem commitInstructions : Obligations.CommitInstructions :=
  ⟨fun _ _ hc ho => nop_done hc ho, fun _ _ _ _ _ hc hw hi ho => commit_retired hc hw hi ho,
    fun _ _ _ _ hc hw hi ho => fence_done hc hw hi ho⟩

end Sys2Proof.Machine
end

section
/-! A return from a fault whose handler is the last strand of its launch: the Spine's completion record goes to the scratchpad of
the very core, whose range watchpoints stop it, so that the returned strand is stopped (18 R411; 19 R431, R432). -/

namespace Sys2Proof.Machine

/-- The strand in the holder, of launch 1. -/
def watchedReturnHeld : Strand := { Strand.blank with lh := 1, own := 2 }

/-- Its fault handler, the one strand of launch 0. -/
def watchedReturnHandler : Strand := { Strand.blank with kind := .handler, own := 1 }

/-- A range watchpoint that stops the core when any byte of its scratchpad is written. -/
def scratchpadWatch : WatchPt := { ctl := 0x7400000000000000, val := 0x1000000, hit := 0 }

/-- A queue with room for one completion record. -/
def completionQueue : Queue where
  asid := 0
  qcb := { queue := 0, addr := 0, ring := 0, n := 0, prio := 0, compRing := 0x10000, compSize := 1, readPos := 0 }
  pending := false
  comps := 0
  open_ := []
  writing := none
  runnable := false
  since := 0

/-- The state in which the handler issues SRESUME. The bytes of memory are two entries of the context's page tables, by which its
page at 0x10000 lies in the scratchpad that core 16 has donated to the pool. -/
def watchedReturn : State :=
  { State.reset with
    mem := [(0, 3), (8, 1), (14, 0x40)]
    parts := [(0, { Partition.blank with chips := stackSites, donors := [16], d := 1 })]
    cores := [(16, { Core.blank with
      slots := [(0, watchedReturnHandler)], holders := [(0, (0, watchedReturnHeld))], wp := Vector.replicate 4 scratchpadWatch })]
    ctxs := [(0, { Ctx.blank with part := 0, launches := [(0, { Launch.blank with notify := true })] })]
    spine := { Spine.reset with asidRoot := [(0, 1)], queues := [(0, completionQueue)] }
    cur := (16, 0) }

/-- SRESUME to address 0 that takes no register of the handler. -/
def plainReturn : Ops := { len := .w64, m := 0, d := .none, a := .none, b := .none, c := .none }

/-- The state after an outcome, or before it when there is none. -/
def stateAfter (s : State) : Host.Outcome State Fault Refusal → State
  | .next t => t
  | _ => s

theorem watchedReturn_stops :
    ((stateAfter watchedReturn (exec (.sresume plainReturn) watchedReturn)).strand? 16 0).map (·.stopped) = some true := by
  decide +kernel

theorem watchedReturn_calm : watchedReturn.Calm where
  runs := by unfold State.Runs; decide +kernel
  quiet := ⟨by decide +kernel, by decide +kernel⟩

theorem watchedReturn_settled : watchedReturn.Settled := ⟨by decide +kernel, by decide +kernel, by decide +kernel⟩

theorem watchedReturn_noWaits : watchedReturn.NoWaits := ⟨by decide +kernel, by decide +kernel⟩

/-- Refutes O22: in its last clause no hypothesis shuts out the watchpoints, one of which stops the strand that returns. -/
theorem not_strandEnds : ¬ Obligations.StrandEnds := by
  unfold Obligations.StrandEnds
  rintro ⟨-, hreturn⟩
  obtain ⟨t, q, hexec, hq, -, -, -, hkept, -⟩ := hreturn plainReturn watchedReturn 0 watchedReturnHeld watchedReturn_calm
    watchedReturn_settled watchedReturn_noWaits (by decide +kernel) (by decide +kernel) (by decide +kernel) (by decide +kernel)
    (by decide +kernel)
  have hruns : q.stopped = false := (congrArg Strand.stopped hkept :)
  have hstops := watchedReturn_stops
  rw [hexec] at hstops
  have hstopped : (t.strand? 16 0).map (·.stopped) = some true := hstops
  have hslot : t.strand? 16 0 = some q := hq
  rw [hslot, Option.map_some, hruns] at hstopped
  exact absurd hstopped (by decide)

end Sys2Proof.Machine
end

section
/-! The end of QUIESCE takes a strand whose instruction has just retired to its boundary: its open region aborts, and each g
register that the checkpoint restores meets its watchpoints, one of which writes a trace record (07 R199; 04 R104; 19 R431,
R433). -/

namespace Sys2Proof.Machine

/-- A register watchpoint on g0 of the strands whose SID has a low half of 0; it traces. -/
def restoreWatch : WatchPt := { ctl := 0xD000000000000000, val := 0, hit := 0 }

/-- A core in QUIESCE with one ready strand, whose region is open; its context has 1,024 trace records at the start of HBM4E. -/
def watchedQuiesce : State :=
  { State.reset with
    cores := [(16, { Core.blank with
      phase := .quiesce, cfg := coreCfg 0 false 0, slots := [(0, { Strand.blank with ckptDue := false })],
      wp := Vector.replicate 4 restoreWatch })]
    ctxs := [(0, { Ctx.blank with trcCfg := 0xA00 })] }

/-- The first byte of the trace buffer becomes the type of a watchpoint's record. -/
theorem watchedQuiesce_traces :
    memGet (stateAfter watchedQuiesce (exec (.quiesceEnd 16) watchedQuiesce)).mem 0 ≠ memGet watchedQuiesce.mem 0 := by
  decide +kernel

/-- Refutes O42: its clause on the end of QUIESCE keeps every byte of memory, but shuts out no watchpoint, and the trace record
of one that the abort of an open region meets goes to memory. -/
theorem not_preemptionEvents : ¬ Obligations.PreemptionEvents := by
  unfold Obligations.PreemptionEvents
  rintro ⟨-, -, hquiesce, -⟩
  obtain ⟨hsettled, -⟩ := hquiesce watchedQuiesce 16 (by decide +kernel)
  obtain ⟨t, hexec, -, -, hbytes⟩ := hsettled (by decide +kernel)
  have htraces := watchedQuiesce_traces
  rw [hexec] at htraces
  exact htraces (hbytes 0)

end Sys2Proof.Machine
end

section
/-! The issue opportunity of a core (07 R180 to R182): which strand leads a group, what its members share, and what
the group's issue leaves of the core. -/

namespace Sys2Proof.Machine

/-! ### The leader and the members of a group -/

/-- What precedes every other element of a list comes first when the list is sorted. -/
theorem head?_sortBy {α : Type} {le : α → α → Bool} {a : α} : ∀ {l : List α}, a ∈ l →
    (∀ b ∈ l, b ≠ a → le a b = true ∧ le b a = false) → (sortBy le l).head? = some a
  | b :: l, ha, hle => by
    show (insertBy le b (sortBy le l)).head? = some a
    by_cases hb : b = a
    · subst hb
      cases hsort : sortBy le l with
      | nil => rfl
      | cons x rest =>
        have hx : x ∈ l := (mem_sortBy le x l).mp (by simp [hsort])
        unfold insertBy
        split
        · rfl
        · by_cases hxb : x = b
          · exact congrArg some hxb
          · exact absurd (hle x (List.mem_cons_of_mem _ hx) hxb).1 ‹_›
    · have hin : a ∈ l := (List.mem_cons.mp ha).resolve_left (Ne.symm hb)
      have ih := head?_sortBy hin fun x hx => hle x (List.mem_cons_of_mem _ hx)
      obtain ⟨rest, hsort⟩ := List.head?_eq_some_iff.mp ih
      rw [hsort, insertBy, (hle b List.mem_cons_self hb).2]
      rfl

/-- A group is empty without candidates; else it is the first of them and some that share its PC and its word. -/
theorem Core.group_cases (k : Core) (l : List Cand) : (l = [] ∧ k.group l = []) ∨
    ∃ a rest, (sortBy k.leads l).head? = some a ∧ k.group l = a :: rest ∧
      ∀ b ∈ rest, b ∈ l ∧ b.strand.pc = a.strand.pc ∧ b.word = a.word := by
  unfold Core.group
  cases hsort : sortBy k.leads l with
  | nil =>
    refine .inl ⟨List.eq_nil_iff_forall_not_mem.mpr fun x hx => ?_, rfl⟩
    simpa [hsort] using (mem_sortBy k.leads x l).mpr hx
  | cons a rest =>
    refine .inr ⟨a, _, rfl, rfl.trans (apply_ite (a :: ·) _ [] _).symm, fun b hb => ?_⟩
    split at hb
    · simp at hb
    · obtain ⟨hrest, hjoins⟩ := List.mem_filter.mp (List.mem_of_mem_take hb)
      simp only [Bool.and_eq_true, beq_iff_eq] at hjoins
      obtain ⟨⟨⟨hpc, hword⟩, -⟩, -⟩ := hjoins
      exact ⟨(mem_sortBy k.leads b l).mp (by simp [hsort, hrest]), hpc, hword⟩

theorem Core.mem_of_mem_group {k : Core} {l : List Cand} {b : Cand} (h : b ∈ k.group l) : b ∈ l := by
  rcases k.group_cases l with ⟨-, hnil⟩ | ⟨a, rest, hhead, hgroup, hrest⟩
  · simp [hnil] at h
  · rw [hgroup] at h
    rcases List.mem_cons.mp h with rfl | hb
    · exact (mem_sortBy k.leads b l).mp (List.mem_of_head? hhead)
    · exact (hrest b hb).1

theorem Core.group_shares {k : Core} {l : List Cand} {x y : Cand} (hx : x ∈ k.group l) (hy : y ∈ k.group l) :
    x.strand.pc = y.strand.pc ∧ x.word = y.word := by
  rcases k.group_cases l with ⟨-, hnil⟩ | ⟨a, rest, -, hgroup, hrest⟩
  · simp [hnil] at hx
  · have hleader : ∀ b ∈ k.group l, b.strand.pc = a.strand.pc ∧ b.word = a.word := fun b hb => by
      rw [hgroup] at hb
      rcases List.mem_cons.mp hb with rfl | hb
      · exact ⟨rfl, rfl⟩
      · exact (hrest b hb).2
    obtain ⟨hxpc, hxword⟩ := hleader x hx
    obtain ⟨hypc, hyword⟩ := hleader y hy
    exact ⟨hxpc.trans hypc.symm, hxword.trans hyword.symm⟩

/-- The candidate of greatest age is a member: it leads. -/
theorem Core.mem_group_of_oldest {k : Core} {l : List Cand} {a : Cand} (ha : a ∈ l)
    (hage : ∀ b ∈ l, b ≠ a → b.strand.age < a.strand.age) : a ∈ k.group l := by
  have hfirst : (sortBy k.leads l).head? = some a := head?_sortBy ha fun b hb hne => by
    have hlt := hage b hb hne
    have hneq : b.strand.age ≠ a.strand.age := hlt.ne
    simp [Core.leads, hlt, hlt.le, hneq]
  rcases k.group_cases l with ⟨hnil, -⟩ | ⟨b, rest, hhead, hgroup, -⟩
  · simp [hnil] at ha
  · rw [hfirst] at hhead
    cases hhead
    simp [hgroup]

/-! ### What counters leave -/

/-- Of one core the performance counters have changed, and nothing else in the module. -/
structure CountersOnly (s t : State) (c : Nat) : Prop where
  core : { t.core c with perf := (s.core c).perf } = s.core c
  others : ∀ k, k ≠ c → t.core k = s.core k
  rest : { t with cores := s.cores } = s

theorem CountersOnly.refl (s : State) (c : Nat) : CountersOnly s s c := ⟨rfl, fun _ _ => rfl, rfl⟩

theorem CountersOnly.count {s t : State} {c : Nat} (h : CountersOnly s t c) (n k : Nat) : CountersOnly s (t.count c n k) c where
  core := by
    rw [State.count, State.modCore_core, Core.counted_eq, ← h.core]
  others d hd := (t.count_core_ne n k hd).trans (h.others d hd)
  rest := h.rest

theorem CountersOnly.ite {s t u : State} {c : Nat} (p : Prop) [Decidable p] (h : CountersOnly s t c) (k : CountersOnly s u c) :
    CountersOnly s (if p then t else u) c := by
  split
  · exact h
  · exact k

/-! ### The group issues -/

/-- A group of members, by their slots, has issued on a core (07 R180, R182). -/
structure Issued (s t : State) (c : Nat) (g : List Nat) : Prop where
  cc : (t.core c).cc = (s.core c).cc
  ptr : (t.core c).ptr = ((s.core c).ptr + 1) % 64
  slots : ∃ fused, (t.core c).slots = (s.core c).slots.map fun e => (e.1, e.2.aged e.1 g fused)
  others : ∀ k, k ≠ c → t.core k = s.core k
  mem : t.mem = s.mem
  issuing : t.issuing = (numsWhere 64 g.contains).map fun n => (c, n)

theorem CountersOnly.issued {s u w : State} {c : Nat} {f : Core → Core} {g : List Nat} {fused : Bool}
    (h : CountersOnly (s.modCore c f) w c) (hcc : (f (s.core c)).cc = (s.core c).cc)
    (hptr : (f (s.core c)).ptr = ((s.core c).ptr + 1) % 64)
    (hslots : (f (s.core c)).slots = (s.core c).slots.map fun e => (e.1, e.2.aged e.1 g fused))
    (hu : u = { w with issuing := (numsWhere 64 g.contains).map fun n => (c, n) }) : Issued s u c g := by
  have hcore := h.core
  rw [State.modCore_core] at hcore
  subst hu
  constructor
  case cc => exact (congrArg Core.cc hcore).trans hcc
  case ptr => exact (congrArg Core.ptr hcore).trans hptr
  case slots => exact ⟨fused, (congrArg Core.slots hcore).trans hslots⟩
  case others => exact fun k hk => (h.others k hk).trans (s.modCore_core_ne f hk)
  case mem => exact (congrArg State.mem h.rest :)
  case issuing => rfl

theorem State.issued_issueGroup (s : State) (c : Nat) (g : List Cand) :
    Issued s (s.issueGroup c g) c (g.map (·.slot)) :=
  have hwalks := fun (b : Bool) (v : State) =>
    CountersOnly.ite (b = true) ((CountersOnly.refl v c).count 7 1) ((CountersOnly.refl v c).count 1 1)
  have hfused := fun (b b' : Bool) (n : Nat) (v : State) =>
    CountersOnly.ite (b' = true) (((hwalks b v).count 3 1).count 4 n) (hwalks b v)
  (((hfused _ _ _ _).count 5 _).count 6 _).issued rfl rfl rfl rfl

section
variable {s t : State} {c n : Nat} {g : List Nat}

theorem Issued.mem_issuing (h : Issued s t c g) {x : Nat × Nat} : x ∈ t.issuing ↔ ∃ n ∈ g, n < 64 ∧ x = (c, n) := by
  rw [h.issuing, numsWhere]
  simp only [List.mem_map, List.mem_filter, List.mem_range, List.contains_iff_mem]
  constructor
  · rintro ⟨n, ⟨hn, hg⟩, rfl⟩
    exact ⟨n, hg, hn, rfl⟩
  · rintro ⟨n, hg, hn, rfl⟩
    exact ⟨n, ⟨hn, hg⟩, rfl⟩

/-- A member of a group issues with age 0; any other strand keeps its state and grows older. -/
theorem Strand.aged_cases (p : Strand) (n : Nat) (g : List Nat) (fused : Bool) :
    (p.aged n g fused).g = p.g ∧ (p.aged n g fused).pc = p.pc ∧
      (n ∈ g → (p.aged n g fused).st = .issuing ∧ (p.aged n g fused).age = 0) ∧
      (n ∉ g → (p.aged n g fused).st = p.st ∧ (p.aged n g fused).age = min (p.age + 1) 1023) := by
  by_cases hn : n ∈ g
  · simp [Strand.aged, Strand.yielded, hn]
  · simp [Strand.aged, Strand.yielded, Strand.older, hn]

theorem Issued.strand {p : Strand} (h : Issued s t c g) (hn : n < 64) (hp : s.strand? c n = some p) :
    ∃ q, t.strand? c n = some q ∧ q.g = p.g ∧ q.pc = p.pc ∧ ((c, n) ∈ t.issuing → q.st = .issuing ∧ q.age = 0) ∧
      ((c, n) ∉ t.issuing → q.st = p.st ∧ q.age = min (p.age + 1) 1023) := by
  obtain ⟨fused, hslots⟩ := h.slots
  have hmember : (c, n) ∈ t.issuing ↔ n ∈ g := by simp [h.mem_issuing, hn]
  obtain ⟨hg, hpc, hin, hout⟩ := p.aged_cases n g fused
  refine ⟨p.aged n g fused, ?_, hg, hpc, fun hi => hin (hmember.mp hi), fun hi => hout (mt hmember.mpr hi)⟩
  rw [State.strand?] at hp ⊢
  rw [hslots, tfind_map_key (fun i q => Strand.aged q i g fused), hp]
  rfl

end

end Sys2Proof.Machine
end

section
/-! What is due on a core at an issue opportunity (05 R132, R133; 04 R103, R109), and what the core's cycle leaves (05 R140). -/

namespace Sys2Proof.Machine

theorem mem_of_tfind {α : Type} {n : Nat} {v : α} : ∀ {t : Tbl α}, tfind t n = some v → (n, v) ∈ t
  | (k, w) :: t, h => by
    simp only [tfind] at h
    split at h
    case isTrue hk =>
      cases h
      exact hk ▸ List.mem_cons_self
    case isFalse => exact List.mem_cons_of_mem _ (mem_of_tfind h)

/-! ### A cycle of a core's clock -/

/-- A core's clock has counted a cycle: of the core its count, its samples that are due and its counters have changed. -/
structure Cycled (s t : State) (c : Nat) : Prop where
  core : { t.core c with sampleDue := (s.core c).sampleDue, perf := (s.core c).perf } =
    { s.core c with cc := (s.core c).cc + 1 }
  others : ∀ k, k ≠ c → t.core k = s.core k
  mem : t.mem = s.mem

theorem State.tickLanes_frame (s : State) (c n : Nat) : (s.tickLanes c n).cores = s.cores ∧ (s.tickLanes c n).mem = s.mem := by
  unfold State.tickLanes
  dsimp only
  split <;> exact ⟨rfl, rfl⟩

/-- But for the lanes, TIME and the counters, a cycle counts one and the samples that are due. -/
theorem State.cycle_counts (s : State) (c : Nat) : ∃ n u, CountersOnly u (s.cycle c) c ∧ u.mem = (s.tickLanes c 1).mem ∧
    u.cores = ((s.tickLanes c 1).modCore c fun k => { k with cc := k.cc + 1, sampleDue := k.sampleDue + n }).cores :=
  ⟨_, _, (CountersOnly.refl _ c).count 0 1, rfl, rfl⟩

theorem State.cycled_cycle (s : State) (c : Nat) : Cycled s (s.cycle c) c := by
  obtain ⟨hlanes, hmem⟩ := s.tickLanes_frame c 1
  obtain ⟨n, u, hcount, humem, hcores⟩ := s.cycle_counts c
  have hlane : ∀ k, (s.tickLanes c 1).core k = s.core k := fun k => congrArg (tget Core.blank · k) hlanes
  have hcore : ∀ k, u.core k = _ := fun k => congrArg (tget Core.blank · k) hcores
  constructor
  case core =>
    have hmine := hcount.core
    rw [(hcore c).trans (State.modCore_core _ _ _), hlane] at hmine
    exact congrArg (fun k : Core => { k with sampleDue := (s.core c).sampleDue, perf := (s.core c).perf }) hmine
  case others => exact fun k hk => (hcount.others k hk).trans ((hcore k).trans ((State.modCore_core_ne _ _ hk).trans (hlane k)))
  case mem => exact (congrArg State.mem hcount.rest :).trans (humem.trans hmem)

/-! ### What is due -/

theorem Core.endHolds_of_unheld {k : Core} (h : ∀ e ∈ k.slots, e.2.pauseUntil = none ∧ e.2.yielding = none) :
    ∃ l, k.endHolds = { k with holders := l } := by
  have hpause : (k.slots.map fun e => (e.1, e.2.endPause k.cc)) = k.slots :=
    (List.map_congr_left (g := id) fun e he => by simp [Strand.endPause, Strand.pauseOver, (h e he).1]).trans (List.map_id _)
  have hyield : ∀ j : Core, (k.slots.map fun e => (e.1, j.endYield e.1 e.2)) = k.slots := fun j =>
    (List.map_congr_left (g := id) fun e he => by simp [Core.endYield, (h e he).2]).trans (List.map_id _)
  unfold Core.endHolds
  dsimp only
  rw [hpause, hyield]
  exact ⟨_, rfl⟩

theorem State.commitDue_of_not_due {s : State} {c n : Nat} {count : Bool} (h : ∀ p, s.strand? c n = some p →
    (if count then decide (4096 ≤ p.retired) && !p.stopped else p.timeUp (s.core c).cc) = false) : s.commitDue c n count = s := by
  unfold State.commitDue
  split
  · rename_i p hp
    simp [h p hp]
  · rfl

theorem State.deferredAt_of_none {s : State} {c : Nat} (h : (s.core c).deferred = []) (n : Nat) : s.deferredAt c n = s := by
  unfold State.deferredAt State.takeDeferred
  split
  · rw [h]; rfl
  · rfl

theorem Strand.not_timeUp {p : Strand} {cc : Word} (hmust : p.mustCommit = false)
    (hfirst : ∀ u, p.firstStore = some u → cc < u + 1024) : p.timeUp cc = false := by
  unfold Strand.timeUp
  rw [hmust, Bool.false_or]
  cases hp : p.firstStore with
  | none => rfl
  | some u => simpa using hfirst u hp

theorem Strand.timeUp_of_over {p : Strand} {cc u : Word} (hu : p.firstStore = some u) (h : u + 1024 ≤ cc) :
    p.timeUp cc = true := by
  rw [Strand.timeUp, hu, Option.map_some, Option.getD_some, decide_eq_true h, Bool.or_true]

/-- At a slot whose strand commits neither by time nor by count, on a core without a deferred fault, nothing is done. -/
theorem State.nothing_at_slot {s : State} {c n : Nat} (htime : ∀ p, s.strand? c n = some p → p.timeUp (s.core c).cc = false)
    (hcount : ∀ p, s.strand? c n = some p → p.retired < 4096) (hfaults : (s.core c).deferred = []) :
    ((s.commitDue c n false).commitDue c n true).deferredAt c n = s := by
  have hbyTime : s.commitDue c n false = s := State.commitDue_of_not_due htime
  have hbyCount : s.commitDue c n true = s := State.commitDue_of_not_due fun p hp => by simp [hcount p hp]
  rw [hbyTime, hbyCount, State.deferredAt_of_none hfaults]

/-- With nothing due, what is due changes only the strands in holders. -/
theorem NothingDue.dueAt_cycle {s : State} {c : Nat} (h : NothingDue s c) :
    ∃ l, (s.cycle c).dueAt c = (s.cycle c).modCore c fun k => { k with holders := l } := by
  have hclock := (s.cycled_cycle c).core
  have hslots : ((s.cycle c).core c).slots = (s.core c).slots := (congrArg Core.slots hclock :)
  have hcc : ((s.cycle c).core c).cc = (s.core c).cc + 1 := (congrArg Core.cc hclock :)
  have hdeferred : ((s.cycle c).core c).deferred = (s.core c).deferred := (congrArg Core.deferred hclock :)
  obtain ⟨l, hholds⟩ := Core.endHolds_of_unheld (k := (s.cycle c).core c) (by rw [hslots]; exact h.held)
  have hends : (s.cycle c).modCore c Core.endHolds = (s.cycle c).modCore c fun k => { k with holders := l } :=
    congrArg ((s.cycle c).setCore c) hholds
  have hcore := (s.cycle c).modCore_core c fun k => { k with holders := l }
  refine ⟨l, ?_⟩
  unfold State.dueAt
  dsimp only
  rw [hends]
  generalize (s.cycle c).modCore c (fun k => { k with holders := l }) = u at hcore
  have hmem : ∀ n p, u.strand? c n = some p → (n, p) ∈ (s.core c).slots := fun n p hp => by
    rw [State.strand?, hcore] at hp
    exact hslots ▸ mem_of_tfind hp
  refine foldl_same _ _ _ fun n _ => State.nothing_at_slot (fun p hp => ?time) (fun p hp => h.count _ (hmem n p hp)) ?faults
  case time =>
    obtain ⟨hmust, hfirst⟩ := h.time _ (hmem n p hp)
    rw [hcore]
    exact Strand.not_timeUp hmust fun u hu => lt_of_eq_of_lt hcc (hfirst u hu)
  case faults =>
    rw [hcore]
    exact hdeferred.trans h.faults

end Sys2Proof.Machine
end

section
/-! Issue opportunities, the ends of holds, commits that are due, and samples (07 R179 to R182; 05 R132, R133; 04 R103; 19
R435). -/

namespace Sys2Proof.Machine

/-! ### Commits that are due (04 R103) -/

section
variable {s : State} {c n : Nat} {p : Strand}

theorem State.Unwatched.modCore (h : s.Unwatched) {f : Core → Core} (hf : (f (s.core c)).wp = (s.core c).wp) :
    (s.modCore c f).Unwatched := fun d i hi => by
  by_cases hd : d = c
  · subst hd
    rw [State.modCore_core, hf]
    exact h d i hi
  · rw [State.modCore_core_ne _ _ hd]
    exact h d i hi

theorem State.commitRegion_eq (h : s.strand? c n = some p) : s.commitRegion c n = if p.region.isEmpty then s.flushSlot c n p else
    (mergeRegion p.region).foldl (fun t b => t.handOver c n false b) { s.flushSlot c n p with
      loads := mapWhere (fun l => l.core == c && l.own == p.own) (fun l => l.keepOwn p.region) (s.flushSlot c n p).loads } := by
  rw [State.commitRegion, h]
  rfl

/-- The writes in flight after the commit of the region of the strand in a slot. -/
theorem State.writes_commitRegion (h : s.strand? c n = some p) (hw : s.Unwatched) :
    ∃ ws, (s.commitRegion c n).writes = s.writes ++ ws ∧
      ws.map (·.cells) = ((mergeRegion p.region).map (·.cells)).filter (fun l => !l.isEmpty) ∧
      ∀ w ∈ ws, w.core = c ∧ w.slot = n ∧ w.sid = p.sid ∧ w.rel = false ∧ w.locked = false := by
  obtain ⟨v, hflush⟩ := s.flushSlot_eq c n p
  have hunwatched : (s.flushSlot c n p).Unwatched := by
    rw [hflush]
    exact hw.modCore rfl
  rw [State.commitRegion_eq h]
  split
  case isTrue hempty =>
    rw [List.isEmpty_iff.mp hempty, hflush]
    exact ⟨[], (List.append_nil _).symm, rfl, by simp⟩
  case isFalse =>
    obtain ⟨ws, m, hfold, -, hcells, hunit⟩ := State.foldl_handOver_of_unwatched c n false (mergeRegion p.region)
      (s := { s.flushSlot c n p with
        loads := mapWhere (fun l => l.core == c && l.own == p.own) (fun l => l.keepOwn p.region) (s.flushSlot c n p).loads })
      hunwatched
    have hslot : (s.flushSlot c n p).strand? c n = some p.flushed := by
      rw [hflush]
      exact State.strand?_modCore_tput rfl
    have hsid : ((s.flushSlot c n p).strandAt c n).sid = p.sid := by
      rw [State.strandAt, hslot]
      rfl
    refine ⟨ws, by rw [hfold, hflush]; rfl, hcells, fun w hmem => ?_⟩
    obtain ⟨hcore, hsl, hid, hrel, hlock, -⟩ := hunit w hmem
    exact ⟨hcore, hsl, hid.trans hsid, hrel, hlock⟩

theorem State.regionHanded_commitRegion (h : s.strand? c n = some p) (hw : s.Unwatched) :
    RegionHanded s (s.commitRegion c n) c n p := by
  have hflush := State.flushed_commitRegion h hw
  exact ⟨⟨_, hflush.strand, rfl, rfl, rfl, rfl⟩, hflush.loads, State.writes_commitRegion h hw, hflush.slots, hflush.rest⟩

theorem State.commitDue_of_due {count : Bool} (h : s.strand? c n = some p) (hst : p.st = .ready)
    (hdue : (if count then decide (4096 ≤ p.retired) && !p.stopped else p.timeUp (s.core c).cc) = true) :
    s.commitDue c n count = s.commitRegion c n := by
  unfold State.commitDue
  simp [h, Strand.atBoundary, hst, hdue]

/-! ### What an issue opportunity gives -/

theorem exec_issueGroup (hphase : (s.core c).phase = .run) (hpower : (s.clu (coreClu c)).power = .up) :
    exec (.issueGroup c) s = .next (((s.cycle c).dueAt c).issueGroup c
      ((((s.cycle c).dueAt c).core c).group (((s.cycle c).dueAt c).eligible c))) := by
  show execIssueGroup c s = _
  simp only [execIssueGroup, hphase, hpower]
  rfl

theorem exec_sample (hdue : 0 < (s.core c).sampleDue) (hphase : (s.core c).phase = .run)
    (hslot : (s.core c).sampleSlot = some n) : ∃ t, exec (.sample c) s = .next t ∧
      t.cores = (s.modCore c fun k => { k with sampleDue := k.sampleDue - 1, sampled := n }).cores := by
  have hcond : ¬ ((s.core c).sampleDue == 0 || (s.core c).phase != .run) = true := by simp [hphase, hdue.ne']
  show ∃ t, execSample c s = _ ∧ _
  unfold execSample
  dsimp only
  rw [if_neg hcond, hslot]
  refine ⟨_, rfl, ?_⟩
  rw [State.trace_cores, State.modCore_modCore]

end

/-- Settles O33: the group is what `Core.group_cases` says of the eligible strands, and its issue what `Issued` says; the rest are
the events' conditions one by one. -/
theorem issueEvents : Obligations.IssueEvents := by
  unfold Obligations.IssueEvents
  refine ⟨?opportunity, ?nothingDue, fun c n s p hp => ⟨?pause, ?yield, ?commits⟩, ?sample⟩
  case opportunity =>
    rintro c s u hphase hpower rfl
    have hissued := State.issued_issueGroup ((s.cycle c).dueAt c) c
      ((((s.cycle c).dueAt c).core c).group (((s.cycle c).dueAt c).eligible c))
    refine ⟨_, exec_issueGroup hphase hpower, ?_⟩
    generalize (s.cycle c).dueAt c = u at hissued ⊢
    generalize u.issueGroup c _ = t at hissued ⊢
    refine ⟨hissued.cc, hissued.ptr, fun l => congrArg (memGet · l) hissued.mem, hissued.others, ?none, ?leader, ?members,
      fun n p hn hp => hissued.strand hn hp⟩
    case none =>
      intro hnone
      refine List.eq_nil_iff_forall_not_mem.mpr fun x hx => ?_
      obtain ⟨n, hn, -⟩ := (hissued.mem_issuing).mp hx
      obtain ⟨a, ha, -⟩ := List.mem_map.mp hn
      simpa [hnone] using Core.mem_of_mem_group ha
    case leader =>
      intro a ha hslot hage
      exact (hissued.mem_issuing).mpr ⟨a.slot, List.mem_map_of_mem (Core.mem_group_of_oldest ha hage), hslot, rfl⟩
    case members =>
      intro x hx y hy
      obtain ⟨i, hi, -, rfl⟩ := (hissued.mem_issuing).mp hx
      obtain ⟨j, hj, -, rfl⟩ := (hissued.mem_issuing).mp hy
      obtain ⟨a, ha, rfl⟩ := List.mem_map.mp hi
      obtain ⟨b, hb, rfl⟩ := List.mem_map.mp hj
      obtain ⟨hpc, hword⟩ := Core.group_shares ha hb
      exact ⟨a, Core.mem_of_mem_group ha, b, Core.mem_of_mem_group hb, rfl, rfl, hpc, hword⟩
  case nothingDue =>
    rintro c s u hnone rfl
    have hcycled := s.cycled_cycle c
    obtain ⟨l, hdue⟩ := hnone.dueAt_cycle
    have hslots : ((s.cycle c).core c).slots = (s.core c).slots := (congrArg Core.slots hcycled.core :)
    rw [hdue, State.modCore_core]
    refine ⟨(congrArg Core.cc hcycled.core :), (congrArg Core.ptr hcycled.core :), fun l => congrArg (memGet · l) hcycled.mem,
      fun n => ?_, fun k hk => (State.modCore_core_ne _ _ hk).trans (hcycled.others k hk)⟩
    rw [State.strand?_modCore_slots rfl, State.strand?, hslots, State.strand?]
  case pause =>
    intro u hu hover
    show execPauseEnd c n s = _
    simp [execPauseEnd, State.modStrand_some hp, Strand.endPause, Strand.pauseOver, hu, BitVec.le_def, hover]
  case yield =>
    intro y hy hover
    have hends : (s.core c).yieldOver n y = true := by
      rcases hover with h | h <;> simp [Core.yieldOver, h]
    show execYieldEnd c n s = _
    simp [execYieldEnd, State.modStrand_some hp, Core.endYield, hy, hends]
  case commits =>
    refine fun hw hst => ⟨fun u hu hover => ?_, fun hcount hrun => ?_⟩
    · have hdue : p.timeUp (s.core c).cc = true := Strand.timeUp_of_over hu hover
      exact ⟨_, congrArg Host.Outcome.next (State.commitDue_of_due (count := false) hp hst hdue),
        State.regionHanded_commitRegion hp hw⟩
    · have hdue : (decide (4096 ≤ p.retired) && !p.stopped) = true := by simp [hcount, hrun]
      exact ⟨_, congrArg Host.Outcome.next (State.commitDue_of_due (count := true) hp hst hdue),
        State.regionHanded_commitRegion hp hw⟩
  case sample =>
    intro c n s hdue hphase hslot
    obtain ⟨t, hexec, hcores⟩ := exec_sample hdue hphase hslot
    have hcore : ∀ k, t.core k = _ := fun k => congrArg (tget Core.blank · k) hcores
    have hmine := (hcore c).trans (State.modCore_core _ _ _)
    refine ⟨t, hexec, ?_, ?_, ?_, fun k hk => (hcore k).trans (State.modCore_core_ne _ _ hk)⟩
    all_goals rw [hmine]

end Sys2Proof.Machine
end

section
/-! Watchpoints, stops and the ends of waits see nothing of the clusters, the link chiplets and the shoot-downs on their way
(19 R424, R430 to R433; 10 R279). -/

namespace Sys2Proof.Machine

/-- Only the cores, memory, contexts and events have changed, as by watchpoints, stops and their trace records. -/
def WatchFrame (s t : State) : Prop :=
  { t with cores := s.cores, mem := s.mem, uncorr := s.uncorr, ctxs := s.ctxs, events := s.events, fresh := s.fresh } = s

section
variable {s t u : State}

theorem WatchFrame.refl (s : State) : WatchFrame s s := rfl

theorem WatchFrame.trans (h : WatchFrame s t) (k : WatchFrame t u) : WatchFrame s u := by
  unfold WatchFrame at h k ⊢
  rw [← h, ← k]

theorem WatchFrame.ite {p : Prop} [Decidable p] (h : WatchFrame s t) (k : WatchFrame s u) :
    WatchFrame s (if p then t else u) := by
  split
  · exact h
  · exact k

theorem WatchFrame.foldl {α : Type} {f : State → α → State} (hf : ∀ s a, WatchFrame s (f s a)) :
    ∀ (l : List α) (s : State), WatchFrame s (l.foldl f s)
  | [], s => .refl s
  | a :: l, s => (hf s a).trans (WatchFrame.foldl hf l (f s a))

theorem WatchFrame.shoots (h : WatchFrame s t) : t.shoots = s.shoots := (congrArg State.shoots h :)
theorem WatchFrame.links (h : WatchFrame s t) : t.links = s.links := (congrArg State.links h :)

theorem State.watchFrame_modCore (s : State) (c : Nat) (f : Core → Core) : WatchFrame s (s.modCore c f) := rfl

theorem State.watchFrame_modCtx (s : State) (a : Nat) (f : Ctx → Ctx) : WatchFrame s (s.modCtx a f) := rfl
theorem State.watchFrame_poke (s : State) (cells : List Host.Cell) : WatchFrame s (s.poke cells) := rfl

theorem State.watchFrame_events (s : State) (l : List HostEvent) : WatchFrame s { s with events := l } := rfl

theorem State.watchFrame_trace (s : State) (c : Nat) (r : TraceRec) : WatchFrame s (s.trace c r) := by
  unfold State.trace
  dsimp only
  split
  · exact .refl s
  · split
    · exact (s.watchFrame_poke _).trans (State.watchFrame_modCtx _ _ _)
    · exact s.watchFrame_modCtx _ _

theorem State.watchFrame_stopWhere (s : State) (c : Nat) (hit : Option Nat → Strand → Bool) : WatchFrame s (s.stopWhere c hit) :=
  (s.watchFrame_modCore c _).trans (.foldl (fun _ _ => State.watchFrame_trace _ _ _) _ _)

theorem State.watchFrame_settleStop (s : State) (c : Nat) : WatchFrame s (s.settleStop c) :=
  .ite ((s.watchFrame_modCore c fun k => k.setDst 2).trans (State.watchFrame_trace _ _ _)) (.refl s)

theorem State.watchFrame_stopOwn (s : State) (c own : Nat) : WatchFrame s (s.stopOwn c own) :=
  (s.watchFrame_stopWhere c _).trans (State.watchFrame_settleStop _ _)

theorem State.watchFrame_stopCore (s : State) (c : Nat) : WatchFrame s (s.stopCore c) :=
  .ite (s.watchFrame_modCore c _) (((WatchFrame.ite (s.watchFrame_modCore c fun k => k.setDst 1) (.refl s)).trans
    (State.watchFrame_stopWhere _ _ _)).trans (State.watchFrame_settleStop _ _))

theorem State.watchFrame_fire (s : State) (c i : Nat) (who : Option (Nat × Nat)) (sid pc : Word) (path : Nat) (what : Word) :
    WatchFrame s (s.fire c i who sid pc path what) := by
  have htraced : ∀ (b : Prop) [Decidable b] (r : TraceRec) (t : State), WatchFrame s t →
      WatchFrame s (if b then t else t.trace c r) :=
    fun _ _ r t ht => .ite ht (ht.trans (t.watchFrame_trace c r))
  have hcount := s.watchFrame_modCore c fun k =>
    { k with wp := vset k.wp i { vget { ctl := 0, val := 0, hit := 0 } (s.core c).wp i with
      hit := (vget { ctl := 0, val := 0, hit := 0 } (s.core c).wp i).hit + 1 } }
  unfold State.fire
  dsimp only
  split
  · exact (htraced _ _ _ hcount).trans (State.watchFrame_stopOwn _ _ _)
  · exact (htraced _ _ _ hcount).trans (State.watchFrame_stopCore _ _)
  · exact htraced _ _ _ hcount

theorem State.watchFrame_watchGAt (s : State) (c : Nat) (pl : Place) (n : Nat) : WatchFrame s (s.watchGAt c pl n) := by
  unfold State.watchGAt
  split
  · exact .foldl (fun t _ => .ite (t.watchFrame_fire _ _ _ _ _ _ _) (.refl t)) _ s
  · rfl

/-- A change of a strand where it stands is one of its core. -/
theorem State.modPlace_frame (s : State) (c : Nat) (pl : Place) (f : Strand → Strand) :
    { s.modPlace c pl f with cores := s.cores, fresh := s.fresh } = s := by
  cases pl with
  | slot n =>
    unfold State.modPlace State.modStrand
    dsimp only
    split <;> rfl
  | park n =>
    unfold State.modPlace
    dsimp only
    split <;> rfl

theorem State.watchFrame_modPlace (s : State) (c : Nat) (pl : Place) (f : Strand → Strand) : WatchFrame s (s.modPlace c pl f) :=
  (congrArg (fun t : State => { t with mem := s.mem, uncorr := s.uncorr, ctxs := s.ctxs, events := s.events })
    (s.modPlace_frame c pl f) :)

theorem State.watchFrame_reportAt (s : State) (c : Nat) (pl : Place) : WatchFrame s (s.reportAt c pl) := by
  unfold State.reportAt
  split
  · refine .ite ?_ (.refl s)
    exact ((s.watchFrame_modPlace c pl _).trans (State.watchFrame_events _ _)).trans (State.watchFrame_trace _ _ _)
  · exact .refl s

theorem State.watchFrame_endWait (s : State) (c : Nat) (pl : Place) (d : Dst) (v : Word) : WatchFrame s (s.endWait c pl d v) := by
  have hput := s.watchFrame_modPlace c pl fun p => p.endWait d v
  refine WatchFrame.trans ?_ (State.watchFrame_reportAt _ _ _)
  refine WatchFrame.trans ?_ (State.watchFrame_modCore _ c _)
  split
  · exact hput.trans (State.watchFrame_watchGAt _ _ _ _)
  · exact hput

end

/-! ### The end of the wait of a strand in a slot -/

theorem Strand.endWait_eq (p : Strand) (d : Dst) (v : Word) : p.endWait d v = (p.setD d v).retire := by cases d <;> rfl

theorem State.Unwatched.watchGAt {s : State} (h : s.Unwatched) (c : Nat) (pl : Place) (n : Nat) : s.watchGAt c pl n = s := by
  unfold State.watchGAt
  split
  · refine State.fireAll_none s _ _ _ _ _ _ _ fun i hi => ?_
    simp only [h c i hi, Bool.and_eq_false_iff, beq_eq_false_iff_ne]
    exact .inl (.inl (.inl (by decide)))
  · rfl

/-- With no watchpoint armed and no step to report, the end of a wait writes the destination and retires the instruction. -/
theorem State.endWait_of_slot {s : State} {c n : Nat} {p : Strand} (hw : s.Unwatched) (hp : s.strand? c n = some p)
    (hstep : p.stepping = false) (d : Dst) (v : Word) :
    s.endWait c (.slot n) d v = (s.putStrand c n (p.setD d v).retire).count c 2 1 := by
  have hput : s.modPlace c (.slot n) (fun p => p.endWait d v) = s.putStrand c n (p.setD d v).retire := by
    rw [State.modPlace, State.modStrand_some hp, Strand.endWait_eq]
  have hunwatched : (s.putStrand c n (p.setD d v).retire).Unwatched := hw.modCore rfl
  have hwritten : s.endWait c (.slot n) d v = ((s.putStrand c n (p.setD d v).retire).count c 2 1).reportAt c (.slot n) := by
    unfold State.endWait
    dsimp only
    rw [hput]
    split
    · rw [hunwatched.watchGAt]
    · rfl
  rw [hwritten]
  refine State.reportStep_none fun q hq => ?_
  rw [State.strand?_count, State.strand?_putStrand] at hq
  cases hq
  exact (Strand.setD_stepping p d v).trans hstep

end Sys2Proof.Machine
end

section
/-! The units of a cluster: instruction lines, walks and shoot-downs (07 R179; 10 R264, R277 to R281; 23 R465). -/

namespace Sys2Proof.Machine

section
variable {s t : State} {k : Nat}

/-- The clusters of a state in which one has been changed. -/
theorem clu_of_modClu {f : Cluster → Cluster} (h : t.clusters = (s.modClu k f).clusters) :
    t.clu k = f (s.clu k) ∧ OneCluster s t k := by
  have hclu : ∀ j, t.clu j = (s.modClu k f).clu j := fun j => congrArg (tget Cluster.blank · j) h
  exact ⟨(hclu k).trans (s.modClu_clu k f), fun j hj => (hclu j).trans (s.modClu_clu_ne f hj)⟩

theorem memKept_of_mem (h : t.mem = s.mem) : MemKept s t := fun l => congrArg (memGet · l) h

/-! ### The instruction cache (07 R179, 10 R264) -/

/-- A line enters a set that is not full. -/
theorem exec_icacheFill {line c : Nat} {e : TlbEntry} {more : List (Nat × TlbEntry)} (v : Option Nat)
    (hmiss : s.fetchMisses k line = (c, e) :: more) (hroom : ((s.clu k).icSet line).length < 8) :
    ∃ t, exec (.icacheFill k line v) s = .next t ∧ t.mem = s.mem ∧ t.clusters = (s.modClu k fun u =>
      { u with icache := tput u.icache line (BitVec.ofNat 512
        (memVal s.mem (s.entryLocs (coreSite c) true e (toWord (64 * line)) 64))) }).clusters := by
  have hclusters : ∀ (cores : List Nat) (u : State), (cores.foldl (fun s c => s.count c 8 1) u).clusters = u.clusters :=
    foldl_keeps State.clusters _ fun _ _ => rfl
  have hmem : ∀ (cores : List Nat) (u : State), (cores.foldl (fun s c => s.count c 8 1) u).mem = u.mem :=
    foldl_keeps State.mem _ fun _ _ => rfl
  show ∃ t, execIcacheFill k line v s = _ ∧ _
  unfold execIcacheFill
  rw [hmiss]
  refine ⟨_, rfl, hmem _ _, (hclusters _ _).trans ?_⟩
  simp only [if_neg (Nat.not_le.mpr hroom)]
  split <;> rfl

/-! ### Walks (10 R277, R278) -/

/-- A leaf that has entered the TLB serves its address. -/
theorem State.tlbFind_enter {u : Cluster} {asid : BitVec 12} {sec big : Bool} {va pte : Word}
    (h : t.clu k = u.enter asid sec big va pte) : ∃ e, t.tlbFind k asid sec va = some e ∧ e.pte = pte ∧ e.big = big := by
  rw [State.tlbFind, h]
  refine ⟨_, List.find?_cons_of_pos ?_, rfl, rfl⟩
  simp [TlbEntry.hits]

/-- The end of a walk that has found a page changes only strands and operations of engines. -/
theorem State.endWalk_page_frame (s : State) (id : Nat) (e : TlbEntry) (w : Nat × Nat × ReqKind × Word) :
    { s.endWalk id (.page e) w with cores := s.cores, ops := s.ops } = s := by
  unfold State.endWalk State.endEngWalk
  dsimp only
  split
  · split
    · rfl
    · split <;> rfl
  · split
    · rfl
    · split
      · rfl
      · split <;> rfl

theorem State.endWalks_page_frame (id : Nat) (e : TlbEntry) : ∀ (l : List (Nat × Nat × ReqKind × Word)) (s : State),
    { l.foldl (fun s x => s.endWalk id (.page e) x) s with cores := s.cores, ops := s.ops } = s
  | [], _ => rfl
  | w :: l, s => by
    have hfirst := s.endWalk_page_frame id e w
    have hrest := State.endWalks_page_frame id e l (s.endWalk id (.page e) w)
    rw [List.foldl_cons]
    have hboth : { l.foldl (fun s x => s.endWalk id (.page e) x) (s.endWalk id (.page e) w) with cores := s.cores, ops := s.ops } =
        { s.endWalk id (.page e) w with cores := s.cores, ops := s.ops } :=
      (congrArg (fun t : State => { t with cores := s.cores, ops := s.ops }) hrest :)
    exact hboth.trans hfirst

/-- The strand whose access or fetch waited goes on. -/
theorem State.endWalk_of_strand {id c n : Nat} {kind : ReqKind} {va : Word} {p : Strand} (hkind : kind ≠ .engine)
    (hp : s.strand? c n = some p) (hwalk : p.walk = some id) (e : TlbEntry) :
    s.endWalk id (.page e) (c, n, kind, va) = s.putStrand c n { p with walk := none } := by
  unfold State.endWalk
  simp [hkind, hp, hwalk]

/-- The operation of an engine that waited has its page. -/
theorem State.endWalk_of_engine {id c n : Nat} {va : Word} {o : EngOp} (ho : EngAt s o) (hn : o.id = n) (hwalk : o.walk = some id)
    (e : TlbEntry) : (s.endWalk id (.page e) (c, n, .engine, va)).ops = s.ops.map fun y => if y.id = o.id then
      { o with walk := none, pages := tput o.pages (va.toNat / 2 ^ 16) (.page e) } else y := by
  subst hn
  have hsame : ∀ y ∈ s.ops, y.id = o.id → y = o := fun y hy hid =>
    List.inj_on_of_nodup_map ho.only hy (List.mem_of_find?_eq_some ho.found) hid
  have hend : s.endWalk id (.page e) (c, o.id, .engine, va) = s.modOp o.id fun o =>
      { o with walk := none, pages := tput o.pages (va.toNat / 2 ^ 16) (.page e) } := by
    simp [State.endWalk, State.endEngWalk, ho.found, hwalk]
  rw [hend]
  refine List.map_congr_left fun y hy => ?_
  by_cases hid : y.id = o.id
  · simp [hsame y hy hid]
  · simp [hid]

/-- A walk with a way to its tables that finds a leaf enters it, and ends for what waits for it. -/
theorem exec_tlbWalk_leaf {w : Walk} {big : Bool} {pte : Word}
    (hfind : ((s.clu k).walks.take 8).find? (fun x => x.id == w.id) = some w)
    (hleaf : (s.walkTables k w.asid w.va).leaf = some (big, pte))
    (hway : s.walkWay k (s.walkTables k w.asid w.va).sites = .clear) :
    ∃ u e, exec (.tlbWalk k w.id) s = .next (w.waiters.foldl (fun s x => s.endWalk w.id (.page e) x) u) ∧
      u.tlbFind k w.asid w.sec w.va = some e ∧ e.pte = pte ∧ e.big = big ∧
      (u.clu k).walks = (s.clu k).walks.filter (fun x => x.id != w.id) ∧ OneCluster s u k ∧
      { u with clusters := s.clusters } = s := by
  show ∃ u e, execTlbWalk k w.id s = _ ∧ _
  unfold execTlbWalk
  rw [hfind]
  dsimp only
  rw [hway, hleaf]
  dsimp only
  generalize hu : State.modClu _ k (fun u => Cluster.enter u w.asid w.sec big w.va pte) = u
  have hclu : u.clu k = _ := hu ▸ State.modClu_clu _ _ _
  obtain ⟨e, he, hpte, hbig⟩ := State.tlbFind_enter hclu
  rw [he]
  refine ⟨u, e, rfl, he, hpte, hbig, ?_, fun j hj => ?_, by rw [← hu]; rfl⟩
  · rw [hclu, State.modClu_clu, State.modClu_clu]
    rfl
  · rw [← hu, State.modClu_clu_ne _ _ hj, State.modClu_clu_ne _ _ hj, State.modClu_clu_ne _ _ hj]

theorem exec_tlbWalk_hole {w : Walk} (hfind : ((s.clu k).walks.take 8).find? (fun x => x.id == w.id) = some w)
    (hway : s.walkWay k (s.walkTables k w.asid w.va).sites = .hole) : exec (.tlbWalk k w.id) s = .next s := by
  show execTlbWalk k w.id s = _
  unfold execTlbWalk
  rw [hfind]
  dsimp only
  rw [hway]

end

end Sys2Proof.Machine
end

section
/-! Shoot-downs (10 R279 to R281; 23 R465), and the units of a cluster together. -/

namespace Sys2Proof.Machine

section
variable {s t : State} {x : Shoot}

/-! ### Requests -/

theorem mapWhere_id_eq (id : Nat) (f : Shoot → Shoot) (l : List Shoot) :
    mapWhere (fun y => y.id == id) f l = l.map fun y => if y.id = id then f y else y := by
  simp [mapWhere]

/-- What a cluster that has power does when it receives a shoot-down. -/
def Cluster.shotBy (u : Cluster) (x : Shoot) : Cluster :=
  { u with
    tlb := u.tlb.filter fun e => !x.drops e
    walkCache := []
    mailbox := if x.wide then u.mailbox ++ [x.id] else u.mailbox }

/-- A cluster with power has received a shoot-down: no other cluster and no memory has changed. -/
structure ShotDown (s t : State) (k : Nat) (x : Shoot) : Prop where
  clusters : t.clusters = (s.modClu k (·.shotBy x)).clusters
  mem : t.mem = s.mem

theorem ShotDown.commitDropped {k : Nat} (h : ShotDown s t k x) (gone : List TlbEntry) :
    ShotDown s (t.commitDropped k gone) k x := by
  unfold State.commitDropped
  exact List.foldlRecOn (motive := fun u => ShotDown s u k x) _ _ h fun _ hu _ _ => ⟨hu.clusters, hu.mem⟩

theorem ShotDown.modPlace {k : Nat} (h : ShotDown s t k x) (c : Nat) (pl : Place) (f : Strand → Strand) :
    ShotDown s (t.modPlace c pl f) k x :=
  ⟨(congrArg State.clusters (t.modPlace_frame c pl f) :).trans h.clusters,
    (congrArg State.mem (t.modPlace_frame c pl f) :).trans h.mem⟩

theorem State.shotDown_receiveShoot {k : Nat} (hpower : (s.clu k).power = .up) : ShotDown s (s.receiveShoot x k) k x := by
  have hshot : (s.modClu k fun u => { u with
      tlb := if u.power == .up then u.tlb.filter fun e => !x.drops e else u.tlb
      walkCache := if u.power == .up then [] else u.walkCache
      mailbox := if x.wide then u.mailbox ++ [x.id] else u.mailbox }) = s.modClu k (·.shotBy x) := by
    simp [State.modClu, Cluster.shotBy, hpower]
  have hasked : ∀ gone f, ShotDown s
      ((((s.modClu k (·.shotBy x)).dropPages k x).commitDropped k gone).modShoot x.id f) k x := fun gone f => by
    have h := ShotDown.commitDropped (s := s) (t := (s.modClu k (·.shotBy x)).dropPages k x) (x := x) ⟨rfl, rfl⟩ gone
    exact ⟨h.clusters, h.mem⟩
  unfold State.receiveShoot
  dsimp only
  rw [hshot]
  split
  · split
    · split
      · exact (hasked _ _).modPlace _ _ _
      · exact hasked _ _
    · exact hasked _ _
  · exact hasked _ _

theorem exec_shootdownRequest_received (hfind : s.shoots.find? (fun y => y.id == x.id) = some x) (hwide : x.wide = false)
    (hrefused : x.refused = false) (hgot : x.got = []) :
    exec (.shootdownRequest x.id x.clu) s = .next (s.receiveShoot x x.clu) := by
  show execShootdownRequest x.id x.clu s = _
  simp [execShootdownRequest, hfind, State.shootRoot, hwide, hrefused, hgot]

theorem exec_shootdownRequest_refused (hfind : s.shoots.find? (fun y => y.id == x.id) = some x) (hwide : x.wide = true)
    (hrefused : x.refused = false) (hgot : x.got = []) (hroot : s.shootRoot x = x.clu)
    (hfull : 8 ≤ (s.clu x.clu).mailbox.length) :
    exec (.shootdownRequest x.id x.clu) s = .next (s.modShoot x.id fun y => { y with refused := true }) := by
  show execShootdownRequest x.id x.clu s = _
  simp [execShootdownRequest, hfind, hwide, hrefused, hgot, hroot, hfull]

/-! ### The acknowledgement of the root -/

/-- The state at the root's acknowledgement, before the TLBINV retires: the link chiplets have dropped their translations, and the
shoot-down is over. -/
def State.shootOver (s : State) (x : Shoot) : State :=
  { (s.modClu x.clu fun u => { u with mailbox := u.mailbox.filter fun n => n != x.id }).dropLinks x with
    shoots := s.shoots.filter fun y => y.id != x.id }

/-- The TLBINV that waits for a shoot-down retires with the number of entries that were dropped. -/
def State.retireShoot (s : State) (x : Shoot) : State :=
  match s.waiter x.core fun w => match w with | .tlbinv n _ _ => n == x.id | _ => false with
  | some (pl, t) =>
    match t.wait? with
    | some (.tlbinv _ d n) => s.endWait x.core pl d (toWord n)
    | _ => s
  | none => s

theorem State.watchFrame_retireShoot (s : State) (x : Shoot) : WatchFrame s (s.retireShoot x) := by
  unfold State.retireShoot
  split
  · split
    · exact s.watchFrame_endWait _ _ _ _
    · exact .refl s
  · exact .refl s

theorem State.treeParent_modClu {f : Cluster → Cluster} (hf : ∀ u, (f u).tree = u.tree) (s : State) (k j : Nat) :
    (s.modClu k f).treeParent j = s.treeParent j := by
  have htree : ((s.modClu k f).clu j).tree = (s.clu j).tree := by
    by_cases hj : j = k
    · rw [hj, State.modClu_clu, hf]
    · rw [State.modClu_clu_ne _ _ hj]
  unfold State.treeParent
  rw [htree]
  rfl

theorem State.shootRoot_modClu {f : Cluster → Cluster} (hf : ∀ u, (f u).tree = u.tree) (s : State) (k : Nat) (x : Shoot) :
    (s.modClu k f).shootRoot x = s.shootRoot x := by
  have hroot : ∀ n j, (s.modClu k f).treeRoot n j = s.treeRoot n j := fun n => by
    induction n with
    | zero => exact fun _ => rfl
    | succ n ih =>
      intro j
      unfold State.treeRoot
      rw [State.treeParent_modClu hf]
      split
      · exact ih _
      · rfl
  unfold State.shootRoot
  rw [hroot]

/-- The root of a shoot-down acknowledges it, alone or as a node without children whose oldest request it is. -/
theorem exec_shootdownAck_root {mark : Nat} (hfind : s.shoots.find? (fun y => y.id == x.id) = some x)
    (hgot : x.got = [(x.clu, mark)]) (hacked : x.acked = []) (hdrained : s.drainedClu x.clu mark = true)
    (hroot : s.shootRoot x = x.clu)
    (hwide : x.wide = true → (s.links.any fun e => !e.2.sent.isEmpty) = false ∧ (s.clu x.clu).mailbox.head? = some x.id ∧
      s.treeChildren x.clu = []) :
    exec (.shootdownAck x.id x.clu) s = .next ((s.shootOver x).retireShoot x) := by
  have hready : (x.acked.contains x.clu || !s.drainedClu x.clu mark || (x.wide && s.links.any fun e => !e.2.sent.isEmpty) ||
      (x.wide && ((s.clu x.clu).mailbox.head? != some x.id || !(s.treeChildren x.clu).all x.acked.contains))) = false := by
    cases hw : x.wide with
    | false => simp [hacked, hdrained]
    | true =>
      obtain ⟨hlinks, hhead, hleaf⟩ := hwide hw
      simp [hacked, hdrained, hlinks, hhead, hleaf]
  have hafter : (s.modClu x.clu fun u => { u with mailbox := u.mailbox.filter fun n => n != x.id }).shootRoot x = x.clu :=
    Eq.trans (State.shootRoot_modClu (by exact fun _ => rfl) _ _ _) hroot
  have hmine : x.got.find? (fun g => g.1 == x.clu) = some (x.clu, mark) := by simp [hgot]
  show execShootdownAck x.id x.clu s = _
  unfold execShootdownAck
  rw [hfind]
  dsimp only
  rw [hmine]
  dsimp only
  rw [hready, if_neg Bool.false_ne_true, if_pos hafter.symm]
  rfl

/-- A link chiplet has dropped the translations of a shoot-down. -/
def Link.shotBy (u : Link) (x : Shoot) : Link := { u with tcache := u.tcache.filter fun e => !x.drops e }

theorem State.link_shootOver (hwide : x.wide = true) (l : Nat) :
    ((s.shootOver x).link l).tcache = (s.link l).tcache.filter fun e => !x.drops e := by
  have hlinks : (s.shootOver x).links = s.links.map fun e => (e.1, e.2.shotBy x) := by
    unfold State.shootOver State.dropLinks
    rw [if_pos hwide]
    rfl
  rw [State.link, State.link, tget, tget, hlinks, tfind_map (Link.shotBy · x)]
  cases tfind s.links l <;> rfl

/-- The TLBINV in a slot retires at the root's acknowledgement. -/
theorem State.retireShoot_of_slot {n : Nat} {p : Strand} {d : Dst} (hw : s.Unwatched)
    (hwait : s.waiter x.core (fun w => match w with | .tlbinv m _ _ => m == x.id | _ => false) = some (.slot x.slot, p))
    (hp : s.strand? x.core x.slot = some p) (hst : p.st = .waiting (.tlbinv x.id d n)) (hstep : p.stepping = false) :
    s.retireShoot x = (s.putStrand x.core x.slot (p.setD d (toWord n)).retire).count x.core 2 1 := by
  have hwaits : p.wait? = some (.tlbinv x.id d n) := by simp [Strand.wait?, hst]
  rw [← State.endWait_of_slot hw hp hstep]
  unfold State.retireShoot
  split
  case h_1 pl q hfound =>
    cases hfound.symm.trans hwait
    rw [hwaits]
  case h_2 hnone => cases hnone.symm.trans hwait

/-! ### The acknowledgement of a shoot-down of one cluster -/

/-- The shoot-down of one cluster is over: its TLBINV has retired. -/
theorem shootdownAck_retires {mark n : Nat} {p : Strand} {d : Dst} (hfind : s.shoots.find? (fun y => y.id == x.id) = some x)
    (hw : s.Unwatched) (hwide : x.wide = false) (hgot : x.got = [(x.clu, mark)]) (hacked : x.acked = [])
    (hdrained : s.drainedClu x.clu mark = true)
    (hwait : s.waiter x.core (fun w => match w with | .tlbinv m _ _ => m == x.id | _ => false) = some (.slot x.slot, p))
    (hp : s.strand? x.core x.slot = some p) (hst : p.st = .waiting (.tlbinv x.id d n)) (hstep : p.stepping = false) :
    ∃ t q, exec (.shootdownAck x.id x.clu) s = .next t ∧ t.strand? x.core x.slot = some q ∧
      p.Wrote q d (BitVec.ofNat 64 n) ∧ q.pc = p.pc + toWord p.word.bytes ∧ q.st = .ready ∧
      t.shoots = s.shoots.filter (fun y => y.id != x.id) ∧ SlotsKept s t x.core x.slot ∧ MemKept s t := by
  have hroot : s.shootRoot x = x.clu := by simp [State.shootRoot, hwide]
  have hover : (s.shootOver x).cores = s.cores ∧ (s.shootOver x).mem = s.mem := by
    unfold State.shootOver State.dropLinks
    simp [hwide]
  obtain ⟨hcores, hmem⟩ := hover
  have hcore : ∀ k, (s.shootOver x).core k = s.core k := fun k => congrArg (tget Core.blank · k) hcores
  have hstrand : (s.shootOver x).strand? x.core x.slot = some p := by rw [State.strand?, hcore]; exact hp
  have hwaiter : (s.shootOver x).waiter x.core (fun w => match w with | .tlbinv m _ _ => m == x.id | _ => false) =
      some (.slot x.slot, p) := by rw [State.waiter, hcore]; exact hwait
  have hretire := State.retireShoot_of_slot (hw.of_cores hcores) hwaiter hstrand hst hstep
  refine ⟨_, (p.setD d (toWord n)).retire, exec_shootdownAck_root hfind hgot hacked hdrained hroot (by simp [hwide]), ?_,
    (p.wrote_setD d (toWord n)).of_g rfl rfl, by simp [Strand.retire, Strand.retireTo], rfl, ?_, ?_, ?_⟩
  all_goals rw [hretire]
  · rw [State.strand?_count, State.strand?_putStrand]
  · rfl
  · exact ((SlotsKept.of_cores hcores _ _).trans (State.slotsKept_modCore_tput rfl)).trans
      ⟨fun k hk => State.count_core_ne _ _ _ hk, fun m _ => State.strand?_count _ _ _ _ _ _⟩
  · exact memKept_of_mem hmem

end

/-- Settles O43, event by event: what a fill, a walk, a shoot-down and the root's acknowledgement give. -/
theorem clusterEvents : Obligations.ClusterEvents := by
  unfold Obligations.ClusterEvents
  refine ⟨?fill, ?walk, fun s k w hfind hway => exec_tlbWalk_hole hfind hway,
    fun s x hfind => ⟨?received, ?refused, ?resend, ?acked, ?wide⟩⟩
  case fill =>
    intro s k line c e v more hmiss hroom
    obtain ⟨t, hexec, hmem, hclusters⟩ := exec_icacheFill v hmiss hroom
    obtain ⟨hclu, hone⟩ := clu_of_modClu hclusters
    refine ⟨t, hexec, ?_, fun l hl => ?_, hone, memKept_of_mem hmem⟩
    · rw [hclu, tfind_tput_same]
    · rw [hclu, tfind_tput_ne _ _ hl]
  case walk =>
    intro s k w big pte hfind hleaf hway
    obtain ⟨u, e, hexec, he, hpte, hbig, hwalks, hone, hrest⟩ := exec_tlbWalk_leaf hfind hleaf hway
    have hframe := State.endWalks_page_frame w.id e w.waiters u
    have hclu : ∀ j, (w.waiters.foldl (fun s x => s.endWalk w.id (.page e) x) u).clu j = u.clu j := fun j =>
      (congrArg (fun t : State => t.clu j) hframe :)
    have hcores : u.cores = s.cores := (congrArg State.cores hrest :)
    have hops : u.ops = s.ops := (congrArg State.ops hrest :)
    refine ⟨_, e, hexec, ?_, hpte, hbig, (congrArg Cluster.walks (hclu k)).trans hwalks, fun j hj => (hclu j).trans (hone j hj),
      memKept_of_mem ((congrArg State.mem hframe :).trans (congrArg State.mem hrest :)), ?strand, ?engine⟩
    · rw [State.tlbFind, hclu]
      exact he
    case strand =>
      intro c n kind va p hwaiters hkind hp hwalk
      have hu : u.strand? c n = some p := by
        rw [State.strand?, State.core, hcores]
        exact hp
      rw [hwaiters, List.foldl_cons, List.foldl_nil, State.endWalk_of_strand hkind hu hwalk, State.strand?_putStrand]
    case engine =>
      intro c n va o hwaiters ho hn hwalk
      have hu : EngAt u o := ⟨by rw [hops]; exact ho.found, by rw [hops]; exact ho.only⟩
      rw [hwaiters, List.foldl_cons, List.foldl_nil, State.endWalk_of_engine hu hn hwalk, hops]
  case received =>
    intro hwide hrefused hgot hpower
    have hshot := State.shotDown_receiveShoot (x := x) hpower
    obtain ⟨hclu, hone⟩ := clu_of_modClu hshot.clusters
    refine ⟨_, exec_shootdownRequest_received hfind hwide hrefused hgot, ?_, ?_, hone, memKept_of_mem hshot.mem⟩
    · rw [hclu]; rfl
    · rw [hclu]; rfl
  case refused =>
    intro hwide hrefused hgot hroot hfull
    rw [exec_shootdownRequest_refused hfind hwide hrefused hgot hroot hfull, State.modShoot, mapWhere_id_eq]
  case resend =>
    show execShootdownResend x.id s = _
    rw [execShootdownResend, State.modShoot, mapWhere_id_eq]
  case acked =>
    intro mark n p d hw hwide hgot hacked hdrained hwait hp hst hstep
    exact shootdownAck_retires hfind hw hwide hgot hacked hdrained hwait hp hst hstep
  case wide =>
    intro mark hwide hgot hacked hroot hleaf hhead hlinks hdrained
    have hframe := (s.shootOver x).watchFrame_retireShoot x
    refine ⟨_, exec_shootdownAck_root hfind hgot hacked hdrained hroot fun _ => ⟨hlinks, hhead, hleaf⟩, hframe.shoots,
      fun l => ?_⟩
    rw [State.link, hframe.links]
    exact State.link_shootOver hwide l

end Sys2Proof.Machine
end
